-- ==== Sys2Proof/Word.lean ====
section
/-! DEFINITION. The byte type and the names of the numbered units (R4). -/
namespace Sys2Proof

/-- One byte of an interface (R5: every multi-byte field is little-endian, byte 0 first). -/
abbrev Byte := BitVec 8
/-- A sequence of bytes in transmission order. -/
abbrev Bytes := List Byte
/-- A 32-bit word. -/
abbrev Word := BitVec 32

/-- Branch 0 to 15, ports BR0 to BR15 (R4). -/
abbrev BranchNo := Fin 16
/-- Tap position 0 to 3 (R4). -/
abbrev TapNo := Fin 4
/-- Node address 0 to 63, 4 × branch + tap (R4). -/
abbrev NodeNo := Fin 64
/-- Axis 0 to 127 (R4). -/
abbrev AxisNo := Fin 128
/-- Loop lane 0 to 7 (R4). -/
abbrev LaneNo := Fin 8
/-- Interpolation group 0 to 15 (R4). -/
abbrev GroupNo := Fin 16
/-- Acquisition unit 0 to 7 (R329). -/
abbrev UnitNo := Fin 8
/-- Master 0 to 11 (R4, R357). -/
abbrev MasterNo := Fin 12
/-- CAN controller CAN0 to CAN2 (R4). -/
abbrev CanNo := Fin 3
/-- Ethernet MAC 0 or 1 (R368). -/
abbrev MacNo := Fin 2
/-- Safe output group SOG0 to SOG3 (R4, R442). -/
abbrev SogNo := Fin 4
/-- Trigger pin TRIG0 to TRIG3 (R4). -/
abbrev TrigNo := Fin 4
/-- Echo output ECHO0 to ECHO3 (R4). -/
abbrev EchoNo := Fin 4

end Sys2Proof
end

