-- ==== Sys2Proof/Syntax.lean ====
section
/-! DEFINITION. The rows of spec/opcode_table.json: one constructor of `Instr` for each row, with the
operands the spec's rules give the row. A row that stands for something the surroundings do carries what they
do (a frame's bytes, a pin's level); a command of a master carries its entry (R358). -/
namespace Sys2Proof

/-- The monitored supply rails of R523. -/
inductive Rail where
  | vddCore | vdda18 | vddio33
deriving DecidableEq, Repr

/-- A result of self-calibration for one branch (R499): the codes of DEV_BR_CAL (R89). -/
structure CalCode where
  drv : Nat
  trim : Int
deriving DecidableEq, Repr

/-- One trim step of a calibration window (R89): each code moves by at most one step. -/
inductive TrimStep where
  | down | stay | up
deriving DecidableEq, Repr

/-- What the boot ROM reads from one image slot: the header fields of R501 and whether BHASH matches the body and
SIG verifies (R502). The slots are programmed from outside the part as well (R500, R548). -/
structure ImageInfo where
  magic : Nat
  hver : Nat
  fwline : Nat
  arb : Nat
  pver : Nat
  iver : Nat
  blen : Nat
  hashOk : Bool
  sigOk : Bool
deriving DecidableEq, Repr

/-- Whether the audit record, the boot flash and the OTP cells take what a command writes to them (R407, R414, R505). -/
structure IoResult where
  auditOk : Bool
  flashOk : Bool
  otpOk : Bool
deriving DecidableEq, Repr

/-- What the checks of step 6 of R495 find in the boot flash: the CRC and HMAC of the two configuration copies
(R505) and of the access-table image (R408), and the first audit record whose chain hash does not verify
(R419), if any. -/
structure FlashCheck where
  copyAOk : Bool
  copyBOk : Bool
  tablesOk : Bool
  chainBadAt : Option Nat
  io : IoResult
deriving DecidableEq, Repr

/-- What a DDR read meets (R507). -/
inductive EccResult where
  | clean | corrected | uncorrectable
deriving DecidableEq, Repr

/-- The PTP messages (R37): a Sync of a one-step or two-step time transmitter, its Follow_Up, the answer to this controller's delay
request that left at a time stamp, an announcement, and a message of the peer delay mechanism. -/
inductive PtpKind where
  | sync (twoStep : Bool) | followUp | delayResp (sent : Nat) | announce | peerDelay
deriving DecidableEq, Repr

/-- A PTP message as it arrives (R37): its kind, whether it comes over IPv6 or belongs to another profile, its domain and sequence
number, the time stamp of its reception in time units, and the host time it carries in nanoseconds. -/
structure PtpMsg where
  kind : PtpKind
  ipv6 : Bool
  otherProfile : Bool
  domain : Nat
  seq : Nat
  tstamp : Nat
  hostNs : Nat
deriving DecidableEq, Repr

/-- What the Reed observes in one receive gate (R135, R136): energy at opening, at close and anywhere; the offset of
the first preamble symbol from the nominal frame start in time units; code violations; the bytes from the
header to the CRC, as far as received before the gate closed. -/
structure GateObs where
  energyAtOpen : Bool
  energyAtClose : Bool
  energy : Bool
  start : Option Int
  codeViol : Nat
  frame : Bytes
deriving DecidableEq, Repr

/-- A burst outside windows (R137): whether it goes on from the close of the last gate without a break, and the
bytes that the Reed decodes in it, from the header on. -/
structure Burst where
  goesOn : Bool
  decoded : Bytes
deriving DecidableEq, Repr

/-- What an item of feedback offsets reports of an axis (kind 0x03 of R478): flags and the index phase alone, an index correction (R258), a
rebase (R252), the shift of a homing (R318), or a baseline (R250). -/
inductive OfsKind where
  | flags | correction | turn | home | baseline
deriving DecidableEq, Repr

/-- The switch inputs of an axis (R120, R303). -/
inductive SwInput where
  | limP | limN | home
deriving DecidableEq, Repr

/-- A record of the state stores of R166. -/
inductive StoreRec where
  | axis (a : AxisNo)
  | group (g : GroupNo)
deriving DecidableEq, Repr

/-- A CAN frame as it stands on the bus (R426). -/
structure CanFrame where
  ide : Bool
  fdf : Bool
  remote : Bool
  ident : BitVec 29
  data : Bytes
deriving DecidableEq, Repr

/-- A bus error or lost arbitration of R427. `rxHeavy` is a receive error that ISO 11898-1 weighs with 8. -/
inductive CanErrKind where
  | arbLost | txError | txKept | rxError | rxHeavy
deriving DecidableEq, Repr

/-- The two safe networks of R453. -/
inductive NetSel where
  | netA | netB
deriving DecidableEq, Repr

/-- Where a safe message arrived (R453). -/
inductive SafeSource where
  /-- A classical data frame on a CAN channel; an FD or a remote frame is none of these and reaches no Damper. -/
  | can (c : CanNo) (ide : Bool) (ident : BitVec 29)
  | mac (m : MacNo) (dstIp : Nat) (dstPort : Nat)
deriving DecidableEq, Repr

/-- The internal faults of the Damper (R460). -/
inductive DamperFaultKind where
  | lockstep | clock | supply | parity
deriving DecidableEq, Repr

/-- The identity the partner sends in TRAINING (R489): its fused role, CSID and pair protocol version. -/
structure PartnerId where
  role : Nat
  csid : BitVec 35
  pver : Nat
deriving DecidableEq, Repr

/-- Why the Selvedge link goes down (R472). -/
inductive LinkDownCause where
  | codeViolations | alignmentLost
deriving DecidableEq, Repr

/-- A command entry of a master, as its transport delivers it (R358): the header fields a well-formed entry can vary
and the payload of PLEN bytes. -/
structure CmdEntry where
  master : MasterNo
  seq : BitVec 32
  tag : BitVec 8
  fence : Bool
  payload : Bytes
deriving DecidableEq, Repr

/-- A stream read: its entry and what the read of the DDR meets (R507). -/
structure StreamRead where
  e : CmdEntry
  ecc : EccResult
deriving DecidableEq, Repr

/-- A move entry of a profile queue (R280, R281): KIND, its target once resolved, the base, and the raw
descriptor values. -/
structure MoveEntry where
  kind : Nat
  target : Int
  base : Option Int
  raw : Int
  vmax : Nat
  tag : Nat
  noBlend : Bool
  rdir : Nat
deriving DecidableEq, Repr

/-- The slot assignment, offset exceptions and class map a node holds (R128). -/
structure SlotAsg where
  /-- SOFS; 10 bits; R128; reset none -/
  sofs : Nat
  /-- SLEN; 10 bits; R128; reset none -/
  slen : Nat
  /-- RCODE; 3 bits; R128; reset none -/
  rcode : Nat
  /-- PHASE; 5 bits; R128; reset none -/
  phase : Nat
  /-- FROM_BOLT as the full bolt count; 27 bits; R128; reset none -/
  fromBolt : Nat
  /-- CODE_MAP by local axis; 16 bits; R128; reset none -/
  codes : List Nat
  /-- Offset exceptions (pick, start in byte-times); a list; R128; reset none -/
  exc : List (Nat × Nat)
  /-- Axis class map by local axis; 24 bits; R128; reset none -/
  classes : List Nat
deriving DecidableEq, Repr

/-- A Draft entry (R133). -/
structure DEnt where
  /-- KIND; 3 bits; R133; reset 0 -/
  kind : Nat
  /-- DIR; 1 bit; R133; reset 0 -/
  dir : Nat
  /-- BRANCH; 4 bits; R133; reset 0 -/
  branch : Nat
  /-- ALLBR; 1 bit; R133; reset false -/
  allbr : Bool
  /-- PICK; 5 bits; R133; reset 0 -/
  pick : Nat
  /-- START; 15 bits; R133; reset 0 -/
  start : Nat
  /-- LEN; 15 bits; R133; reset 0 -/
  len : Nat
  /-- NODE; 6 bits; R133; reset 0 -/
  node : Nat
  /-- CODING; 2 bits; R133; reset 0 -/
  coding : Nat
  /-- AWAIT; 1 bit; R133; reset false -/
  await : Bool
  /-- LATE; 1 bit; R133; reset false -/
  late : Bool
  /-- PIN; 1 bit; R133; reset false -/
  pin : Bool
deriving DecidableEq, Repr

/-- The placement of a node (R46). -/
structure NodePl where
  /-- Node address; 6 bits; R46; reset none -/
  node : Nat
  /-- Rate code; 3 bits; R48; reset none -/
  rcode : Nat
  /-- Node phase; 5 bits; R61; reset none -/
  phase : Nat
  /-- Slot length S in byte-times; 10 bits; R48; reset none -/
  slen : Nat
  /-- Slot position, 4 + k for spare slot k; 4 bits; R75; reset none -/
  pos : Nat
  /-- Spare slot taken by a late-comer; 2 bits; R67; reset none -/
  spare : Option Nat
  /-- Slot start in byte-times in each pick of the phase (pick, start); a list; R49; reset none -/
  starts : List (Nat × Nat)
  /-- The slot position is pinned; 1 bit; R65; reset none -/
  pinned : Bool
  /-- The classes declared when the slot was formed, by local axis; 24 bits; R128; reset none -/
  classes : List Nat
  /-- CODE_MAP by local axis; 16 bits; R128; reset none -/
  codes : List Nat
deriving DecidableEq, Repr

/-- The placement of an axis (R46, R75). -/
structure AxisPl where
  /-- Axis; 7 bits; R75; reset none -/
  axis : Nat
  /-- Node address; 6 bits; R75; reset none -/
  node : Nat
  /-- Local axis; 3 bits; R41; reset none -/
  lax : Nat
  /-- UNPLACED; 1 bit; R75; reset none -/
  unplaced : Bool
  /-- WHY; 16 bits; R75; reset none -/
  why : Nat
  /-- Home lane, 15 if unplaced; 4 bits; R75; reset none -/
  lane : Nat
  /-- CODING; 2 bits; R75; reset none -/
  coding : Nat
  /-- PH_CUR; 5 bits; R75; reset none -/
  phCur : Nat
  /-- PH_SPD; 5 bits; R75; reset none -/
  phSpd : Nat
  /-- PH_POS; 5 bits; R75; reset none -/
  phPos : Nat
  /-- CYC; 16 bits; R75; reset none -/
  cyc : Nat
  /-- POOL_BASE in MiB; 16 bits; R75; reset none -/
  poolBase : Nat
  /-- POOL_SIZE in MiB; 16 bits; R75; reset none -/
  poolSize : Nat
  /-- LATE; 1 bit; R75; reset none -/
  late : Bool
  /-- Order among the late-comers' down records, 0 for an axis that is none; a number; R115; reset none -/
  order : Nat
  /-- AWAIT of the report; 1 bit; R75; reset none -/
  await : Bool
  /-- PIN_SP of the report; 1 bit; R75; reset none -/
  pinSp : Bool
  /-- PIN_LN of the report; 1 bit; R75; reset none -/
  pinLn : Bool
  /-- SLOT of the report, 4 + k for spare slot k; 4 bits; R75; reset none -/
  slot : Nat
deriving DecidableEq, Repr

/-- A placement: what a successful run produces (R46). -/
structure Place where
  /-- Axes placed or flagged, ascending; a list; R46; reset empty -/
  axes : List AxisPl := []
  /-- Nodes with a slot; a list; R46; reset empty -/
  nodes : List NodePl := []
  /-- The Draft of one bolt; up to 3,072 entries; R132; reset empty -/
  draft : List DEnt := []
  /-- Buffers of the acquisition units: unit, base and size in MiB; a list; R350; reset empty -/
  acq : List (Nat × Nat × Nat) := []
  /-- Spare slots: branch, index and the start in byte-times in each of the 32 picks; a list; R49 R67; reset empty -/
  spares : List (Nat × Nat × List Nat) := []
  /-- Picks of spare slots that late-comers have taken: branch, index, rate code and phase; a list; R67 R70; reset empty -/
  taken : List (Nat × Nat × Nat × Nat) := []
  /-- Slots that moved nodes have left, unused until the next full run; a list; R70; reset empty -/
  left : List NodePl := []
deriving DecidableEq, Repr

/-- Homing of an axis (11). -/
structure AxHome where
  /-- HM_PHASE; 4 bits; R323; reset 0 -/
  phase : Nat := 0
  /-- HM_RESULT; 16 bits; R323; reset 0 -/
  result : Nat := 0
  /-- Mode of the sequence; 4 bits; R313; reset 0 -/
  mode : Nat := 0
  /-- Search direction s; 2 bits signed; R312; reset 1 -/
  s : Int := 1
  /-- Direction of the present leg; 2 bits signed; R314; reset 1 -/
  dir : Int := 1
  /-- Parameters PRF_HM_VSRCH, ACC, DEC, OFS, DMAX, ILIM, TSTOP taken by the command; 7 values; R322; reset empty -/
  par : List Int := []
  /-- c_ext at the start of the leg; 64 bits signed; R314; reset 0 -/
  leg0 : Int := 0
  /-- The search has been reversed once; 1 bit; R315; reset false -/
  reversed : Bool := false
  /-- c_h; 64 bits signed; R313; reset 0 -/
  cH : Int := 0
  /-- c_edge of HOME in mode 0x3; 64 bits signed; R313; reset 0 -/
  cHome : Int := 0
  /-- What follows at rest: 1 the search after a back-off, 2 the reversed search; in phase 6 the failure code; 16 bits; R313 R315; reset 0 -/
  next : Nat := 0
  /-- Pick stamp of the limit trip that ended the leg; 32 bits; R321; reset none -/
  trip : Option (BitVec 32) := none
  /-- Index report last decoded in the sequence and its pick stamp; 96 bits; R321; reset none -/
  idx : Option (Int × BitVec 32) := none
  /-- Pick stamp from which saturation at standstill has held; 32 bits; R317; reset none -/
  stallPs : Option (BitVec 32) := none
deriving DecidableEq, Repr

/-- A group entry: speed limit, tag and, for each member, target T and base B (R292); an entry without members is a halt
(R289). -/
structure GEntry where
  /-- VMAX; 32 bits; R293; reset none -/
  vmax : Nat
  /-- The bases are deferred until the entry becomes active; 1 bit; R281; reset none -/
  defer : Bool
  /-- TAG; 16 bits; R280; reset none -/
  tag : Nat
  /-- Member, T and B; a list; R293; reset none -/
  mem : List (Nat × Int × Int)
deriving DecidableEq, Repr

/-- Where a UDP datagram is sent and how it travels (R368): IPv6, a fragmented IPv4 datagram, its destination address and port. -/
structure UdpTo where
  v6 : Bool
  frag : Bool
  ip : Nat
  port : Nat
deriving DecidableEq, Repr

/-- The content of a Selvedge item (R478), one constructor for each matter that its kinds carry; the values of a run go with its
placement. The bulk of R489 is made of the same, with the whole table of parameters, the counts, every S_next and the number of the
last item whose effect it holds. The address that a CAN channel holds goes by item too (R490), and so does a swap pick (R488). The bit layout of item and bulk bodies
belongs to firmware line 4 (R473). -/
inductive ItemBody where
  | axisState (a : AxisNo) (state react fcode : Nat) (disCmd : Bool)
  | queue (a : AxisNo) (entries : List MoveEntry) (act limStop : Bool)
  | group (g : GroupNo) (entries : List GEntry) (act : Bool) (mem : List (Nat × Int × Int)) (len : Nat) (lead : Option Nat) (shape : List Int)
      (vm : Int) (hold : Bool) (qdec : Option Int)
  | feedbackOfs (a : AxisNo) (kind : OfsKind) (dc : Int) (kTot : Int) (ph : Option Int) (refd : Bool) (idxMiss : Nat) (homeOfs : Int)
  | debounced (a : AxisNo) (sw : SwInput) (level : Bool) (cEdge : Int) (chatter : Bool)
  | homing (a : AxisNo) (hm : AxHome)
  | acceptance (e : CmdEntry) (opcode : Nat) (effects : Option (List (BitVec 32)))
  | journal (master : MasterNo) (seq : BitVec 32) (opcode : Nat) (tag : BitVec 8) (status psl : Nat) (payload : Bytes)
  | params (values : List (Nat × Int))
  | placement (epoch : BitVec 32) (place : Place) (values : List (Nat × Int))
  | network (n : NodeNo) (admitted muted integrated lost : Bool) (tRt : Int) (desc : Bytes) (asg : Option SlotAsg)
  | branches (brpwr cut : BitVec 16)
  | access (target : Nat) (words : List (BitVec 16)) (count : Nat)
  | key (slot : Fin 8) (state : Nat) (master : Nat) (key : Bytes)
  | safeRelease (mask : BitVec 4)
  | safeSet (values : List (Nat × Int))
  | microstep (n : NodeNo) (image : Bytes)
  | allParams (values : List (Nat × Int))
  | count (a : AxisNo) (cExt : Int)
  | nextSeq (master : MasterNo) (seq : BitVec 32)
  | base (iseq : BitVec 32)
  | canAddr (c : CanNo) (sa : Nat)
  | swapPick (pick : BitVec 32)
deriving DecidableEq, Repr

/-- An item of R478: its number, the pick stamp from which its effect applies, and its content. -/
structure Item where
  iseq : BitVec 32
  pe : BitVec 32
  body : ItemBody
deriving DecidableEq, Repr

/-- An item as it arrives, and whether the CRC of its segment agrees (R473, R478). -/
structure ItemSeg where
  item : Item
  crcOk : Bool
deriving DecidableEq, Repr

/-- An acknowledgement as it arrives: the number of the item, and whether the CRC of its segment agrees (R473, R478). -/
structure AckSeg where
  iseq : BitVec 32
  crcOk : Bool
deriving DecidableEq, Repr

/-- A bulk segment as it arrives: what it carries, and whether its CRC agrees (R473, R489). -/
structure BulkSeg where
  items : List ItemBody
  crcOk : Bool
deriving DecidableEq, Repr

/-- Where a UDP datagram comes from (R368): its source address and port. -/
structure UdpFrom where
  ip : Nat
  port : Nat
deriving DecidableEq, Repr

/-- Where an ICMP message is sent and how it travels (R368): in a fragmented datagram or not, its destination address. -/
structure IcmpTo where
  frag : Bool
  ip : Nat
deriving DecidableEq, Repr

/-- What the Reed observes of an acyclic reply (R127, R135): its start against the nominal one in time units, and its code violations. -/
structure ReplyObs where
  start : Int
  codeViol : Nat
deriving DecidableEq, Repr

/-- A reply gate that closes without a reply (R127): its branch, and the code violations in it. -/
structure ReplyGate where
  branch : BranchNo
  codeViol : Nat
deriving DecidableEq, Repr

/-- A parser takes a frame (R170, R171): its branch, and the time in time units from pick start. -/
structure ParseAt where
  branch : BranchNo
  t : Nat
deriving DecidableEq, Repr

/-- The times of an axis job in time units from pick start (R168): the end of its feedback decode task, and its end. -/
structure JobTimes where
  decode : Nat
  done : Nat
deriving DecidableEq, Repr

/-- What the part samples at the build deadline (R176, R327): the trigger pin levels, and the axes whose running job has ended its
feedback decode task (R168). -/
structure DeadlineObs where
  trigLevels : BitVec 4
  decoded : List AxisNo
deriving DecidableEq, Repr

/-- An error in a state store (R181): the record, whether it was corrected, and whether the running job that it stops had ended its feedback
decode task (R168). -/
structure StoreErr where
  item : StoreRec
  corrected : Bool
  decoded : Bool
deriving DecidableEq, Repr

/-- A microcode parity error (R181): the lane, and whether the running job that it stops had ended its feedback decode task (R168). -/
structure ParityErr where
  lane : LaneNo
  decoded : Bool
deriving DecidableEq, Repr

/-- The sender of a gateway message (R374): its source address, and whether the message came in one FD frame. -/
structure GwFrom where
  addr : Byte
  inFd : Bool
deriving DecidableEq, Repr

/-- A marker of the active controller (R112, R483): whether it is a running one, and its value. -/
structure MarkerSeen where
  running : Bool
  value : BitVec 48
deriving DecidableEq, Repr

/-- The rows of spec/opcode_table.json, in the table's order. -/
inductive Instr where
  -- start-up, supply, clock (19, 21, 01)
  | nresetAssert (lowNs : Nat)
  | nresetRelease
  | supplyOutOfRange (rail : Rail) (mV : Nat) (durNs : Nat)
  | pllLockAchieved
  | selfCalibrationDone (codes : List CalCode)
  | ddrTrainingDone (ok : Bool)
  | ddrZeroingDone (ok : Bool)
  | imageVerified (slotA slotB : ImageInfo)
  | firmwareStartDone (chk : FlashCheck)
  | watchdogExpiry
  | pllLockLoss
  | ddrInitGranule
  | ddrScrubBurst (ecc : EccResult)
  | pickStart (readbackBad : List BranchNo)
  | boltBoundary
  | ptpMessageReceive (mac : MacNo) (msg : PtpMsg)
  | ptpTimeout
  -- network start (03)
  | brpwrStaggerExpiry
  | coldStartListenEnd
  | foreignMarkerReceive (b : BranchNo) (running : Bool) (value : BitVec 48)
  | csBackoffExpiry
  | pickLenSilenceEnd
  | standbyRestartTimeout
  | calibrationWindow (b : BranchNo) (drv trim : TrimStep)
  -- frames and guardian (04, 05, 06)
  | downFrameTransmit (b : BranchNo)
  | upSlotGateClose (n : NodeNo) (obs : GateObs)
  | nodeMuted (n : NodeNo)
  | nodeLost (n : NodeNo)
  | energyOutsideWindows (b : BranchNo) (burst : Burst) (readback : Bool)
  | joinSlotGateClose (b : BranchNo) (tap : TapNo) (obs : GateObs)
  | frameParse (p : ParseAt)
  | heldJobEnter (b : BranchNo)
  | acyclicWindow (b : BranchNo) (k : Nat)
  | acyclicReplyReceive (b : BranchNo) (obs : ReplyObs) (frame : Bytes)
  | descriptorRetryExpiry (n : NodeNo)
  | branchCutHoldExpiry (b : BranchNo)
  | placementRunStart
  | placementRunComplete
  | buildDeadline (dieTemp : Int) (obs : DeadlineObs)
  | axisJobComplete (a : AxisNo) (t : JobTimes)
  -- axes (07 to 11)
  | debouncedChange (a : AxisNo) (sw : SwInput)
  | chatterClear (a : AxisNo) (sw : SwInput)
  | hardStopDetect (a : AxisNo)
  | fbLost (a : AxisNo)
  | interpolationJobComplete (g : GroupNo) (t : Nat)
  | profileJobComplete (a : AxisNo) (t : Nat)
  | qstopEnd (a : AxisNo)
  | qstopTimeout (a : AxisNo)
  | stepperHoldTimer (a : AxisNo)
  | bootUv (a : AxisNo)
  | boostExpiry (a : AxisNo)
  | overtemp (a : AxisNo)
  | codeResyncStall (n : NodeNo)
  | laneMicrocodeParityError (e : ParityErr)
  | stateEcc (e : StoreErr)
  | echoStep (e : EchoNo)
  -- acquisition (12)
  | trigPinEdge (pin : TrigNo) (rising : Bool) (tt : Nat) (frac : Fin 32)
  | captureClose (u : UnitNo)
  | acqDecimationLower (u : UnitNo)
  | acqRateApply (u : UnitNo)
  | kilnBlockWrite
  | histPostFaultFreeze (a : AxisNo)
  -- host transports (13)
  | ethHelloReceive (mac : MacNo) (dst : UdpTo) (src : UdpFrom) (dg : Bytes)
  | ethDataReceive (mac : MacNo) (dst : UdpTo) (src : UdpFrom) (dg : Bytes)
  | ethCloseReceive (mac : MacNo) (dst : UdpTo) (src : UdpFrom) (dg : Bytes)
  | sessionOpenTimeout (m : MasterNo)
  | sessionTimeout (m : MasterNo)
  | datagramSend (m : MasterNo)
  | arpRequest (mac : MacNo) (targetIp senderIp : Nat)
  | icmpEchoRequest (mac : MacNo) (dst : IcmpTo) (srcIp : Nat) (data : Bytes)
  | qspiCmdHeadWrite (head : BitVec 16) (slots : List Bytes)
  | qspiCplTailWrite (tail : BitVec 16)
  | qspiIrqStatClear (mask : BitVec 32)
  | qspiRegisterWrite (addr : BitVec 24) (bytes : Bytes)
  | canGatewayMessage (c : CanNo) (src : GwFrom) (data : Bytes)
  | completionWrite (m : MasterNo)
  | mbRingStall (m : MasterNo)
  | eventDeliver (m : MasterNo)
  | parStageExpired (pnum inst : Nat)
  | mstabLoadTimeout (n : NodeNo)
  | outputOverrideEnd (a : AxisNo)
  -- commands of the catalogue (14)
  | nop (e : CmdEntry)
  | statusRead (e : CmdEntry)
  | evlogRead (e : CmdEntry)
  | parRead (e : CmdEntry)
  | parWrite (e : CmdEntry) (io : IoResult)
  | parCommit (e : CmdEntry) (io : IoResult)
  | parDiscard (e : CmdEntry)
  | parStaged (e : CmdEntry)
  | placeFull (e : CmdEntry)
  | placeReport (e : CmdEntry)
  | draftRead (e : CmdEntry)
  | netStatsRead (e : CmdEntry)
  | netStatsClear (e : CmdEntry)
  | nodeReadmit (e : CmdEntry)
  | branchCut (e : CmdEntry)
  | branchReadmit (e : CmdEntry)
  | axisRekey (e : CmdEntry)
  | mstabLoad (e : CmdEntry)
  | loomStatsRead (e : CmdEntry)
  | loomStatsClear (e : CmdEntry)
  | hostStatsRead (e : CmdEntry)
  | hostStatsClear (e : CmdEntry)
  | axisEnable (e : CmdEntry)
  | axisDisable (e : CmdEntry)
  | faultReset (e : CmdEntry)
  | outputOverride (e : CmdEntry)
  | move (e : CmdEntry)
  | groupMove (e : CmdEntry)
  | halt (e : CmdEntry)
  | home (e : CmdEntry)
  | acqArm (e : CmdEntry)
  | acqDisarm (e : CmdEntry)
  | acqForce (e : CmdEntry)
  | acqRelease (e : CmdEntry)
  | acqReadCapture (e : CmdEntry) (ecc : EccResult)
  | acqReadStream (r : StreamRead)
  | histRead (e : CmdEntry) (ecc : EccResult)
  | histFreeze (e : CmdEntry)
  | histRestart (e : CmdEntry)
  | accRead (e : CmdEntry)
  | accWrite (e : CmdEntry) (io : IoResult)
  | keyProvision (e : CmdEntry) (io : IoResult)
  | keyRevoke (e : CmdEntry) (io : IoResult)
  | auditRead (e : CmdEntry)
  | canAbortRequeue (e : CmdEntry)
  | canStatsRead (e : CmdEntry)
  | canTx (e : CmdEntry)
  | safeReset (e : CmdEntry)
  | safeStatus (e : CmdEntry)
  | pairSwap (e : CmdEntry)
  | pairStatus (e : CmdEntry)
  | fwBegin (e : CmdEntry)
  | fwData (e : CmdEntry)
  | fwVerify (e : CmdEntry)
  | fwActivate (e : CmdEntry)
  | fwSlotEraseDone (ok : Bool)
  | fwActivateRestart
  -- CAN (16)
  | canFrameReceive (c : CanNo) (f : CanFrame) (t : Nat)
  | canFrameSent (c : CanNo)
  | canBusError (c : CanNo) (kind : CanErrKind)
  | canBoffDelayExpiry (c : CanNo)
  | canBusOn (c : CanNo)
  | canAutoRequeue (c : CanNo)
  | canTxExpired (c : CanNo)
  | canClaimWaitExpiry (c : CanNo)
  | canTpTimeout (c : CanNo) (peer : Byte) (rx : Bool)
  -- Damper (17)
  | damperEvaluation
  | sogLsOnDelay (g : SogNo)
  | sinSample (levels : BitVec 4)
  | sinDiscrepancy (p : Fin 2)
  | safeMessageReceive (src : SafeSource) (data : Bytes) (t : Nat)
  | smUnpaired (net : NetSel)
  | smTimeout
  | darkTestStart (g : SogNo)
  | darkTestSample (g : SogNo) (mid : Bool)
  | darkTestOverdue (g : SogNo)
  | midReadbackSample (levels : BitVec 4)
  | damperClockCheck (devPermille : Int)
  | damperFault (kind : DamperFaultKind)
  | nsafeRstEdge (level : Bool)
  | safeRstStuck
  | safeResetWindowExpiry (net : NetSel)
  -- pair (18)
  | selvedgeLinkUp (partner : PartnerId)
  | selvedgeLinkDown (cause : LinkDownCause)
  | stateFrameReceive (seg : Bytes)
  | itemReceive (it : ItemSeg)
  | itemAckReceive (ack : AckSeg)
  | itemAckTimeout
  | partnerSilenceTimeout
  | bulkSegmentReceive (pct : Nat) (seg : BulkSeg)
  | bulkComplete
  | pairInSync
  | pairTakeover
  | pairCollision
  | pairSwapPick
  | pairSwapAutoExpiry
  | supplyRestored (rail : Rail) (mV : Nat)
  | standbyMarkerReceive (b : BranchNo) (m : MarkerSeen)
  | standbyDownFrameRead (b : BranchNo) (frame : Bytes)
  | acyclicReplyGateClose (g : ReplyGate)
  | fwSlotProgramDone (ok : Bool)
  | cannotClaimDelayExpiry (c : CanNo)
  | tjHigh
deriving DecidableEq, Repr

end Sys2Proof
end

