-- ==== Sys2Proof/Decode.lean ====
section
/-! DEFINITION. The row that a word spells by the bits of spec/opcode_table.json. No row of that table gives bits (its
`fields` are empty), so no word spells a row. -/
namespace Sys2Proof

/-- The row of a word of `nbits` bits: none, for the table gives no row any bits. -/
def decodeTableWord (_nbits _w : Nat) : Option Instr := none

end Sys2Proof
end

