-- ==== Sys2Proof/Machine/Arith.lean ====
section
/-! DEFINITION. Numbers, byte order, rounding and checks: R5 to R8, R15, R16 and the CRC of R109. -/
namespace Sys2Proof.Machine

/-- Clamp to [lo, hi]. -/
def clamp (lo hi x : Int) : Int := if x < lo then lo else if hi < x then hi else x
/-- sat16 (R16). -/
def sat16 (x : Int) : Int := clamp (-32768) 32767 x
/-- sat32 (R16). -/
def sat32 (x : Int) : Int := clamp (-2147483648) 2147483647 x
/-- `x >> k`, equal to floor(x / 2^k) (R15). -/
def asr (x : Int) (k : Nat) : Int := Int.fdiv x (2 ^ k : Nat)
/-- `x << k` (R15). -/
def shl (x : Int) (k : Nat) : Int := x * (2 ^ k : Nat)
/-- rshr (R16): round to nearest, halves toward plus infinity. -/
def rshr (x : Int) (k : Nat) : Int := if k = 0 then x else asr (x + (2 ^ (k - 1) : Nat)) k
/-- `a div b`, truncating toward zero (R15). -/
def tdiv (a b : Int) : Int := Int.tdiv a b
/-- `a mod b`, with the sign of a (R15). -/
def tmod (a b : Int) : Int := Int.tmod a b
/-- floor(a / b). -/
def fdiv (a b : Int) : Int := Int.fdiv a b
/-- The non-negative residue of a modulo n. -/
def nmod (a : Int) (n : Nat) : Nat := (Int.emod a n).toNat
/-- Keep the low w bits in two's complement (R15). -/
def wrapS (w : Nat) (x : Int) : Int :=
  let r : Nat := (Int.emod x (2 ^ w : Nat)).toNat
  if 2 ^ (w - 1) ≤ r then (r : Int) - (2 ^ w : Nat) else r
/-- The low w bits, unsigned. -/
def wrapU (w : Nat) (x : Int) : Nat := (Int.emod x (2 ^ w : Nat)).toNat
/-- Sign of x. -/
def sgn (x : Int) : Int := if x < 0 then -1 else if x = 0 then 0 else 1
/-- |x|. -/
def iabs (x : Int) : Int := if x < 0 then -x else x
/-- The smaller. -/
def imin (a b : Int) : Int := if a ≤ b then a else b
/-- The larger. -/
def imax (a b : Int) : Int := if a ≤ b then b else a
/-- A count that saturates at 2^w − 1. -/
def satInc (w n : Nat) : Nat := if n < 2 ^ w - 1 then n + 1 else n
/-- Add to a count that saturates at 2^w − 1. -/
def satAdd (w n k : Nat) : Nat := min (n + k) (2 ^ w - 1)
/-- 1 for true. -/
def b2n (b : Bool) : Nat := if b then 1 else 0
/-- Bit i of a number. -/
def nbit (n i : Nat) : Bool := n.testBit i
/-- Bits [lo + w − 1 : lo] of a number. -/
def nbits (n lo w : Nat) : Nat := n / 2 ^ lo % 2 ^ w
/-- ceil(a / b). -/
def cdiv (a b : Nat) : Nat := (a + b - 1) / b

/-- The largest r with r ≥ lo and r² ≤ x, given that r < lo + 2^k. -/
def isqrtAux (x : Nat) : Nat → Nat → Nat
  | 0, r => r
  | k + 1, r => if (r + 2 ^ k) * (r + 2 ^ k) ≤ x then isqrtAux x k (r + 2 ^ k) else isqrtAux x k r
/-- floor of the square root of x < 2^160. -/
def isqrt (x : Nat) : Nat := isqrtAux x 80 0

/-- The n bytes of v, byte 0 first (R5). -/
def le : Nat → Nat → Bytes
  | 0, _ => []
  | n + 1, v => BitVec.ofNat 8 v :: le n (v / 256)
/-- The n bytes of a signed value. -/
def leS (n : Nat) (v : Int) : Bytes := le n (wrapU (8 * n) v)
/-- The number whose bytes, byte 0 first, are given (R5). -/
def ofLe : Bytes → Nat
  | [] => 0
  | b :: bs => b.toNat + 256 * ofLe bs
/-- The unsigned number in n bytes from an offset. -/
def rdLe (bs : Bytes) (off n : Nat) : Nat := ofLe ((bs.drop off).take n)
/-- The signed number in n bytes from an offset. -/
def rdLeS (bs : Bytes) (off n : Nat) : Int := wrapS (8 * n) (rdLe bs off n)
/-- Word i of a payload. -/
def word (bs : Bytes) (i : Nat) : Nat := rdLe bs (4 * i) 4
/-- Words as bytes. -/
def words (ws : List Nat) : Bytes := (ws.map (le 4)).flatten
/-- n bytes of 0. -/
def zeros (n : Nat) : Bytes := List.replicate n 0
/-- Pad with bytes of 0 up to a length. -/
def padTo (n : Nat) (bs : Bytes) : Bytes := bs ++ zeros (n - bs.length)
/-- Pad with bytes of 0 to a multiple of 4 (R358). -/
def pad4 (bs : Bytes) : Bytes := padTo (4 * cdiv bs.length 4) bs
/-- The ASCII bytes of a string. -/
def ascii (s : String) : Bytes := s.toList.map (fun c => BitVec.ofNat 8 c.toNat)

/-- The CRC register after k more zero-extended bits (reflected form). -/
def crcBits (poly : Nat) : Nat → Nat → Nat
  | 0, c => c
  | k + 1, c => crcBits poly k (if c % 2 = 1 then (c / 2) ^^^ poly else c / 2)
/-- The CRC register after the bytes. -/
def crcBytes (poly : Nat) : Nat → Bytes → Nat
  | c, [] => c
  | c, b :: bs => crcBytes poly (crcBits poly 8 (c ^^^ b.toNat)) bs
/-- CRC-32C: polynomial 0x1EDC6F41 in reflected form, initial value and final XOR 0xFFFFFFFF (R109). -/
def crc32c (bs : Bytes) : Nat := crcBytes 0x82F63B78 0xFFFFFFFF bs ^^^ 0xFFFFFFFF

/-- Difference of two pick stamps, modulo 2^32. -/
def psDiff (a b : BitVec 32) : Nat := (a - b).toNat
/-- Pick within the bolt of a pick stamp (R25). -/
def psPick (a : BitVec 32) : Nat := a.toNat % 32
/-- Bolt count of a pick stamp (R25). -/
def psBolt (a : BitVec 32) : Nat := a.toNat / 32

/-- The member of a list that is least under a key, the first of equals. -/
def argMin {α : Type} (f : α → Int) : List α → Option α
  | [] => none
  | x :: xs =>
    match argMin f xs with
    | none => some x
    | some y => if f y < f x then some y else some x

/-- Sum of a list of integers. -/
def isum (xs : List Int) : Int := xs.foldl (· + ·) 0
/-- Sum of a list of numbers. -/
def nsum (xs : List Nat) : Nat := xs.foldl (· + ·) 0
/-- Largest of a list of numbers, 0 of none. -/
def nmax (xs : List Nat) : Nat := xs.foldl max 0
/-- Insert a number in ascending order. -/
def insertAsc (x : Nat) : List Nat → List Nat
  | [] => [x]
  | y :: ys => if x ≤ y then x :: y :: ys else y :: insertAsc x ys
/-- Ascending order. -/
def sortAsc (xs : List Nat) : List Nat := xs.foldr insertAsc []
/-- Insert by a key, behind members of equal key. -/
def insertBy {α : Type} (lt : α → α → Bool) (x : α) : List α → List α
  | [] => [x]
  | y :: ys => if lt x y then x :: y :: ys else y :: insertBy lt x ys
/-- Stable order under `lt`. -/
def sortBy {α : Type} (lt : α → α → Bool) (xs : List α) : List α :=
  xs.foldl (fun acc x => insertBy lt x acc) []
/-- The list without repeats, first occurrences kept. -/
def dedup (xs : List Nat) : List Nat := xs.foldl (fun a x => if a.contains x then a else a ++ [x]) []

end Sys2Proof.Machine
end

