-- ==== Sys2Proof/Machine/Crypto.lean ====
section
/-! DEFINITION. SHA-256 and HMAC-SHA-256, which R369, R410 and R417 name (FIPS 180-4 and RFC 2104; PRESUMED, log 8:
spec/ names the functions and does not restate them). -/
namespace Sys2Proof.Machine

/-- Keep 32 bits. -/
def w32 (x : Nat) : Nat := x % 4294967296
/-- Rotate a 32-bit word right. -/
def rotr (k x : Nat) : Nat := w32 (x * 2 ^ (32 - k)) + x / 2 ^ k
/-- The complement of a 32-bit word. -/
def not32 (x : Nat) : Nat := 4294967295 - x

/-- The first 32 fractional bits of the k-th root of a number below 2^12: bit by bit, the greatest r whose k-th power does not
pass the number scaled by 2^(32 k). -/
def rootFrac (k p : Nat) : Nat :=
  w32 ((List.range 38).foldl (fun r i => if (r + 2 ^ (37 - i)) ^ k ≤ p * 2 ^ (32 * k) then r + 2 ^ (37 - i) else r) 0)
/-- The primes below 312, of which there are 64: no divisor from 2 to 17 but the number itself. -/
def shaPrimes : List Nat := (List.range 312).filter (fun n => decide (2 ≤ n) && (List.range 18).all (fun d => decide (d < 2 ∨ n ≤ d ∨ n % d ≠ 0)))
/-- The round constants: cube roots of the first 64 primes. -/
def shaK : List Nat := shaPrimes.map (rootFrac 3)

/-- The initial hash words: square roots of the first 8 primes. -/
def shaInit : List Nat := (shaPrimes.take 8).map (rootFrac 2)

/-- Extend the message schedule: the latest 16 words, latest first, and the number of words to add. -/
def shaSched : Nat → List Nat → List Nat
  | 0, w => w
  | k + 1, w =>
    let w15 := w.getD 14 0
    let w2 := w.getD 1 0
    let s0 := rotr 7 w15 ^^^ rotr 18 w15 ^^^ (w15 / 8)
    let s1 := rotr 17 w2 ^^^ rotr 19 w2 ^^^ (w2 / 1024)
    shaSched k (w32 (w.getD 15 0 + s0 + w.getD 6 0 + s1) :: w)

/-- One round on the eight working words. -/
def shaRound (h : List Nat) (kw : Nat) : List Nat :=
  match h with
  | [a, b, c, d, e, f, g, x] =>
    let t1 := x + (rotr 6 e ^^^ rotr 11 e ^^^ rotr 25 e) + ((e &&& f) ^^^ (not32 e &&& g)) + kw
    let t2 := (rotr 2 a ^^^ rotr 13 a ^^^ rotr 22 a) + ((a &&& b) ^^^ (a &&& c) ^^^ (b &&& c))
    [w32 (t1 + t2), a, b, c, w32 (d + t1), e, f, g]
  | _ => h

/-- A big-endian word of four bytes. -/
def beWord (bs : Bytes) : Nat := bs.foldl (fun a b => a * 256 + b.toNat) 0
/-- The n bytes of a number, most significant first. -/
def be (n v : Nat) : Bytes := (le n v).reverse

/-- Compress one 64-byte block into the hash words. -/
def shaBlock (h : List Nat) (blk : Bytes) : List Nat :=
  let w := (List.range 16).map (fun i => beWord ((blk.drop (4 * i)).take 4))
  let sched := (shaSched 48 w.reverse).reverse
  let r := (shaK.zip sched).foldl (fun st kw => shaRound st (kw.1 + kw.2)) h
  (h.zip r).map (fun p => w32 (p.1 + p.2))

/-- Compress `n` blocks. -/
def shaBlocks : Nat → List Nat → Bytes → List Nat
  | 0, h, _ => h
  | n + 1, h, bs => shaBlocks n (shaBlock h (bs.take 64)) (bs.drop 64)

/-- SHA-256 of the bytes, 32 bytes. -/
def sha256 (bs : Bytes) : Bytes :=
  let n := bs.length
  let total := cdiv (n + 9) 64
  let msg := padTo (64 * total - 8) (bs ++ [0x80]) ++ be 8 (8 * n)
  ((shaBlocks total shaInit msg).map (be 4)).flatten

/-- HMAC-SHA-256 (key of at most 64 bytes). -/
def hmac (key msg : Bytes) : Bytes :=
  let k := padTo 64 key
  sha256 (k.map (· ^^^ 0x5c) ++ sha256 (k.map (· ^^^ 0x36) ++ msg))

end Sys2Proof.Machine
end

