-- ==== Sys2Proof/Config.lean ====
section
/-! DEFINITION. What one part fixes and spec/ does not state, and the free values: constants without a body, so that no
proof can rest on what they are. -/
namespace Sys2Proof.Config

/-- Free Boolean number `n` (log 2). -/
opaque freeBool : Nat → Bool
/-- Free number `n` (log 2). -/
opaque freeNat : Nat → Nat
/-- Free integer `n` (log 2). -/
opaque freeInt : Nat → Int
/-- The fused chip serial identity CSID (R113). -/
opaque csid : BitVec 35
/-- The device nonce N_d of the n-th HELLO answered, 16 bytes (R369, R370; log 5). -/
opaque nonce : Nat → BitVec 128
/-- The session identifier of the n-th HELLO answered (R370; log 5). -/
opaque newSid : Nat → BitVec 32
/-- The rate offset ρ the firmware derives for a new mapping from the mapping in force and the sample used: old T0, old H0 in ns,
time stamp and host time of the sample (R38; the rule of the derivation is not stated; log 7). -/
opaque rho : Nat → Nat → Nat → Nat → Int
/-- Whether a signature (64 bytes, r then s) over bytes 0 to 47 of an image header verifies under the Tilxon public key, which spec/
does not give (R501, R502; log 2). -/
opaque sigOk : List (BitVec 8) → List (BitVec 8) → Bool
/-- Bytes that the segment of item number `n` takes on the Selvedge: the layout of items is not stated (R473; log 30). -/
opaque itemLen : Nat → Nat
/-- Bytes that body `n` of a bulk takes on the Selvedge, counted from the end of the bulk: the layout is not stated (R473; log 30). -/
opaque bulkLen : Nat → Nat
end Sys2Proof.Config
end

