-- ==== Sys2Proof/Machine/Tab.lean ====
section
/-! DEFINITION. Sparse tables keyed by a number, in one canonical form (keys strictly rising), and byte memories. The
records of the numbered units (R4) and the parameter values (R12) are held in such tables; an unlisted key holds the
table's default. -/
namespace Sys2Proof.Machine

/-- A table: pairs of a key and a value, keys strictly rising. -/
abbrev Tab (α : Type) := List (Nat × α)

/-- The value listed for a key. -/
def tabFind {α : Type} : Tab α → Nat → Option α
  | [], _ => none
  | (j, v) :: t, k => if j = k then some v else tabFind t k

/-- The value of a key: the one listed, or the default. -/
def tabGet {α : Type} (d : α) (t : Tab α) (k : Nat) : α := (tabFind t k).getD d

/-- The table with the value of one key replaced. -/
def tabSet {α : Type} : Tab α → Nat → α → Tab α
  | [], k, v => [(k, v)]
  | (j, w) :: t, k, v =>
    if k < j then (k, v) :: (j, w) :: t
    else if j = k then (k, v) :: t
    else (j, w) :: tabSet t k v

/-- The table without a key. -/
def tabErase {α : Type} : Tab α → Nat → Tab α
  | [], _ => []
  | (j, w) :: t, k => if j = k then tabErase t k else (j, w) :: tabErase t k

/-- Apply a change to the value of one key. -/
def tabMod {α : Type} (d : α) (t : Tab α) (k : Nat) (f : α → α) : Tab α := tabSet t k (f (tabGet d t k))

/-- Set every key of a second table. -/
def tabMerge {α : Type} (t u : Tab α) : Tab α := u.foldl (fun a p => tabSet a p.1 p.2) t

/-- The keys of a table rise strictly: the canonical form. -/
def tabSorted {α : Type} : Tab α → Bool
  | [] => true
  | [_] => true
  | (j, _) :: (k, w) :: t => decide (j < k) && tabSorted ((k, w) :: t)

/-- What a byte of DDR that nothing has written reads as: zero, because the memory is zeroed before its use (R506). -/
def memDefault : Byte := 0

/-- Read one byte. -/
def memRead (m : List Host.Cell) (a : Nat) : Byte := tabGet memDefault m a

/-- Write one byte; a byte equal to the default is not listed. -/
def memWrite (m : List Host.Cell) (a : Nat) (b : Byte) : List Host.Cell :=
  if b = memDefault then tabErase m a else tabSet m a b

/-- Write bytes of ascending address. -/
def memWriteBytes (m : List Host.Cell) (a : Nat) : Bytes → List Host.Cell
  | [] => m
  | b :: bs => memWriteBytes (memWrite m a b) (a + 1) bs

/-- Read `n` bytes of ascending address. -/
def memReadBytes (m : List Host.Cell) (a : Nat) : Nat → Bytes
  | 0 => []
  | n + 1 => memRead m a :: memReadBytes m (a + 1) n

/-- The canonical form of a memory: addresses strictly rising, no listed byte equal to the default. -/
abbrev memWf (m : List Host.Cell) : Prop := tabSorted m = true ∧ m.all (fun c => c.2 != memDefault) = true

end Sys2Proof.Machine
end

