-- ==== Sys2Proof/Machine/State.lean ====
section
/-! DEFINITION. The state of the part: every register, buffer, counter, mode and pin spec/ gives it, as plain data.
Each field's docstring gives its meaning; its width; the rule that names it; its reset value. A field marked
'the model's own' is no state of the part: it carries an operand from one row to a later one or shows what the part
last put on a pin. -/
namespace Sys2Proof.Machine

/-! ### Start-up, memory and boot flash (19, 21) -/

/-- One copy of the configuration area (R505) with the access tables image (R407). -/
structure CfgCopy where
  /-- Sequence number of the copy; a number; R505; reset 0 -/
  seq : Nat := 0
  /-- Whether the copy has been written (an empty copy of a delivered part is not valid); 1 bit; R505; reset false -/
  written : Bool := false
  /-- Values of the kept tied sets, by parameter number × 256 + instance; a table; R505; reset empty -/
  pars : Tab Int := []
deriving DecidableEq, Repr

/-- Start-up, supply, images, DDR background work. -/
structure Boot where
  /-- nRESET held low by the integrator; 1 bit; R525; reset false -/
  nresetLow : Bool := false
  /-- Rails for which the supervisor holds the chip in reset; a list; R523; reset empty -/
  badRails : List Rail := []
  /-- STAGE of DEV_BOOT_STAT, the last step of R495 completed; 4 bits; R497; reset 0 -/
  stage : Nat := 0
  /-- ERR of DEV_BOOT_STAT; 4 bits; R497; reset 0 -/
  err : Nat := 0
  /-- CAUSE of DEV_BOOT_STAT; 4 bits; R497; reset 0 -/
  cause : Nat := 0
  /-- Start-up has stopped until the next release of nRESET; 1 bit; R495; reset false -/
  halted : Bool := false
  /-- TRIAL of DEV_BOOT_STAT, the booted image is in trial; 1 bit; R497; reset false -/
  trial : Bool := false
  /-- SLOT of DEV_BOOT_STAT, the slot booted (false is A); 1 bit; R497; reset false -/
  slotB : Bool := false
  /-- ARB of the image booted; 8 bits; R501; reset 0 -/
  arb : Nat := 0
  /-- PVER of the image booted; 8 bits; R501; reset 0 -/
  pver : Nat := 0
  /-- DDR training has failed once and is retried; 1 bit; R495; reset false -/
  ddrRetried : Bool := false
  /-- READY pin and READY bit; 1 bit; R495; reset false -/
  ready : Bool := false
  /-- Events that are raised once READY has risen, as code and instance; a list; R498 R499 R503 R507; reset empty -/
  afterReady : List (Nat × Nat) := []
  /-- Slot directory: the preferred slot (false is A); 1 bit; R503; reset false DESIGN CHOICE (log 1) -/
  prefB : Bool := false
  /-- Slot directory: TRIAL flag; 1 bit; R503; reset false DESIGN CHOICE (log 1) -/
  dirTrial : Bool := false
  /-- Slot directory: FAILS count; 2 bits; R503; reset 0 DESIGN CHOICE (log 1) -/
  dirFails : Nat := 0
  /-- Configuration area, first copy; a record; R505; reset not written -/
  cfgA : CfgCopy := {}
  /-- Configuration area, second copy; a record; R505; reset not written -/
  cfgB : CfgCopy := {}
  /-- Next pool granule of 1 MiB the background initialiser zeroes (0 to 3,840); 12 bits; R506; reset 0 -/
  granule : Nat := 0
  /-- DDR_DONE; 1 bit; R373 R506; reset false -/
  ddrDone : Bool := false
  /-- Correctable DDR errors of DEV_DDR_STAT; 32 bits saturating; R507; reset 0 -/
  corr : Nat := 0
  /-- Uncorrectable DDR errors of DEV_DDR_STAT; 16 bits saturating; R507; reset 0 -/
  uncorr : Nat := 0
  /-- Next 64-byte burst of the scrubber (0 to 67,108,863); 26 bits; R509; reset 0 -/
  scrubAt : Nat := 0
  /-- Time stamp at the end of the last complete scrub pass, from which the hours of DEV_DDR_STAT count; 64 bits; R507; reset 0 -/
  scrubT : Nat := 0
  /-- Pool bursts lost to an uncorrectable error, not used until re-allocated; a list; R507; reset empty -/
  lostBursts : List Nat := []
  /-- TJ_HIGH raised and not yet below 145 °C; 1 bit; R529; reset false -/
  tjHigh : Bool := false
  /-- Last DIE_TEMP reading, 1/256 °C; 32 bits; R327 R529; reset 0 DESIGN CHOICE (log 1) -/
  dieTemp : Int := 0
deriving DecidableEq, Repr

/-- Firmware update (R504). -/
structure FwUpd where
  /-- An update is in progress: FW_BEGIN taken; 1 bit; R504; reset false -/
  begun : Bool := false
  /-- Announced image bytes; 32 bits; R504; reset 0 -/
  bytes : Nat := 0
  /-- Announced image version; 32 bits; R396; reset 0 -/
  iver : Nat := 0
  /-- The erase begun by FW_BEGIN is still running; 1 bit; R504; reset false -/
  erasing : Bool := false
  /-- The erase failed; 1 bit; R504; reset false -/
  eraseBad : Bool := false
  /-- Ranges (offset, length) of the staging region filled by FW_DATA; a list; R504; reset empty -/
  filled : List (Nat × Nat) := []
  /-- Programming of the slot begun by FW_VERIFY is running; 1 bit; R504; reset false -/
  programming : Bool := false
  /-- The target slot holds a verified image; 1 bit; R504; reset false -/
  verified : Bool := false
  /-- FW_ACTIVATE has completed and the restart is due; 1 bit; R504; reset false -/
  restartDue : Bool := false
deriving DecidableEq, Repr

/-! ### Time base, pick, PTP (01) -/

/-- Time base and pick timer. -/
structure Clk where
  /-- Time stamp, time units of 2.5 ns; 64 bits; R21; reset 0 -/
  now : Nat := 0
  /-- PLL locked; 1 bit; R22; reset false -/
  locked : Bool := false
  /-- Transmission on every branch and the Selvedge stopped until nRESET; 1 bit; R22; reset false -/
  txStopped : Bool := false
  /-- Time stamp of the start of the current pick; 64 bits; R28; reset 0 -/
  pickT0 : Nat := 0
  /-- Pick stamp of the current pick; 32 bits; R25; reset 0 -/
  pstamp : BitVec 32 := 0
  /-- A pick has started since PLL lock or since the stamp was restarted at 0; 1 bit; R25; reset false -/
  started : Bool := false
  /-- The bolt boundary that ends the current bolt has been taken; 1 bit; R25; reset false -/
  boltDone : Bool := false
  /-- The build deadline of the current pick has passed; 1 bit; R30; reset false -/
  afterDl : Bool := false
  /-- Time stamp up to which the lanes have selected; 64 bits; R171 R172; reset 0 -/
  loomT : Nat := 0
  /-- Pick length code in force on the network; 2 bits; R23; reset 1 -/
  plen : Nat := 1
  /-- Pick length change: none (0), markers stop at the next bolt boundary (1), silence (2); 2 bits; R24; reset 0 -/
  plenStop : Nat := 0
  /-- Pick length code of the change in progress; 2 bits; R24; reset 1 -/
  plenNew : Nat := 1
  /-- Item of a change of pick length that is still to be acknowledged; an optional number; R24 R478; reset none -/
  plenItem : Option (BitVec 32) := none
  /-- Pick stamp of the bolt boundary that the item of a change of pick length names; 32 bits; R24 R478; reset 0 -/
  plenAt : BitVec 32 := 0
  /-- Time stamp at which the markers stopped for a change of pick length; 64 bits; R24; reset 0 -/
  plenT : Nat := 0
  /-- PICK_OUT: width in time units of the pulse at the start of the current pick, 0 when low; 9 bits; R34; reset 0 -/
  pickOut : Nat := 0
  /-- A valid pick marker has been sent or received and markers go on; 1 bit; R35; reset false -/
  markers : Bool := false
  /-- Last marker put on the branches: cold start and its 48-bit value; the model's own; R112 R113; reset none -/
  lastMarker : Option (Bool × BitVec 48) := none
deriving DecidableEq, Repr

/-- Alignment to a host clock. -/
structure Ptp where
  /-- T0 of the mapping; 64 bits; R38; reset 0 -/
  t0 : Nat := 0
  /-- H0 seconds; 48 bits; R38; reset 0 -/
  h0s : Nat := 0
  /-- H0 nanoseconds; 32 bits; R38; reset 0 -/
  h0ns : Nat := 0
  /-- Rate offset ρ; 32 bits; R38 R39; reset 0x80000000 -/
  rho : Int := -2147483648
  /-- Time stamp of the last valid PTP message; 64 bits; R39; reset none -/
  lastT : Option Nat := none
  /-- Time stamp and host time of the last valid message, used at the next bolt; 128 bits; R38; reset none -/
  sample : Option (Nat × Nat) := none
  /-- Sequence number and reception time stamp of a two-step Sync whose Follow_Up has not come; a pair; R37; reset none -/
  sync : Option (Nat × Nat) := none
  /-- Reception time stamp of the last Sync with the host time it left at; a pair; R37; reset none -/
  last : Option (Nat × Nat) := none
  /-- Path delay in ns from the last delay request and response; a number; R37; reset 0 -/
  delayNs : Nat := 0
  /-- PTP_LOST raised since the mapping became invalid or HST_PTP_EN was last set; 1 bit; R39; reset true -/
  lost : Bool := true
deriving DecidableEq, Repr

/-! ### Mailboxes, parameters, event log (13, 14) -/

/-- A completion entry (R359). -/
structure Cpl where
  /-- SEQ; 32 bits; R359; reset none -/
  seq : BitVec 32
  /-- OPCODE; 16 bits; R359; reset none -/
  opcode : Nat
  /-- TAG; 8 bits; R359; reset none -/
  tag : BitVec 8
  /-- REPEAT; 1 bit; R359; reset none -/
  rep : Bool
  /-- NOTACC; 1 bit; R359; reset none -/
  notAcc : Bool
  /-- STATUS; 16 bits; R359; reset none -/
  status : Nat
  /-- PSL; 24 bits; R359; reset none -/
  psl : Nat
  /-- Payload; up to 1,008 bytes; R359; reset none -/
  payload : Bytes
deriving DecidableEq, Repr

/-- An event entry (R360), as the pending table holds it. -/
structure Ev where
  /-- CODE; 16 bits; R360; reset none -/
  code : Nat
  /-- INST; 16 bits; R360; reset none -/
  inst : Nat
  /-- COUNT; 16 bits; R360; reset none -/
  count : Nat
  /-- PSTAMP; 32 bits; R360; reset none -/
  pstamp : BitVec 32
  /-- Payload; up to 16 bytes; R360; reset none -/
  payload : Bytes
deriving DecidableEq, Repr

/-- An entry of a completion ring. -/
inductive RingEntry where
  | cpl (c : Cpl)
  | evt (eseq : BitVec 16) (e : Ev)
deriving DecidableEq, Repr

/-- What a command in flight waits for before its completion is produced. -/
inductive Wait where
  /-- the application of validated values, by their number (R386, R388) -/
  | applied (id : Nat)
  /-- a placement run that it started, by the run's number (R388) -/
  | run (id : Nat)
  /-- the change of DEV_PICK_LEN: cold start and full run (R24, R391) -/
  | pickLen
  /-- the end of a microstep download to a node (R393) -/
  | mstab (node : Nat)
  /-- the axis enters ENABLED, or READY for a measure axis (R205, R394) -/
  | enable (axis : Nat)
  /-- the end of the pick, at which an axis command of this opcode acts behind the faults and HOLD of the pick (R207) -/
  | axis (op axis : Nat)
  /-- the override starts (R394) -/
  | override (axis : Nat)
  /-- BRPWR of the branch is low (R392) -/
  | cut (branch : Nat)
  /-- markers resume on the branch (R392) -/
  | readmit (branch : Nat)
  /-- the first Damper evaluation that follows (R458) -/
  | damper (mask : Nat)
  /-- the swap pick (R488) -/
  | swap
  /-- the end of erase and programming (R504) -/
  | fwVerify
  /-- the partner's acknowledgement of the item (R412, R462, R407) -/
  | partner (iseq : BitVec 32)
  /-- the application of the item with this number, after a takeover (R479) -/
  | item (iseq : BitVec 32)
  /-- the end of an attempt of the head of the CAN FIFO (R433) -/
  | canHead (ch : Nat)
  /-- nothing the part still owes: the completion has been produced -/
  | done
deriving DecidableEq, Repr

/-- A command in flight (R363). -/
structure Flight where
  /-- The entry; a record; R358; reset none -/
  entry : CmdEntry
  /-- Its opcode; 16 bits; R358; reset none -/
  opcode : Nat
  /-- What it waits for; none while it has not been taken for execution; a tag; R363 R365; reset none -/
  wait : Option Wait
deriving DecidableEq, Repr

/-- The mailbox of one master (R357 to R367, R376). -/
structure Mb where
  /-- S_next; 32 bits; R362; reset 0 -/
  sNext : BitVec 32 := 0
  /-- Commands in flight, oldest first; up to 64; R363; reset empty -/
  flights : List Flight := []
  /-- Completions that wait for ring space, oldest first; a list; R366; reset empty -/
  waiting : List Cpl := []
  /-- Time stamp from which the oldest completion waits; 64 bits; R366; reset 0 -/
  waitT : Nat := 0
  /-- MB_RING_STALL raised and the ring not yet drained; 1 bit; R366; reset false -/
  stalled : Bool := false
  /-- Completed-command journal, latest first; 256 completions; R362; reset empty -/
  journal : List Cpl := []
  /-- Pending table of events, oldest first; 128 entries; R367; reset empty -/
  events : List Ev := []
  /-- ESEQ of the next event entry; 16 bits; R360; reset 0 -/
  eseq : BitVec 16 := 0
  /-- Completion ring, oldest first; 128 slots; R373; reset empty -/
  ring : List RingEntry := []
  /-- DROP_AUTH; 32 bits saturating; R376; reset 0 -/
  dropAuth : Nat := 0
  /-- MALFORMED; 32 bits saturating; R376; reset 0 -/
  malformed : Nat := 0
  /-- NOTACC_CNT; 16 bits saturating; R376; reset 0 -/
  notAccCnt : Nat := 0
  /-- REPEAT_CNT; 16 bits saturating; R376; reset 0 -/
  repeatCnt : Nat := 0
  /-- EVT_MERGED; 16 bits saturating; R376; reset 0 -/
  evtMerged : Nat := 0
  /-- SESSIONS; 16 bits saturating; R376; reset 0 -/
  sessions : Nat := 0
deriving DecidableEq, Repr

/-- The staging area of one tied set instance (R387). -/
structure Stage where
  /-- Owner master; 4 bits; R387; reset none -/
  owner : Nat
  /-- Time stamp of the owner's first staging write; 64 bits; R387; reset none -/
  t0 : Nat
  /-- Staged values by parameter number × 256 + instance; a table; R387; reset none -/
  vals : Tab Int
deriving DecidableEq, Repr

/-- The boundary at which validated values are applied (R388); of a stepper's MOD_AX, the node's acknowledgement that follows it (R240). -/
inductive Bound where
  | pick | bolt | ack
deriving DecidableEq, Repr

/-- Validated values that wait for their boundary (R386, R388). -/
structure Pend where
  /-- Number of these values (the model's own, to name the command that waits); a number; R388; reset none -/
  id : Nat
  /-- Boundary; 2 bits; R388 R240; reset none -/
  at' : Bound
  /-- The tied set instances applied, as set code × 256 + instance; a list; R388; reset none -/
  sets : List Nat
  /-- The values to apply; a table; R388; reset none -/
  vals : Tab Int
  /-- The item whose acknowledgement the change waits for in a pair; 32 bits; R478; reset none -/
  item : Option (BitVec 32)
deriving DecidableEq, Repr

/-- Parameters. -/
structure Par where
  /-- Values in force that differ from or repeat the default, by parameter number × 256 + instance; a table; R12 R384; reset empty (every parameter at its default) -/
  force : Tab Int := []
  /-- Staging areas by set code × 256 + instance; a table; R387; reset empty -/
  stages : Tab Stage := []
  /-- Validated values waiting for their boundary; a list; R388; reset empty -/
  pends : List Pend := []
  /-- MOD_AX values of stepper axes that wait for the node's acknowledgement, by parameter number × 256 + instance; a table; R240; reset empty -/
  stepMod : Tab Int := []
deriving DecidableEq, Repr

/-- An event log record (R397). -/
structure LogRec where
  /-- LSEQ; 32 bits; R397; reset none -/
  lseq : Nat
  /-- CODE; 16 bits; R397; reset none -/
  code : Nat
  /-- INST; 16 bits; R397; reset none -/
  inst : Nat
  /-- PSTAMP; 32 bits; R397; reset none -/
  pstamp : BitVec 32
  /-- Event payload; up to 16 bytes; R397; reset none -/
  payload : Bytes
  /-- TSTAMP; 64 bits; R397; reset none -/
  tstamp : Nat
  /-- T0 of the mapping; 64 bits; R397; reset none -/
  t0 : Nat
  /-- H0 seconds; 48 bits; R397; reset none -/
  h0s : Nat
  /-- H0 nanoseconds; 32 bits; R397; reset none -/
  h0ns : Nat
  /-- ρ; 32 bits; R397; reset none -/
  rho : Int
deriving DecidableEq, Repr

/-- The event log. -/
structure EvLog where
  /-- Records kept, latest first; 524,288 records; R397; reset empty -/
  recs : List LogRec := []
  /-- LSEQ of the next record; 32 bits; R397; reset 0 -/
  next : Nat := 0
deriving DecidableEq, Repr

/-- One side of an Ethernet session (R369 to R372). -/
structure Sess where
  /-- SID; 32 bits; R369; reset none -/
  sid : BitVec 32
  /-- Session key K_s; 32 bytes; R369; reset none -/
  key : Bytes
  /-- Key slot whose K_m opened the session; 3 bits; R411; reset none -/
  slot : Nat
  /-- MAC of the last used datagram; 1 bit; R371; reset none -/
  mac : Nat
  /-- Address of the last used datagram; 32 bits; R371; reset none -/
  ip : Nat
  /-- Port of the last used datagram; 16 bits; R371; reset none -/
  port : Nat
  /-- Highest accepted CTR; 64 bits; R371; reset 0 -/
  ctrHi : Nat
  /-- Accepted CTR values within the window of 64; a list; R371; reset empty -/
  seen : List Nat
  /-- CTR of the last datagram the controller sent; 64 bits; R371; reset 0 -/
  txCtr : Nat
  /-- Time stamp of the last usable datagram, or of the HELLO; 64 bits; R370 R372; reset none -/
  t : Nat
deriving DecidableEq, Repr

/-- The sessions of one Ethernet master. -/
structure SessPair where
  /-- The open session; a record; R370; reset none -/
  cur : Option Sess := none
  /-- The opening session; a record; R370; reset none -/
  opening : Option Sess := none
deriving DecidableEq, Repr

/-- Ethernet. -/
structure Eth where
  /-- Sessions by master 1 to 4; a table; R370; reset empty -/
  sess : Tab SessPair := []
  /-- MACs on which MB_AUTH_FAIL was raised in this bolt; a list; R371; reset empty -/
  authFail : List Nat := []
  /-- Number of HELLOs answered, which counts the nonces and session identifiers drawn (the model's own); a number; R370; reset 0 DESIGN CHOICE (log 5) -/
  draws : Nat := 0
  /-- Last frame sent on each MAC: destination address, port (0 ARP, 1 ICMP) and bytes; the model's own; R368 R371; reset empty -/
  out : Tab (Nat × Nat × Bytes) := []
deriving DecidableEq, Repr

/-- The QSPI registers of R373. -/
structure Qspi where
  /-- CMD_HEAD; 16 bits; R373; reset 0 -/
  cmdHead : BitVec 16 := 0
  /-- CMD_TAIL; 16 bits; R373; reset 0 -/
  cmdTail : BitVec 16 := 0
  /-- CPL_HEAD; 16 bits; R373; reset 0 -/
  cplHead : BitVec 16 := 0
  /-- CPL_TAIL; 16 bits; R373; reset 0 -/
  cplTail : BitVec 16 := 0
  /-- RING_ERR; 1 bit; R373; reset false -/
  ringErr : Bool := false
  /-- SAFE_CHG; 1 bit; R373; reset false -/
  safeChg : Bool := false
  /-- ROLE_CHG; 1 bit; R373; reset false -/
  roleChg : Bool := false
  /-- READY_CHG; 1 bit; R373; reset false -/
  readyChg : Bool := false
  /-- IRQ0_EN; 32 bits; R373; reset 0 -/
  irq0En : BitVec 32 := 0
  /-- IRQ1_EN; 32 bits; R373; reset 0 -/
  irq1En : BitVec 32 := 0
  /-- The command ring by slot, as the host has written it; a table of 64 slots of 1,024 bytes; R373; reset empty (bytes not written read 0,
  DESIGN CHOICE, log 6) -/
  cmdMem : Tab Bytes := []
  /-- The completion ring by slot, as last written; a table of 128 slots of 1,024 bytes; R373; reset empty (bytes not written read 0, DESIGN
  CHOICE, log 6) -/
  cplMem : Tab Bytes := []
deriving DecidableEq, Repr

/-- Work of the Heddle between commands. -/
structure Heddle where
  /-- Master served last in the motion class; 4 bits; R365; reset 11 DESIGN CHOICE (log 6) -/
  lastMotion : Nat := 11
  /-- Master served last in the general class; 4 bits; R365; reset 11 DESIGN CHOICE (log 6) -/
  lastGeneral : Nat := 11
  /-- Last ring entry handed to the debug port; up to 1,024 bytes; R357; reset none -/
  jtag : Option Bytes := none
deriving DecidableEq, Repr

/-! ### Access tables, keys, audit log, OTP (15) -/

/-- A key slot (R409). -/
structure KeySlot where
  /-- State: 0 empty, 1 live, 2 revoked; 2 bits; R409 R415; reset 0 -/
  state : Nat := 0
  /-- Master it serves; 4 bits; R409; reset 0 -/
  master : Nat := 0
  /-- K_m; 32 bytes; R409; reset empty -/
  key : Bytes := []
deriving DecidableEq, Repr

/-- An audit record (R416). -/
structure AuditRec where
  /-- ASEQ; 32 bits; R416; reset none -/
  aseq : Nat
  /-- OBJ; 8 bits; R416; reset none -/
  obj : Nat
  /-- MASTER; 4 bits; R416; reset none -/
  master : Nat
  /-- KIND; 8 bits; R416; reset none -/
  kind : Nat
  /-- OTPSNAP; 32 bits; R416; reset none -/
  snap : Nat
  /-- OLDV; 32 bits; R416; reset none -/
  oldv : Nat
  /-- NEWV; 32 bits; R416; reset none -/
  newv : Nat
  /-- PSTAMP; 32 bits; R416; reset none -/
  pstamp : BitVec 32
  /-- TSTAMP; 64 bits; R416; reset none -/
  tstamp : Nat
  /-- CHAIN; 32 bytes; R417; reset none -/
  chain : Bytes
deriving DecidableEq, Repr

/-- Access tables, OTP cells and audit log. -/
structure Acc where
  /-- Rights words of the masters that can be written, by target × 16 + master; a table of 16-bit words; R400 R404; reset empty (the default tables of R404) -/
  words : Tab (BitVec 16) := []
  /-- Change counts by target; a table of 32-bit counts; R405; reset empty (every count 0) -/
  counts : Tab Nat := []
  /-- Key slots 0 to 7; a table; R409; reset empty (every slot empty) -/
  keys : Tab KeySlot := []
  /-- ROLE of DEV_OTP_STAT: 0 not fused, 1 role A, 2 role B; 2 bits; R415; reset 0 -/
  role : Nat := 0
  /-- Role in effect since the last release of nRESET; 2 bits; R413; reset 0 -/
  roleNow : Nat := 0
  /-- SAF_USED; 8 bits; R415; reset 0 -/
  safUsed : Nat := 0
  /-- ARB, anti-rollback steps consumed; 8 bits; R415; reset 0 -/
  arb : Nat := 0
  /-- DBG_OFF; 1 bit; R415; reset false -/
  dbgOff : Bool := false
  /-- Audit records kept, latest first; 16,384 records; R416; reset empty -/
  log : List AuditRec := []
  /-- ASEQ of the next record; 32 bits; R416; reset 0 -/
  nextAseq : Nat := 0
  /-- The chain verified at start-up and through every record since; 1 bit; R420; reset true -/
  chainOk : Bool := true
  /-- The anchor held at start-up; 1 bit; R420; reset true -/
  anchorOk : Bool := true
deriving DecidableEq, Repr

/-! ### Drive network (03, 04, 05) -/

/-- The phases of the network start (R94 to R96, R24) and of the standby. -/
inductive NetPhase where
  /-- before READY, or after transmission was stopped for good -/
  | off
  /-- BRPWR of the enabled branches is being raised (R91) -/
  | powering
  /-- step 1 of R94 -/
  | listening
  /-- step 4 of R94: the first bolt of cold-start markers -/
  | coldBolt
  /-- leads as the active controller -/
  | running
  /-- the wait of R96 -/
  | backoff
  /-- the silence of R24 -/
  | silence
  /-- standby: follows the markers of the active controller -/
  | following
deriving DecidableEq, Repr

/-- Network start. -/
structure Net where
  /-- Phase of the start; a name; R94; reset off -/
  phase : NetPhase := .off
  /-- Consecutive contentions; 8 bits; R96; reset 0 -/
  contentions : Nat := 0
  /-- Bolts of the back-off in progress; 4 bits; R96; reset 0 -/
  backoffBolts : Nat := 0
  /-- Branches whose BRPWR still waits for the stagger, in ascending number; a list; R91; reset empty -/
  toPower : List Nat := []
  /-- DEV_BRPWR_STAGGER as the power-up sequence took it at its beginning, in ms; 6 bits; R91; reset 0 -/
  stagger : Nat := 0
  /-- This controller led the last cold start and its first full run is still due; 1 bit; R97; reset false -/
  firstRunDue : Bool := false
  /-- The last cold start was caused by a change of DEV_PICK_LEN; 1 bit; R71; reset false -/
  fromPlen : Bool := false
  /-- READBACK differed in the first bolt of the cold start; 1 bit; R94; reset false -/
  readbackBad : Bool := false
deriving DecidableEq, Repr

/-- An acyclic transfer (R124, R127). -/
inductive XferKind where
  /-- OP 0x1, part 0 to 3 -/
  | desc (part : Nat)
  /-- OP 0xA -/
  | classMap
  /-- OP 0x2 -/
  | assign
  /-- OP 0x3, the entries it carries -/
  | exceptions (es : List (Nat × Nat))
  /-- OP 0x4 -/
  | timing (adj : Int)
  /-- OP 0x5: word 0 of the node parameters (R233) -/
  | parRate
  /-- OP 0x5: words of the block of a local axis, from a word of the block (R231, R233) -/
  | parAxis (lax ofs cnt : Nat)
  /-- OP 0x7: entries of the microstep table from an index (R236) -/
  | table (idx cnt : Nat)
  /-- OP 0x5 at word 1: MSTAB_CRC (R236) -/
  | tableCrc
deriving DecidableEq, Repr

/-- A transfer with its repetitions. -/
structure Xfer where
  /-- Node address; 6 bits; R124; reset none -/
  node : Nat
  /-- What is transferred; a tag; R124; reset none -/
  kind : XferKind
  /-- Repetitions used; 2 bits; R127; reset none -/
  reps : Nat
  /-- Its download has been replaced: the reply leads to nothing; 1 bit; R236; reset false -/
  stale : Bool := false
deriving DecidableEq, Repr

/-- The coding state of a channel (R151). -/
inductive ChanSt where
  | unkeyed | fresh | live
deriving DecidableEq, Repr

/-- A coded channel of a node (R151). -/
structure Chan where
  /-- State; 2 bits; R151; reset UNKEYED -/
  st : ChanSt := .unkeyed
  /-- x1; 16 bits; R151; reset 0 -/
  x1 : Int := 0
  /-- x2; 16 bits; R151; reset 0 -/
  x2 : Int := 0
  /-- Standby: the history is unknown although the node may send the channel; 1 bit; R161; reset false -/
  lost : Bool := false
deriving DecidableEq, Repr

/-- The sync state of a node (R160). -/
inductive SyncSt where
  | sync
  /-- WAIT(kind, n0): rekey or restart, and the pick stamp n0 -/
  | wait (rekey : Bool) (n0 : BitVec 32)
deriving DecidableEq, Repr

/-- A microstep load in progress (R393). -/
structure MsLoad where
  /-- Master; 4 bits; R393; reset none -/
  master : Nat
  /-- Next part; 2 bits; R393; reset none -/
  next : Nat
  /-- SEQ of the last part; 32 bits; R393; reset none -/
  seq : BitVec 32
  /-- Time stamp of part 0; 64 bits; R393; reset none -/
  t : Nat
  /-- Bytes of the parts stored; up to 768; R393; reset none -/
  bytes : Bytes
deriving DecidableEq, Repr

/-- A node, as the controller keeps it. -/
structure Node where
  /-- Admitted; 1 bit; R101; reset false -/
  admitted : Bool := false
  /-- The join acknowledgement has been sent: admitted from the next marker on; 1 bit; R101; reset false -/
  admitDue : Bool := false
  /-- Has ever joined; 1 bit; R145; reset false -/
  joined : Bool := false
  /-- Integrated: the descriptor read completed and was valid; 1 bit; R101; reset false -/
  integrated : Bool := false
  /-- Muted; 1 bit; R139; reset false -/
  muted : Bool := false
  /-- Muted from the next pick on; 1 bit; R139; reset false -/
  muteDue : Bool := false
  /-- Number of the item that a mute still to begin waits for; 32 bits; R478; reset none -/
  muteItem : Option (BitVec 32) := none
  /-- Lost: admission dropped while its placement is kept; 1 bit; R144; reset false -/
  lost : Bool := false
  /-- REJOIN_BLOCKED raised for its tap; 1 bit; R106; reset false -/
  blocked : Bool := false
  /-- Round-trip compensation t_rt; 9 bits signed; R101; reset 0 -/
  tRt : Int := 0
  /-- DREV of the join frame; 8 bits; R121; reset 0 -/
  drev : Nat := 0
  /-- NSER of the join frame; 32 bits; R121; reset 0 -/
  nser : Nat := 0
  /-- Descriptor read last; 32 bytes; R130; reset empty -/
  desc : Bytes := []
  /-- Parts of a descriptor read in progress; up to 32 bytes; R126; reset empty -/
  descPart : Bytes := []
  /-- A descriptor read is due; 1 bit; R101; reset false -/
  descDue : Bool := false
  /-- Bolt count from which the failed descriptor read starts again; 27 bits; R127; reset none -/
  descRetry : Option Nat := none
  /-- Assignment sent to the node; a record; R128; reset none -/
  asg : Option SlotAsg := none
  /-- Assignment the node still follows until the bolt FROM_BOLT of asg; a record; R128 R151; reset none -/
  asgPrev : Option SlotAsg := none
  /-- First transmission under the assignment has taken place; 1 bit; R160; reset false -/
  asgBegun : Bool := false
  /-- Withdrawals OP 0x9 still to send; 3 bits; R144; reset 0 -/
  withdraw : Nat := 0
  /-- Slot violations in this bolt; 16 bits; R139; reset 0 -/
  viol : Nat := 0
  /-- Consecutive due picks without an accepted frame; 16 bits; R144; reset 0 -/
  noFrame : Nat := 0
  /-- Sum of δ of the frames accepted in this bolt; 32 bits; R138; reset 0 -/
  sumDelta : Int := 0
  /-- Frames accepted in this bolt; 16 bits; R138; reset 0 -/
  nDelta : Nat := 0
  /-- Sync state; a tag; R160; reset SYNC -/
  sync : SyncSt := .sync
  /-- Pick of the last accepted frame and its DOWN_BAD; 40 bits; R160; reset none -/
  lastAcc : Option (BitVec 32 × Nat) := none
  /-- DOWN_BAD of the last frame the guardian accepted since the admission; 8 bits; R145; reset none -/
  lastDb : Option Nat := none
  /-- Coded channels in section order; a list; R151; reset empty -/
  chans : List Chan := []
  /-- Consecutive transmissions in WAIT; 16 bits; R164; reset 0 -/
  waitTx : Nat := 0
  /-- CODE_RESYNC_STALL raised; 1 bit; R164; reset false -/
  stallRaised : Bool := false
  /-- KREQ a standby has read since the node's last transmission: kind and first pick; 34 bits; R161; reset none -/
  kreqSeen : Option (Nat × BitVec 32) := none
  /-- Standby: a down frame of the branch has not been read since the node's last transmission; 1 bit; R161; reset false -/
  downMiss : Bool := false
  /-- The gate of this pick has been classified with a frame used; 1 bit; R177; reset false -/
  accNow : Bool := false
  /-- The gate of this pick has been classified; 1 bit; R136; reset false -/
  gateNow : Bool := false
  /-- Parameter writes of R233 pending for a local axis (8 is word 0); a list; R233; reset empty -/
  wrPend : List Nat := []
  /-- Parameter writes of R233 abandoned; a list; R233; reset empty -/
  wrBad : List Nat := []
  /-- Microstep image held for the node; 1,024 bytes; R236; reset empty -/
  image : Bytes := []
  /-- The download was restarted once after a refused CRC; 1 bit; R236; reset false -/
  imgRetry : Bool := false
  /-- Microstep load in progress; a record; R393; reset none -/
  load : Option MsLoad := none
deriving DecidableEq, Repr

/-- The counter block of a node (R145). -/
structure NodeCnt where
  /-- ADJ_CNT; 16 bits saturating; R145; reset 0 -/
  adj : Nat := 0
  /-- MUTE_CNT; 16 bits saturating; R145; reset 0 -/
  mute : Nat := 0
  /-- OFS_MAX; 16 bits signed; R145; reset -32768 -/
  ofsMax : Int := -32768
  /-- OFS_MIN; 16 bits signed; R145; reset 32767 -/
  ofsMin : Int := 32767
  /-- OFS_MEAN; 16 bits signed; R145; reset 0 -/
  ofsMean : Int := 0
  /-- OFS_LAST; 16 bits signed; R145; reset 0 -/
  ofsLast : Int := 0
  /-- DOWN_BAD; 32 bits saturating; R145; reset 0 -/
  downBad : Nat := 0
  /-- VIOL_OVR; 32 bits saturating; R145; reset 0 -/
  violOvr : Nat := 0
  /-- VIOL_BAND; 32 bits saturating; R145; reset 0 -/
  violBand : Nat := 0
  /-- CORR_EOPEN; 32 bits saturating; R145; reset 0 -/
  corrEopen : Nat := 0
  /-- CORR; 32 bits saturating; R145; reset 0 -/
  corr : Nat := 0
  /-- MISSED; 32 bits saturating; R145; reset 0 -/
  missed : Nat := 0
  /-- FRAMES_OK; 32 bits saturating; R145; reset 0 -/
  framesOk : Nat := 0
  /-- ACYC_FAIL; 16 bits saturating; R145; reset 0 -/
  acycFail : Nat := 0
  /-- ACYC_RETRY; 16 bits saturating; R145; reset 0 -/
  acycRetry : Nat := 0
deriving DecidableEq, Repr

/-- One sample of a current or voltage channel with its quality tag (R162). -/
structure Samp where
  /-- Value passed; 16 bits signed; R162; reset 0 -/
  v : Int := 0
  /-- Quality tag; 4 bits; R162; reset 9 (absent) -/
  tag : Nat := 9
deriving DecidableEq, Repr

/-- The decoded channels of one axis in one up frame (R119, R120, R245). -/
structure RawIn where
  /-- Position count; 16 bits; R244; reset 0 -/
  cnt : Nat := 0
  /-- Edge time stamp channel; 16 bits; R245; reset 0 -/
  edge : Nat := 0
  /-- Inputs and status; 16 bits; R120; reset 0 -/
  inp : BitVec 16 := 0
  /-- i_a; 20 bits; R162; reset absent -/
  ia : Samp := {}
  /-- i_b; 20 bits; R162; reset absent -/
  ib : Samp := {}
  /-- i_c; 20 bits; R162; reset absent -/
  ic : Samp := {}
  /-- i_dc; 20 bits; R162; reset absent -/
  idc : Samp := {}
  /-- u_bus; 20 bits; R162; reset absent -/
  ubus : Samp := {}
deriving DecidableEq, Repr

/-- A frame in a branch receive buffer (R173): its node, whether its coded section was discarded (R160), and the
channels of each declared local axis. -/
structure RxFrame where
  /-- Node address; 6 bits; R173; reset none -/
  node : Nat
  /-- The coded section was discarded; 1 bit; R160; reset none -/
  discarded : Bool
  /-- Local axis and its channels; a list; R119; reset none -/
  axes : List (Nat × RawIn)
deriving DecidableEq, Repr

/-- A job of the Loom (R168): code 1 axis job, 2 interpolation job, 3 profile job. -/
structure Job where
  /-- Job code; 2 bits; R168; reset none -/
  kind : Nat
  /-- Axis or group; 7 bits; R168; reset none -/
  id : Nat
  /-- Ready list 0 to 3; 2 bits; R171; reset none -/
  prio : Nat
  /-- Time stamp at which the job was created; 64 bits; R171; reset none -/
  made : Nat := 0
deriving DecidableEq, Repr

/-- A branch. -/
structure Branch where
  /-- BRPWR pin; 1 bit; R90; reset false -/
  brpwr : Bool := false
  /-- Markers are sent on the branch; 1 bit; R91 R146; reset false -/
  markers : Bool := false
  /-- Bolt count from which markers start after the branch was powered; 27 bits; R91; reset none -/
  markFrom : Option Nat := none
  /-- Markers resume at the next pick after a re-admission; 1 bit; R92; reset false -/
  resume : Bool := false
  /-- Number of the item that markers still to resume wait for; 32 bits; R478; reset none -/
  resumeItem : Option (BitVec 32) := none
  /-- Cut; 1 bit; R92; reset false -/
  cut : Bool := false
  /-- Time stamp of the cut; 64 bits; R92; reset 0 -/
  cutT : Nat := 0
  /-- A re-admission waits for the end of the 100 ms; 1 bit; R92; reset false -/
  readmit : Bool := false
  /-- Driver impedance code; 5 bits; R89; reset 0 DESIGN CHOICE (log 1) -/
  drv : Nat := 0
  /-- Receiver offset trim; 8 bits signed; R89; reset 0 DESIGN CHOICE (log 1) -/
  trim : Int := 0
  /-- The calibration window of this pick has run; 1 bit; R88; reset false -/
  calDone : Bool := false
  /-- BRANCH_CAL_LIMIT raised while the driver code is at an end; 1 bit; R89; reset false -/
  drvLim : Bool := false
  /-- BRANCH_CAL_LIMIT raised while the trim is at an end; 1 bit; R89; reset false -/
  trimLim : Bool := false
  /-- Energy seen while listening; 1 bit; R95; reset false -/
  noise : Bool := false
  /-- Energy outside windows in this bolt; 1 bit; R141; reset false -/
  eowNow : Bool := false
  /-- Nodes involved in this bolt; a list; R141; reset empty -/
  eowNodes : List Nat := []
  /-- Nodes involved in each of the consecutive bolts before, latest first; a list; R141; reset empty -/
  eowPast : List (List Nat) := []
  /-- Readback differed in this pick; 1 bit; R484; reset false -/
  rbNow : Bool := false
  /-- Accepted joins of this pick: tap and t_rt; a list; R116; reset empty -/
  joinAck : List (Nat × Int) := []
  /-- Consecutive bolts with a corrupted join frame, by tap; a table; R99; reset empty -/
  joinCorr : Tab Nat := []
  /-- Taps with a corrupted join frame in this bolt; a list; R99; reset empty -/
  joinBadNow : List Nat := []
  /-- Taps for which JOIN_COLLISION has been raised; a list; R99; reset empty -/
  collRaised : List Nat := []
  /-- The transfer whose reply is awaited; a record; R127; reset none -/
  xfer : Option Xfer := none
  /-- A transfer to be repeated in the next window; a record; R127; reset none -/
  retry : Option Xfer := none
  /-- Pending transfers in no order; a list; R127; reset empty -/
  xfers : List Xfer := []
  /-- Acyclic windows of this pick that have opened; 2 bits; R127; reset 0 -/
  win : Nat := 0
  /-- Rejoin table in force, by tap: pick and start of the window; a table; R549; reset empty -/
  rejoin : Tab (Nat × Nat) := []
  /-- Rejoin table last sent, by tap; a table; R549; reset empty -/
  rejoinSent : Tab (Nat × Nat) := []
  /-- The tap whose up slot of this pick closed with energy that goes on; 2 bits; R137; reset none -/
  runOn : Option Nat := none
  /-- The rejoin table has been sent in this bolt; 1 bit; R549; reset false -/
  tabSent : Bool := false
  /-- Receive buffer, oldest first; 2 frames; R173; reset empty -/
  rxBuf : List RxFrame := []
  /-- Held jobs of the frame being parsed; a list; R174; reset empty -/
  held : List Job := []
  /-- Records of the down frame frozen at the build deadline: its payload; bytes; R30 R115; reset empty -/
  down : Bytes := []
  /-- Down frame last sent; the model's own; R114; reset empty -/
  downSent : Bytes := []
  /-- Controller acyclic frame last sent; the model's own; R123; reset empty -/
  acycSent : Bytes := []
  /-- A standby has read a down frame of the active controller in this pick; 1 bit; R482; reset false -/
  downRead : Bool := false
deriving DecidableEq, Repr

/-- The counter block of a branch (R146). -/
structure BranchCnt where
  /-- CUT_CNT; 16 bits saturating; R146; reset 0 -/
  cut : Nat := 0
  /-- JOIN_OK; 16 bits saturating; R146; reset 0 -/
  joinOk : Nat := 0
  /-- JOIN_BAD; 32 bits saturating; R146; reset 0 -/
  joinBad : Nat := 0
  /-- EOW_BOLTS; 32 bits saturating; R146; reset 0 -/
  eow : Nat := 0
  /-- UNATTRIB; 32 bits saturating; R146; reset 0 -/
  unattrib : Nat := 0
  /-- READBACK; 32 bits saturating; R146; reset 0 -/
  readback : Nat := 0
  /-- CODE_VIOL; 32 bits saturating; R146; reset 0 -/
  codeViol : Nat := 0
  /-- RXBUF_DROP; 32 bits saturating; R146; reset 0 -/
  rxDrop : Nat := 0
deriving DecidableEq, Repr

/-! ### Draft and placement (02, 04) -/

/-- A resource record of the report (R74). -/
structure ResRec where
  /-- RES; 8 bits; R74; reset none -/
  res : Nat
  /-- PICK; 8 bits; R74; reset none -/
  pick : Nat
  /-- INST; 16 bits; R74; reset none -/
  inst : Nat
  /-- USED; 16 bits; R74; reset none -/
  used : Nat
  /-- CAP; 16 bits; R74; reset none -/
  cap : Nat
deriving DecidableEq, Repr

/-- A placement run or a queued trigger (R68, R73). -/
structure Run where
  /-- Number of the run (the model's own, to name the command that waits); a number; R388; reset none -/
  id : Nat
  /-- TRIGGER; 8 bits; R73; reset none -/
  trig : Nat
  /-- Full run; 1 bit; R71; reset none -/
  full : Bool
  /-- Declarations or settings the run applies: set keys and values; a table; R68; reset none -/
  vals : Tab Int
  /-- Set instances the run applies; a list; R388; reset none -/
  sets : List Nat
  /-- Nodes taken with the run; a list; R68; reset none -/
  nodes : List Nat
deriving DecidableEq, Repr

/-- The placement report (R73). -/
structure Report where
  /-- OUTCOME; 16 bits; R73; reset 0 -/
  outcome : Nat := 0
  /-- EPOCH; 32 bits; R73; reset 0 -/
  epoch : Nat := 0
  /-- INPUT_CRC; 32 bits; R73; reset 0 -/
  crc : Nat := 0
  /-- RES; 8 bits; R73; reset 0 -/
  res : Nat := 0
  /-- RES_INST; 16 bits; R73; reset 0xFFFF -/
  inst : Nat := 0xFFFF
  /-- NEED; 32 bits; R73; reset 0 -/
  need : Nat := 0
  /-- AVAIL; 32 bits; R73; reset 0 -/
  avail : Nat := 0
  /-- PICK; 8 bits; R73; reset 0xFF -/
  pick : Nat := 0xFF
  /-- TRIGGER; 8 bits; R73; reset 0 -/
  trig : Nat := 0
  /-- Resource records; a list; R74; reset empty -/
  recs : List ResRec := []
  /-- Axis records; a list; R75; reset empty -/
  axes : List AxisPl := []
  /-- Axes flagged as offending; a list; R71; reset empty -/
  flagged : List Nat := []
deriving DecidableEq, Repr

/-- Draft and Warper. -/
structure Warp where
  /-- DRF_EPOCH; 32 bits; R132; reset 0 -/
  epoch : BitVec 32 := 0
  /-- The active bank is the second one; 1 bit; R132; reset false -/
  bankB : Bool := false
  /-- Placement in force; its Draft is the active bank; a record; R46; reset empty -/
  place : Place := {}
  /-- A placement has taken effect since the cold start; 1 bit; R71; reset false -/
  placed : Bool := false
  /-- The run in progress; a record; R68; reset none -/
  running : Option Run := none
  /-- A completed result that waits for its bolt boundary; its Draft is the other bank; a record; R68; reset none -/
  result : Option (Run × Place × Report) := none
  /-- The item whose acknowledgement the result waits for in a pair; 32 bits; R68 R478; reset none -/
  resItem : Option (BitVec 32) := none
  /-- Queued triggers, oldest first; up to 4; R68; reset empty -/
  queue : List Run := []
  /-- Pending node integrations and descriptor changes; a list; R68; reset empty -/
  pendNodes : List Nat := []
  /-- Number of the next run or of the next validated values (the model's own); a number; R388; reset 0 -/
  nextId : Nat := 0
  /-- Report of the last run; a record; R73; reset the resets of R73 -/
  report : Report := {}
deriving DecidableEq, Repr

/-! ### Loom (06) -/

/-- A loop lane (R165 to R172). -/
structure Lane where
  /-- Ready list 0, head first; 128 entries; R171; reset empty -/
  list0 : List Job := []
  /-- Ready list 1, head first; 128 entries; R171; reset empty -/
  list1 : List Job := []
  /-- Ready list 2, head first; 128 entries; R171; reset empty -/
  list2 : List Job := []
  /-- Ready list 3, head first; 128 entries; R171; reset empty -/
  list3 : List Job := []
  /-- Prefetch slot; a job; R166 R172; reset none -/
  pre : Option Job := none
  /-- Running job; a job; R172; reset none -/
  run : Option Job := none
  /-- Stopped on a microcode parity error until the next pick starts; 1 bit; R181; reset false -/
  stopped : Bool := false
  /-- Stays stopped until nRESET; 1 bit; R181; reset false -/
  dead : Bool := false
  /-- Time stamp of the last parity error; 64 bits; R181; reset none -/
  parityT : Option Nat := none
  /-- READY_LIST_FULL raised in this bolt, by list; a list; R185; reset empty -/
  fullRaised : List Nat := []
  /-- Finish of the pre-deadline work of this pick; 16 bits; R183 R327; reset 0 -/
  fPick : Nat := 0
  /-- Latest pre-deadline finish in this bolt, with its pick; 21 bits; R183; reset 0 -/
  fNow : Nat × Nat := (0, 0)
  /-- Latest post-deadline finish in this bolt; 16 bits; R183; reset 0 -/
  postNow : Nat := 0
  /-- Lane cycles spent in this bolt; 32 bits; R183; reset 0 -/
  busyNow : Nat := 0
deriving DecidableEq, Repr

/-- The statistics block of a lane (R183). -/
structure LaneCnt where
  /-- HWM_P0 to HWM_P3, by list; 32 bits; R183; reset 0 -/
  hwm : Tab Nat := []
  /-- F_BOLT; 16 bits; R183; reset 0 -/
  fBolt : Nat := 0
  /-- F_MAX; 16 bits; R183; reset 0 -/
  fMax : Nat := 0
  /-- POST_BOLT; 16 bits; R183; reset 0 -/
  postBolt : Nat := 0
  /-- F_PICK; 5 bits; R183; reset 0 -/
  fPickIdx : Nat := 0
  /-- JOBS_RUN; 32 bits saturating; R183; reset 0 -/
  jobsRun : Nat := 0
  /-- JOBS_CUT; 32 bits saturating; R183; reset 0 -/
  jobsCut : Nat := 0
  /-- JOBS_LATE; 32 bits saturating; R183; reset 0 -/
  jobsLate : Nat := 0
  /-- BP_HOLDS; 32 bits saturating; R183; reset 0 -/
  bpHolds : Nat := 0
  /-- BUSY_BOLT; 32 bits; R183; reset 0 -/
  busyBolt : Nat := 0
deriving DecidableEq, Repr

/-! ### Axes (07 to 11) -/

/-- The axis states of R18. -/
inductive AxSt where
  | disabled | ready | enabled | moving | hold | fault | safeOff
deriving DecidableEq, Repr

/-- State machine of an axis and what happened to it in this pick. -/
structure AxSm where
  /-- STATE; 3 bits; R204; reset DISABLED -/
  st : AxSt := .disabled
  /-- REACT; 2 bits; R204; reset 0 -/
  react : Nat := 0
  /-- FCODE; 16 bits; R204; reset 0 -/
  fcode : Nat := 0
  /-- DIS_CMD; 1 bit; R204; reset false -/
  disCmd : Bool := false
  /-- An enable command has cleared DIS_CMD and ENABLED follows READY; 1 bit; R205; reset false -/
  enaDue : Bool := false
  /-- The axis has changed state in this pick; 1 bit; R207; reset false -/
  changed : Bool := false
  /-- The axis's safe output group was open at the start of the last pick; 1 bit; R205; reset true -/
  sogOpen : Bool := true
  /-- Codes of the events raised at most once per bolt, raised in this bolt; a list; R164 R229 R230 R255; reset empty -/
  once : List Nat := []
  /-- The axis job of this pick is due; 1 bit; R168; reset false -/
  jobDue : Bool := false
  /-- The axis job of this pick has completed; 1 bit; R177; reset false -/
  jobDone : Bool := false
  /-- Cause of R180 for the job missing in this pick; 3 bits; R180; reset 0 -/
  jobCause : Nat := 0
  /-- Feedback decode of this pick has completed; 1 bit; R168; reset false -/
  decoded : Bool := false
  /-- The profile job of this pick has completed; 1 bit; R178; reset false -/
  profDone : Bool := false
  /-- Consecutive due picks without a frame (causes 2 and 3); 8 bits; R210; reset 0 -/
  missRun : Nat := 0
  /-- An axis job has completed since FB_LOST; 1 bit; R550; reset true -/
  jobSince : Bool := true
  /-- Channels decoded by the frame parser for the job of this pick; a record; R171; reset absent -/
  raw : RawIn := {}
  /-- Channels of the last completed decode; a record; R550; reset absent -/
  last : RawIn := {}
  /-- Inputs and status of the last accepted transmission; 16 bits; R550; reset 0 -/
  lastInp : BitVec 16 := 0
  /-- Pick stamp at which the reaction in force was taken; 32 bits; R209 R211; reset 0 -/
  qsT : BitVec 32 := 0
  /-- Fault codes of the reaction in force, whose events are not raised again; a list; R214; reset empty -/
  faults : List Nat := []
  /-- Pick in which the axis took OFF with its loops closed: the faults of its loops in that pick still combine; 33 bits; R211; reset none -/
  offPs : Option (BitVec 32) := none
  /-- Pick stamp from which the axis has been at rest in the quick stop; 32 bits; R209; reset none -/
  qsRest : Option (BitVec 32) := none
deriving DecidableEq, Repr

/-- Position feedback of an axis (09). -/
structure AxFb where
  /-- Baseline taken: position feedback valid; 1 bit; R250; reset false -/
  valid : Bool := false
  /-- The next decode takes a new baseline that keeps c_ext (after FB_LOST or a reset of R550); 1 bit; R250; reset false -/
  rebase : Bool := false
  /-- c_ext; 64 bits signed; R248; reset 0 -/
  cExt : Int := 0
  /-- c_prev16 or w_prev; 30 bits; R248 R249; reset 0 -/
  prev : Nat := 0
  /-- pos; 64 bits signed; R186; reset 0 -/
  pos : Int := 0
  /-- v_act; 32 bits signed; R186; reset 0 -/
  vAct : Int := 0
  /-- K_tot; 32 bits signed; R252; reset 0 -/
  kTot : Int := 0
  /-- Counts and pick stamps of the last decodes, latest first; 8 entries; R260; reset empty -/
  hist : List (Int × BitVec 32) := []
  /-- ref, c_e and t_e of the period estimator; 128 bits; R261; reset none -/
  edge : Option (Int × Int) := none
  /-- v_per; 32 bits signed; R261; reset 0 -/
  vPer : Int := 0
  /-- VMODE, period estimator selected; 1 bit; R262; reset false -/
  vmode : Bool := false
  /-- STILL; 1 bit; R263; reset false -/
  still : Bool := false
  /-- Pick stamp of the last change of c_ext; 32 bits; R263; reset 0 -/
  chgPs : BitVec 32 := 0
  /-- Pick stamp of the last decode; 32 bits; R255; reset 0 -/
  lastPs : BitVec 32 := 0
  /-- Hall offset o; 3 bits; R254; reset 0 -/
  hallO : Nat := 0
  /-- Consecutive decodes with an invalid Hall code; 2 bits; R254; reset 0 -/
  hallBad : Nat := 0
  /-- Hall sector of the pick; 3 bits; R200 R254; reset none -/
  sector : Option Nat := none
  /-- Consecutive decodes with RDERR; 2 bits; R255; reset 0 -/
  absBad : Nat := 0
  /-- REFD; 1 bit; R269; reset false -/
  refd : Bool := false
  /-- IDX_PH; 1 bit; R257; reset false -/
  idxPh : Bool := false
  /-- Index phase ph; 64 bits signed; R257; reset 0 -/
  ph : Int := 0
  /-- IDX_MISS; 2 bits; R258; reset 0 -/
  idxMiss : Nat := 0
  /-- IDX_CORR; 8 bits signed; R269; reset 0 -/
  idxCorr : Int := 0
  /-- q_prev; 8 bits; R259; reset 0 -/
  qPrev : Nat := 0
  /-- Quadrature errors of the current bolt; 16 bits; R259; reset 0 -/
  qNow : Nat := 0
  /-- QERR_BOLT; 8 bits; R269; reset 0 -/
  qBolt : Nat := 0
  /-- SLIM_P; 1 bit; R253; reset false -/
  slimP : Bool := false
  /-- SLIM_N; 1 bit; R253; reset false -/
  slimN : Bool := false
  /-- FB_HOME_OFS; 64 bits signed; R318; reset 0 -/
  homeOfs : Int := 0
deriving DecidableEq, Repr

/-- Debounce state of one switch input (R303 to R306). -/
structure Deb where
  /-- Debounced level, active; 1 bit; R303; reset false -/
  lvl : Bool := false
  /-- The level has been set from a first sample; 1 bit; R303; reset false -/
  init : Bool := false
  /-- Length of the run of samples of the other level; 5 bits; R303; reset 0 -/
  run : Nat := 0
  /-- c_ext of the first sample of the run; 64 bits signed; R304; reset 0 -/
  runC : Int := 0
  /-- c_edge of the last debounced change; 64 bits signed; R304; reset 0 -/
  cEdge : Int := 0
  /-- Pick stamps of the changes in the last 32 picks, latest first; a list; R306; reset empty -/
  chg : List (BitVec 32) := []
  /-- Chatter flag; 1 bit; R306; reset false -/
  chat : Bool := false
  /-- Pick stamp of the last debounced change; 32 bits; R306; reset 0 -/
  lastChg : BitVec 32 := 0
deriving DecidableEq, Repr

/-- The switch inputs of an axis. -/
structure AxIn where
  /-- LIM_P; a record; R303; reset inactive -/
  limP : Deb := {}
  /-- LIM_N; a record; R303; reset inactive -/
  limN : Deb := {}
  /-- HOME; a record; R303; reset inactive -/
  home : Deb := {}
  /-- LIMIT_BOTH raised and not both inactive since; 1 bit; R310; reset false -/
  both : Bool := false
deriving DecidableEq, Repr

/-- State of a biquad (R191). -/
structure Biq where
  /-- x1; Q16.8; R191; reset 0 -/
  x1 : Int := 0
  /-- x2; Q16.8; R191; reset 0 -/
  x2 : Int := 0
  /-- y1; Q16.8; R191; reset 0 -/
  y1 : Int := 0
  /-- y2; Q16.8; R191; reset 0 -/
  y2 : Int := 0
deriving DecidableEq, Repr

/-- Loop state of an axis (07). -/
structure AxLoop where
  /-- v_fb; 32 bits signed; R188; reset 0 -/
  vFb : Int := 0
  /-- Iv; 64 bits Q16.24; R190; reset 0 -/
  iv : Int := 0
  /-- shi; 1 bit; R190; reset false -/
  shi : Bool := false
  /-- slo; 1 bit; R190; reset false -/
  slo : Bool := false
  /-- First biquad; a record; R191; reset 0 -/
  bq0 : Biq := {}
  /-- Second biquad; a record; R191; reset 0 -/
  bq1 : Biq := {}
  /-- iq_ref; 16 bits signed; R190; reset 0 -/
  iqRef : Int := 0
  /-- Id; 64 bits Q16.40; R196; reset 0 -/
  id : Int := 0
  /-- Iq; 64 bits Q16.40; R196; reset 0 -/
  iq : Int := 0
  /-- sd; 2 bits signed; R196; reset 0 -/
  sd : Int := 0
  /-- sq; 2 bits signed; R196; reset 0 -/
  sq : Int := 0
  /-- vd of the last execution; Q16.16; R196; reset 0 -/
  vd : Int := 0
  /-- vq of the last execution; Q16.16; R196; reset 0 -/
  vq : Int := 0
  /-- id of the last execution; Q16.16; R196 R327; reset 0 -/
  idm : Int := 0
  /-- iq of the last execution; Q16.16; R196 R327; reset 0 -/
  iqm : Int := 0
  /-- v_α; Q16.16; R196; reset 0 -/
  vAl : Int := 0
  /-- v_β; Q16.16; R196; reset 0 -/
  vBe : Int := 0
  /-- θ_e; 32 bits; R192; reset 0 -/
  theta : Nat := 0
  /-- Held u_bus; 16 bits signed; R197; reset 0 -/
  ubus : Int := 0
  /-- Bound of the held u_bus; 8 bits; R197; reset 0 -/
  bu : Int := 0
  /-- Consecutive executions without a u_bus measurement; 4 bits; R197; reset 0 -/
  ubMiss : Nat := 0
  /-- Consecutive executions with undervoltage; 3 bits; R197; reset 0 -/
  uvRun : Nat := 0
  /-- Consecutive executions with overvoltage; 3 bits; R197; reset 0 -/
  ovRun : Nat := 0
  /-- Consecutive uncertain overcurrents; 3 bits; R198; reset 0 -/
  ocRun : Nat := 0
  /-- Consecutive current gaps; 3 bits; R199; reset 0 -/
  gaps : Nat := 0
  /-- Ib; 64 bits; R200; reset 0 -/
  ib : Int := 0
  /-- sb; 1 bit; R200; reset false -/
  sb : Bool := false
  /-- duty; UQ1.15; R200; reset 0 -/
  duty : Int := 0
  /-- Commutation step, none is off; 3 bits; R200; reset none -/
  step : Option Nat := none
  /-- Microstep address; 10 bits; R201; reset 0 -/
  maddr : Nat := 0
  /-- Microstep amplitude; 15 bits; R201; reset 0 -/
  amp : Nat := 0
  /-- Pick stamp at which v_ref was last non-zero; 32 bits; R201; reset none -/
  vNzPs : Option (BitVec 32) := none
  /-- Last measured i_a, i_b, i_c, i_dc, u_bus, for the traces; 5 values; R328; reset 0 -/
  meas : List Int := [0, 0, 0, 0, 0]
deriving DecidableEq, Repr

/-- Profile of an axis (10). -/
structure AxProf where
  /-- Q; 64 bits signed; R275; reset 0 -/
  q : Int := 0
  /-- v; 32 bits signed; R275; reset 0 -/
  v : Int := 0
  /-- pos_ref; 64 bits signed; R186; reset 0 -/
  posRef : Int := 0
  /-- v_ref; 32 bits signed; R186; reset 0 -/
  vRef : Int := 0
  /-- a_ref; 32 bits signed; R186; reset 0 -/
  aRef : Int := 0
  /-- Move queue, oldest first; 32 entries; R280; reset empty -/
  queue : List MoveEntry := []
  /-- The first entry is active; 1 bit; R275; reset false -/
  act : Bool := false
  /-- The profile runs: the axis has entered ENABLED and not left; 1 bit; R291; reset false -/
  live : Bool := false
  /-- A limit stop is being made; 1 bit; R307; reset false -/
  limStop : Bool := false
  /-- Q_act; 64 bits signed; R288; reset 0 -/
  qAct : Int := 0
  /-- v_act of R288; 32 bits signed; R288; reset 0 -/
  vAct : Int := 0
  /-- s0; 2 bits signed; R288; reset 0 -/
  s0 : Int := 0
  /-- OVS_TURN; 32 bits; R288; reset 0 -/
  ovsTurn : Int := 0
  /-- OVS_TGT; 32 bits; R288; reset 0 -/
  ovsTgt : Int := 0
  /-- TURN of PRF_STATUS; 1 bit; R300; reset false -/
  turn : Bool := false
  /-- Pick stamp of the last profile step, for the first step after a takeover; 32 bits; R483; reset none -/
  catchUp : Option (BitVec 32) := none
deriving DecidableEq, Repr

/-- A body as last demanded (R225). -/
inductive Body where
  | none
  /-- high-side on-times of phases A, B, C; none is off -/
  | duty (a b c : Int)
  /-- direct edge: high-side and low-side on-times; the low sides are derived after kindling unless given by an override -/
  | edge (ha hb hc : Int) (low : Option (Int × Int × Int))
  /-- DUTY and CSTATE -/
  | comm (duty : Int) (cstate : Nat) (klen : Nat)
  /-- MADDR, AMP and a KBOOST that an override carries -/
  | step (maddr amp : Nat) (kboost : Bool)
deriving DecidableEq, Repr

/-- Modulation of an axis (08). -/
structure AxMod where
  /-- Last body as demanded; a record; R225; reset none -/
  body : Body := .none
  /-- Counts c_x of phases A, B, C; a block axis uses the first; 3 × 5 bits; R227; reset 0 -/
  cA : Nat := 0
  /-- Count c_x of phase B; 5 bits; R227; reset 0 -/
  cB : Nat := 0
  /-- Count c_x of phase C; 5 bits; R227; reset 0 -/
  cC : Nat := 0
  /-- Pick stamp at which the running boost started; 32 bits; R238; reset none -/
  boost : Option (BitVec 32) := none
  /-- BUV run count; 4 bits; R238; reset 0 -/
  buvRun : Nat := 0
  /-- Consecutive transmissions with BUV, for BUV_RUN_MAX; 16 bits saturating; R241; reset 0 -/
  buvLong : Nat := 0
  /-- Pick p1 of the OTW run; 32 bits; R237; reset none -/
  otwPs : Option (BitVec 32) := none
  /-- Pick of the last accepted transmission of the OTW run; 32 bits; R237; reset 0 -/
  otwLast : BitVec 32 := 0
  /-- Record of the axis in the last down frame; 8 or 14 bytes; R115; reset empty -/
  recB : Bytes := []
  /-- HOLD of the last record; 1 bit; R115; reset false -/
  hold : Bool := false
  /-- On-times sent, A B C, for the traces; 3 × 15 bits; R327; reset 0 -/
  sent : List Int := [0, 0, 0]
  /-- CMD_AUX of the record sent; 32 bits; R327; reset 0 -/
  aux : Int := 0
  /-- Output override: picks left and body; a record; R395; reset none -/
  ovr : Option (Nat × Body) := none
deriving DecidableEq, Repr

/-- Statistics of an axis (R163, R184, R241) and the rate limits of LOOP_OVERRUN (R185). -/
structure AxCnt where
  /-- ESC_CNT; 32 bits saturating; R163; reset 0 -/
  esc : Nat := 0
  /-- ERASE_CNT; 32 bits saturating; R163; reset 0 -/
  erase : Nat := 0
  /-- DISCARD_CNT; 16 bits saturating; R163; reset 0 -/
  discard : Nat := 0
  /-- RESTART_CNT; 16 bits saturating; R163; reset 0 -/
  restart : Nat := 0
  /-- REKEY_CNT; 16 bits saturating; R163; reset 0 -/
  rekey : Nat := 0
  /-- SMAX; 4 bits; R163; reset 0 -/
  smax : Nat := 0
  /-- Largest exponent in the current bolt; 4 bits; R163; reset 0 -/
  smaxNow : Nat := 0
  /-- OVR_POST; 16 bits saturating; R184; reset 0 -/
  ovrPost : Nat := 0
  /-- OVR_DROP; 16 bits saturating; R184; reset 0 -/
  ovrDrop : Nat := 0
  /-- OVR_NOFB; 16 bits saturating; R184; reset 0 -/
  ovrNofb : Nat := 0
  /-- OVR_LANE; 16 bits saturating; R184; reset 0 -/
  ovrLane : Nat := 0
  /-- The last pick counted in OVR_LANE; 32 bits; R184; reset none -/
  ovrAt : Option (BitVec 32) := none
  /-- Causes for which LOOP_OVERRUN is raised and not re-armed by a complete bolt without; a list; R185; reset empty -/
  ovrRaised : List Nat := []
  /-- Causes seen in the current bolt; a list; R185; reset empty -/
  ovrNow : List Nat := []
  /-- ST_CNT; 32 bits saturating; R241; reset 0 -/
  st : Nat := 0
  /-- CREJ_CNT; 32 bits saturating; R241; reset 0 -/
  crej : Nat := 0
  /-- BOOST_CNT; 16 bits saturating; R241; reset 0 -/
  boost : Nat := 0
  /-- BUV_RUN_MAX; 16 bits saturating; R241; reset 0 -/
  buvMax : Nat := 0
  /-- CAP_CNT; 32 bits saturating; R241; reset 0 -/
  cap : Nat := 0
deriving DecidableEq, Repr

/-- An axis: the record of the axis state store and what belongs to it (R166). -/
structure Axis where
  /-- State machine; a record; R204; reset as its fields -/
  sm : AxSm := {}
  /-- Position feedback; a record; R247; reset as its fields -/
  fb : AxFb := {}
  /-- Switch inputs; a record; R303; reset as its fields -/
  inp : AxIn := {}
  /-- Loops; a record; R186; reset as its fields -/
  lp : AxLoop := {}
  /-- Profile; a record; R275; reset as its fields -/
  prof : AxProf := {}
  /-- Homing; a record; R311; reset as its fields -/
  hm : AxHome := {}
  /-- Modulation; a record; R225; reset as its fields -/
  md : AxMod := {}
  /-- Statistics; a record; R163 R184 R241; reset as its fields -/
  cnt : AxCnt := {}
deriving DecidableEq, Repr

/-- An interpolation group: its record of the group state store (R166, R295). -/
structure Grp where
  /-- Entries held, oldest first; 32 entries; R292; reset empty -/
  queue : List GEntry := []
  /-- An interpolation job has been created in this pick and has not completed; 1 bit; R168 R180; reset false -/
  jobOpen : Bool := false
  /-- The first entry is active; 1 bit; R293; reset false -/
  act : Bool := false
  /-- Q_s; 64 bits signed; R293; reset 0 -/
  q : Int := 0
  /-- v_s; 32 bits signed; R293; reset 0 -/
  v : Int := 0
  /-- a_s; 32 bits signed; R294; reset 0 -/
  a : Int := 0
  /-- L; 64 bits; R293; reset 0 -/
  l : Nat := 0
  /-- The lead; 7 bits; R293; reset none -/
  lead : Option Nat := none
  /-- Member, D and B of the path; a list; R293; reset empty -/
  mem : List (Nat × Int × Int) := []
  /-- Member, pos_ref, v_ref and a_ref formed by the last path step; a list; R294 R295; reset empty -/
  refs : List (Nat × Int × Int × Int) := []
  /-- The lead's PRF_VSTART, VSTOP, VBREAK, A1, A2, D1, D2, VMAX; 8 values; R293; reset empty -/
  shape : List Int := []
  /-- vm of the path; 32 bits; R293; reset 0 -/
  vm : Int := 0
  /-- Path hold; 1 bit; R296; reset false -/
  hold : Bool := false
  /-- Path correction c; 64 bits; R296; reset 0 -/
  c : Nat := 0
  /-- Pick stamp with which the path was last advanced; 32 bits; R295; reset none -/
  mark : Option (BitVec 32) := none
  /-- Deceleration of a stop along the path (R297, R309); 32 bits; R297; reset none -/
  qdec : Option Int := none
  /-- OVS_TGT of the path entry; 32 bits; R298; reset 0 -/
  ovsTgt : Int := 0
  /-- Members whose decode of this pick has completed; a list; R168; reset empty -/
  decoded : List Nat := []
  /-- Pick stamp of the state frame a takeover started from, for the first path step (R483); 32 bits; R483; reset none -/
  catchUp : Option (BitVec 32) := none
deriving DecidableEq, Repr

/-- An echo output (R264, R265). -/
structure Echo where
  /-- acc; 64 bits signed; R264; reset 0 -/
  acc : Int := 0
  /-- Backlog bl; 17 bits signed; R264; reset 0 -/
  bl : Int := 0
  /-- Output count o; 32 bits signed; R265; reset 0 -/
  o : Int := 0
  /-- Steps still to make in this pick; 16 bits; R265; reset 0 -/
  left : Nat := 0
  /-- Direction of the steps of this pick; 2 bits signed; R265; reset 1 -/
  dir : Int := 1
  /-- pos of the source when dp was last taken; 64 bits signed; R264; reset 0 -/
  pos : Int := 0
  /-- Counts dropped in this bolt, for ECHO_OVERFLOW; 32 bits; R270; reset 0 -/
  dropped : Nat := 0
  /-- A step has been made since o was set to 0, until when Z stays 0; 1 bit; R266; reset false -/
  moved : Bool := false
deriving DecidableEq, Repr

/-! ### Kiln (12) -/

/-- A Kiln block with its exact samples; its bytes are those of R347 and R348. -/
structure KBlock where
  /-- HIST; 1 bit; R347; reset none -/
  hist : Bool
  /-- SRC; 7 bits; R347; reset none -/
  src : Nat
  /-- HVAR; 3 bits; R347; reset none -/
  hvar : Nat
  /-- PSTAMP0; 32 bits; R347; reset none -/
  ps0 : BitVec 32
  /-- Time stamp of the start of the first sample's pick; 64 bits; R345; reset none -/
  t0 : Nat
  /-- DCODE; 4 bits; R347; reset none -/
  dcode : Nat
  /-- BEXP; 4 bits; R347; reset none -/
  bexp : Nat
  /-- AVGK; 3 bits; R347; reset none -/
  avgk : Nat
  /-- The variable wraps; 1 bit; R348; reset none -/
  wraps : Bool
  /-- Samples that contain held or unavailable values, in order, for GAPS; 1 to 64; R347; reset none -/
  gaps : List Bool
  /-- Samples at which sat32 acted, in order, for SAT; 1 to 64; R347; reset none -/
  sat : List Bool
  /-- Samples in order; 1 to 64; R347; reset none -/
  xs : List Int
  /-- An uncorrectable DDR error has lost the block; 1 bit; R507; reset none -/
  lost : Bool
deriving DecidableEq, Repr

/-- A capture held in a unit's buffer (R345). -/
structure Capture where
  /-- SEQ; 32 bits; R345; reset none -/
  seq : Nat
  /-- Header words W0 to W23 but W11 and W21; 24 words; R345; reset none -/
  hdr : List Nat
  /-- Channel descriptors; a list; R346; reset none -/
  chans : List Nat
  /-- Rate records: pick stamp and code; a list; R346; reset none -/
  rates : List (BitVec 32 × Nat)
  /-- Blocks in order; a list; R345; reset none -/
  blocks : List KBlock
deriving DecidableEq, Repr

/-- A trigger that has reached a unit: TT × 32 + TT_FRAC and the source. -/
structure Trig where
  /-- Time in 1/32 time units; 69 bits; R333; reset none -/
  t32 : Nat
  /-- Source, 0xFF the command; 8 bits; R345; reset none -/
  src : Nat
deriving DecidableEq, Repr

/-- An acquisition unit (R330). -/
structure AcqU where
  /-- State; 4 bits; R330 R355; reset 0 (IDLE) -/
  st : Nat := 0
  /-- Effective decimation code; 4 bits; R331; reset 0 -/
  code : Nat := 0
  /-- SEQ of the last capture; 32 bits; R345; reset 0 -/
  seq : Nat := 0
  /-- Captures held, oldest first; a list; R340; reset empty -/
  caps : List Capture := []
  /-- Pick at which the unit entered ARMED; 32 bits; R336; reset 0 -/
  armPs : BitVec 32 := 0
  /-- t_s from which triggers are accepted; 64 bits; R336 R339; reset 0 -/
  armT : Nat := 0
  /-- t_s of the pick of the last post sample; 64 bits; R339; reset none -/
  lastT : Option Nat := none
  /-- DEAD of the next capture; 32 bits; R339; reset 0xFFFFFFFF -/
  dead : Nat := 0xFFFFFFFF
  /-- MISSED of the next capture; 16 bits saturating; R337; reset 0 -/
  missed : Nat := 0
  /-- Primed for a rising crossing; 1 bit; R334; reset false -/
  primUp : Bool := false
  /-- Primed for a falling crossing; 1 bit; R334; reset false -/
  primDn : Bool := false
  /-- Last value of the trigger variable and its sample time; 96 bits; R334; reset none -/
  x0 : Option (Int × Nat) := none
  /-- Triggers that reached the unit since the last evaluation; a list; R337; reset empty -/
  cands : List Trig := []
  /-- The accepted trigger; a record; R338; reset none -/
  trig : Option Trig := none
  /-- Pick of the first post sample; 32 bits; R338; reset none -/
  post : Option (BitVec 32) := none
  /-- Post samples stored; 32 bits; R338; reset 0 -/
  npost : Nat := 0
  /-- Open blocks by channel; a table; R347; reset empty -/
  opens : Tab KBlock := []
  /-- Blocks written for the capture in progress, or unread in the stream ring, oldest first; a list; R338 R343; reset empty -/
  blocks : List KBlock := []
  /-- Rate changes of the capture in progress; a list; R345; reset empty -/
  rates : List (BitVec 32 × Nat) := []
  /-- OVF of the capture in progress; 1 bit; R345; reset false -/
  ovf : Bool := false
  /-- Change of rate decided and not yet applied: the new code; 4 bits; R344; reset none -/
  rateDue : Option Nat := none
  /-- The code has been changed in this bolt; 1 bit; R344; reset false -/
  rateBolt : Bool := false
  /-- Consecutive bolts with less than a quarter of the ring unread; 8 bits; R343; reset 0 -/
  lowRing : Nat := 0
  /-- ACQ_OVF_CNT; 32 bits saturating; R355; reset 0 -/
  ovfCnt : Nat := 0
  /-- ACQ_OVERFLOW raised in this bolt; 1 bit; R356; reset false -/
  ovfRaised : Bool := false
deriving DecidableEq, Repr

/-- The history of an axis (R351). -/
structure Hist where
  /-- Frozen by a fault; 1 bit; R351; reset false -/
  frozen : Bool := false
  /-- Frozen by command; 1 bit; R351; reset false -/
  cmdFrozen : Bool := false
  /-- Picks left to record after entry to FAULT; 16 bits; R351; reset none -/
  left : Option Nat := none
  /-- Open blocks by variable; a table; R347; reset empty -/
  opens : Tab KBlock := []
  /-- Blocks held, oldest first; a list; R351; reset empty -/
  blocks : List KBlock := []
  /-- Drops counted; 32 bits saturating; R342; reset 0 -/
  drops : Nat := 0
  /-- ACQ_OVERFLOW raised in this bolt; 1 bit; R356; reset false -/
  ovfRaised : Bool := false
deriving DecidableEq, Repr

/-- The Kiln. -/
structure Kiln where
  /-- Acquisition units 0 to 7; a table; R329; reset empty (every unit at its reset) -/
  units : Tab AcqU := []
  /-- Histories by axis; a table; R351; reset empty -/
  hists : Tab Hist := []
  /-- Coded blocks in the staging buffer, oldest first, with their unit (0 to 7) or 8 for a history; 256 KiB; R342; reset empty -/
  staged : List (Nat × KBlock) := []
  /-- Staging fill below 64 KiB at the end of every pick of this bolt; 1 bit; R342; reset true -/
  lowNow : Bool := true
  /-- Consecutive bolts with the fill below 64 KiB at the end of every pick; 16 bits; R342; reset 0 -/
  lowBolts : Nat := 0
  /-- Values of the trace variables with their gap flags by selector, pick by pick, latest first, but for values at rest; 256 picks; R326
  R328 R332; reset empty -/
  trace : List (Tab (Int × Bool)) := []
  /-- Levels of TRIG0 to TRIG3 at the last t_s; 4 bits; R327; reset 0 DESIGN CHOICE (log 1) -/
  trigLvl : BitVec 4 := 0
  /-- Time of the last stamped edge of each trigger pin in 1/32 time units; a table; R539; reset empty -/
  edges : Tab Nat := []
  /-- LSEQ of the first event that no evaluation of triggers has looked at; 32 bits; R333 R336; reset 0 -/
  evNext : Nat := 0
deriving DecidableEq, Repr

/-! ### CAN (16) -/

/-- An entry of a transmit FIFO (R430). -/
structure CanEnt where
  /-- The frame; a record; R430; reset none -/
  f : CanFrame
  /-- Bit rate switching; 1 bit; R431; reset none -/
  brs : Bool
  /-- A frame of CAN_TX; 1 bit; R430; reset none -/
  host : Bool
  /-- Time stamp of its entry; 64 bits; R434; reset none -/
  t : Nat
deriving DecidableEq, Repr

/-- A transport session (R436). -/
structure TpSess where
  /-- Message bytes: to send, or received so far; up to 1,785; R436; reset none -/
  data : Bytes
  /-- Message length; 16 bits; R436; reset none -/
  len : Nat
  /-- Parameter group; 18 bits; R436; reset none -/
  pgn : Nat
  /-- Next packet number; 8 bits; R436; reset none -/
  next : Nat
  /-- Last packet the receiver has cleared; 8 bits; R436; reset none -/
  upto : Nat
  /-- Packets the receiver clears at a time; 8 bits; R436; reset none -/
  per : Nat
  /-- Requests to send packets again; 2 bits; R436; reset 0 -/
  again : Nat := 0
  /-- Time stamp of the last step; 64 bits; R436; reset none -/
  t : Nat
deriving DecidableEq, Repr

/-- A CAN channel. -/
structure Can where
  /-- Effective mode: 0 off, 1 normal, 2 listen-only; 2 bits; R422 R423; reset 0 -/
  mode : Nat := 0
  /-- Transmit error counter; 9 bits; R427; reset 0 -/
  tec : Nat := 0
  /-- Receive error counter; 8 bits; R427; reset 0 -/
  recv : Nat := 0
  /-- Bus-off; 1 bit; R427; reset false -/
  boff : Bool := false
  /-- The recovery sequence of bus-off runs; 1 bit; R427; reset false -/
  recov : Bool := false
  /-- Transmit FIFO, head first; 32 entries; R430; reset empty -/
  fifo : List CanEnt := []
  /-- Firmware frames that wait for an entry; a list; R430; reset empty -/
  fwQ : List CanEnt := []
  /-- Time stamp since which the head has been the head; 64 bits; R433; reset 0 -/
  headT : Nat := 0
  /-- Matches since the last report and latest frame, by filter; a table; R429; reset empty -/
  rep : Tab (Nat × CanFrame) := []
  /-- Address held or claimed, 0xFE none; 8 bits; R439; reset 0xFE -/
  sa : Nat := 0xFE
  /-- Claim: 0 none, 1 within the 250 ms, 2 held, 3 the cannot-claim delay runs, 4 no address, 5 the delay runs for an answer; 3 bits; R435; reset 0 -/
  claim : Nat := 0
  /-- NAME that claimed each address since the channel started, plus 2^64 once it has left the address; a table by address; R374 R435; reset empty -/
  seen : Tab Nat := []
  /-- Receive sessions by peer address; 4 sessions; R436; reset empty -/
  tpRx : Tab TpSess := []
  /-- Transmit sessions by peer address; 4 sessions; R436; reset empty -/
  tpTx : Tab TpSess := []
  /-- Gateway messages that wait for a transmit session, oldest first; a list; R374 R436; reset empty -/
  gwQ : List Bytes := []
  /-- CAN_TX_EXPIRED raised in this bolt; 1 bit; R434; reset false -/
  expRaised : Bool := false
  /-- AUTO_RQ; 16 bits saturating; R440; reset 0 -/
  autoRq : Nat := 0
  /-- BOFF_CNT; 16 bits saturating; R440; reset 0 -/
  boffCnt : Nat := 0
  /-- TP_ABORT; 16 bits saturating; R440; reset 0 -/
  tpAbort : Nat := 0
  /-- FW_WAIT; 16 bits saturating; R440; reset 0 -/
  fwWait : Nat := 0
  /-- TX_EXPIRED; 32 bits saturating; R440; reset 0 -/
  txExpired : Nat := 0
  /-- PROTO_EXC; 32 bits saturating; R440; reset 0 -/
  protoExc : Nat := 0
  /-- ARB_LOST; 32 bits saturating; R440; reset 0 -/
  arbLost : Nat := 0
  /-- ERR_TX; 32 bits saturating; R440; reset 0 -/
  errTx : Nat := 0
  /-- ERR_RX; 32 bits saturating; R440; reset 0 -/
  errRx : Nat := 0
  /-- RX_MATCH; 32 bits saturating; R440; reset 0 -/
  rxMatch : Nat := 0
  /-- RX_OK; 32 bits saturating; R440; reset 0 -/
  rxOk : Nat := 0
  /-- TX_OK; 32 bits saturating; R440; reset 0 -/
  txOk : Nat := 0
  /-- A commit of CAN_CFG waits for the end of the frame on the bus; 1 bit; R425; reset false -/
  stopDue : Bool := false
  /-- The head is on the bus, and its attempt has not ended; the model's own; R433 R434; reset false -/
  onBus : Bool := false
  /-- An automatic requeue waits for the end of the head's attempt; 1 bit; R433; reset false -/
  autoDue : Bool := false
  /-- Last frame sent on the bus; the model's own; R430; reset none -/
  lastTx : Option CanFrame := none
deriving DecidableEq, Repr

/-! ### Damper (17) -/

/-- A safe output group (R446). -/
structure Sog where
  /-- State: 0 CLOSED, 1 OPEN, 2 RESTART, 3 LOCKOUT; 2 bits; R446; reset 2 (RESTART) -/
  st : Nat := 2
  /-- Cause of its last opening, 0 while CLOSED; 4 bits; R465; reset 1 -/
  cause : Nat := 1
  /-- SOGn_HS carries the square wave; 1 bit; R442; reset false -/
  hs : Bool := false
  /-- SOGn_LS high; 1 bit; R442; reset false -/
  ls : Bool := false
  /-- SOGn_LS goes high at the end of a delay; 1 bit; R447 R450; reset false -/
  lsDue : Bool := false
  /-- Dark test: 0 none, 1 before the sample at 60 µs, 2 before that at 160 µs, 3 as 2 and the first sample was wrong, 4 until the low
  side is on; 3 bits; R450; reset 0 -/
  test : Nat := 0
  /-- Consecutive readback samples HIGH; 4 bits; R451; reset 0 -/
  midHigh : Nat := 0
  /-- Causes found since the last evaluation; a list; R448; reset empty -/
  found : List Nat := []
deriving DecidableEq, Repr

/-- A safe input (R452). -/
structure Sin where
  /-- Recognised at run level; 1 bit; R452; reset false -/
  run : Bool := false
  /-- Level of the last samples; 1 bit; R452; reset false -/
  raw : Bool := false
  /-- Consecutive samples of that level, up to 8; 4 bits; R452; reset 0 -/
  cnt : Nat := 0
deriving DecidableEq, Repr

/-- One safe network (R453 to R458). -/
structure SNet where
  /-- SSEQ last accepted; 8 bits; R455; reset none (the first copy is accepted at any SSEQ) -/
  seq : Option Nat := none
  /-- RUN of the latest accepted copy; 4 bits; R448; reset none -/
  run : Option (BitVec 4) := none
  /-- Copies that wait for their partners, oldest first: message and arrival; a list; R456; reset empty -/
  copies : List (BitVec 64 × Nat) := []
  /-- Pending request mask of SAFE_RESET; 4 bits; R458; reset none -/
  req : Option (BitVec 4) := none
  /-- Groups of the mask that a release has used up; 4 bits; R458; reset 0 -/
  used : BitVec 4 := 0
  /-- Copies rejected; 16 bits saturating; R465; reset 0 -/
  rej : Nat := 0
  /-- Time stamp of the copy for which SM_REJECT was last raised; 64 bits; R455; reset none -/
  rejAt : Option Nat := none
deriving DecidableEq, Repr

/-- The Damper. -/
structure Damper where
  /-- Groups 0 to 3; a table; R442; reset empty (every group in RESTART with cause 1) -/
  sogs : Tab Sog := []
  /-- Inputs 0 to 3; a table; R452; reset empty (every input at stop level) -/
  sins : Tab Sin := []
  /-- Discrepancy of SIN0 and SIN1; 1 bit; R452; reset false -/
  disc0 : Bool := false
  /-- Discrepancy of SIN2 and SIN3; 1 bit; R452; reset false -/
  disc1 : Bool := false
  /-- Network A; a record; R453; reset as its fields -/
  netA : SNet := {}
  /-- Network B; a record; R453; reset as its fields -/
  netB : SNet := {}
  /-- Evaluations since start-up: the Damper's clock in units of 250 µs; a number; R447; reset 0 -/
  evals : Nat := 0
  /-- Evaluation count at the last matched pair; a number; R456; reset none -/
  pairAt : Option Nat := none
  /-- PAIR_SEQ; 8 bits; R465; reset 0 -/
  pairSeq : Nat := 0
  /-- PAIR_RUN; 4 bits; R465; reset 0 -/
  pairRun : BitVec 4 := 0
  /-- A timeout that no newer matched pair has ended; 1 bit; R448; reset false -/
  timeout : Bool := false
  /-- UNPAIRED; 16 bits saturating; R465; reset 0 -/
  unpaired : Nat := 0
  /-- DISC_CNT; 16 bits saturating; R465; reset 0 -/
  discCnt : Nat := 0
  /-- Halted by an internal fault until nRESET; 1 bit; R460; reset false -/
  halted : Bool := false
  /-- nSAFE_RST low; 1 bit; R442; reset false DESIGN CHOICE (log 1) -/
  pinLow : Bool := false
  /-- Evaluation count at the last change of nSAFE_RST; a number; R459; reset 0 -/
  pinAt : Nat := 0
  /-- The pin counts as not held until it has been high for 100 ms; 1 bit; R459; reset false -/
  stuck : Bool := false
  /-- Groups kept in LOCKOUT through nRESET by the retention register; 4 bits; R446; reset 0 -/
  retain : BitVec 4 := 0
  /-- A standby that resynchronised with another safety set and no slot left keeps every group in RESTART; 1 bit; R462; reset false -/
  mismatch : Bool := false
deriving DecidableEq, Repr

/-! ### Pair (18) -/

/-- A command acceptance that the standby holds (R479). -/
structure Acceptance where
  /-- The entry; a record; R478; reset none -/
  entry : CmdEntry
  /-- Opcode; 16 bits; R478; reset none -/
  opcode : Nat
  /-- Numbers of its effect items, none before its execution; a list; R478 R479; reset none -/
  effects : Option (List (BitVec 32))
deriving DecidableEq, Repr

/-- An item that the active controller has produced and that has not yet taken effect (R478). -/
structure OutItem where
  /-- The item; a record; R478; reset none -/
  item : Item
  /-- Its effect applies at a bolt boundary, else at a pick boundary; 1 bit; R478; reset none -/
  bolt : Bool
  /-- Pick in which it was first put on the link; 32 bits; R478; reset none -/
  sentAt : Option (BitVec 32)
  /-- The partner has acknowledged it; 1 bit; R478; reset none -/
  acked : Bool
deriving DecidableEq, Repr

/-- The Selvedge and the roles. -/
structure Pair where
  /-- This controller is active; 1 bit; R493; reset false -/
  active : Bool := false
  /-- LSTATE; 2 bits; R480; reset 0 (DOWN) -/
  lstate : Nat := 0
  /-- The link is up; 1 bit; R472; reset false -/
  link : Bool := false
  /-- PAIR_EN in effect since the last release of nRESET; 1 bit; R471; reset false -/
  en : Bool := false
  /-- Partner identity: role, CSID and PVER; 45 bits; R489 R493; reset none -/
  partner : Option PartnerId := none
  /-- P_EPOCH; 32 bits; R493; reset 0 -/
  pEpoch : BitVec 32 := 0
  /-- BULK_PCT; 8 bits; R493; reset 0 -/
  bulkPct : Nat := 0
  /-- Bulk staged in the resynchronisation region; a list; R489; reset empty -/
  bulk : List ItemBody := []
  /-- The whole bulk is staged and waits for its bolt boundary; 1 bit; R489; reset false -/
  bulkEnd : Bool := false
  /-- The bulk has been applied and state frames are counted; 1 bit; R489; reset false -/
  bulkDone : Bool := false
  /-- State frames received without loss since the bulk; 6 bits; R489; reset 0 -/
  frames : Nat := 0
  /-- ISEQ of the last item sent; 32 bits; R478; reset 0 -/
  iseqSent : BitVec 32 := 0
  /-- ISEQ of the last item received; 32 bits; R476; reset 0 -/
  iseqRcv : BitVec 32 := 0
  /-- Runs of item numbers below iseqRcv that have not arrived, each with its first number and its length; a list; R473 R478; reset empty -/
  iseqMiss : List (BitVec 32 × Nat) := []
  /-- Items produced that wait to be sent, acknowledged or applied, oldest first; a list; R478; reset empty -/
  outbox : List OutItem := []
  /-- Bytes of the reserve or link that items have taken in this pick; a number; R474; reset 0 -/
  spent : Nat := 0
  /-- Items put on the link in this pick; the model's own; R474; reset empty -/
  itemsOut : List Item := []
  /-- Items acknowledged on the link in this pick, by number; the model's own; R478; reset empty -/
  acksOut : List (BitVec 32) := []
  /-- Bulk that is still to be sent; a list; R489; reset empty -/
  bulkOut : List ItemBody := []
  /-- Bodies in the whole of the bulk being sent; a number; R489; reset 0 -/
  bulkAll : Nat := 0
  /-- Bulk put on the link in this pick; the model's own; R474; reset empty -/
  bulkNow : List ItemBody := []
  /-- PAIR_SWAP that this standby forwards to the active controller as master 9; the model's own; R487; reset none -/
  forward : Option CmdEntry := none
  /-- The addresses of the CAN channels that have been mirrored; a table; R490; reset empty (0xFE each) -/
  saOut : Tab Nat := []
  /-- Items received that wait for their p_e; a list; R478; reset empty -/
  inbox : List Item := []
  /-- Commands accepted by the active controller without journal entry; a list; R479; reset empty -/
  accepted : List Acceptance := []
  /-- A valid segment has been received in this pick; 1 bit; R482; reset false -/
  segNow : Bool := false
  /-- Consecutive picks without a valid segment; 8 bits; R480; reset 0 -/
  noSeg : Nat := 0
  /-- Consecutive silent picks; 8 bits; R482; reset 0 -/
  silent : Nat := 0
  /-- The standby was in SYNC at the end of the last pick that was not silent; 1 bit; R481 R482; reset false -/
  syncHeld : Bool := false
  /-- Silent picks are judged: a running marker has been received since the last change of pick length; 1 bit; R24; reset true -/
  judge : Bool := true
  /-- Consecutive colliding picks; 8 bits; R484; reset 0 -/
  collide : Nat := 0
  /-- Pick stamp of the last complete state frame; 32 bits; R483; reset 0 -/
  frameP : BitVec 32 := 0
  /-- Swap pick s of an accepted swap; 32 bits; R488; reset none -/
  swapAt : Option (BitVec 32) := none
  /-- In the swap pick: the former active (1) or the new one (2); 2 bits; R488; reset 0 -/
  swapSt : Nat := 0
  /-- Bolts in SYNC; 16 bits; R487; reset 0 -/
  syncBolts : Nat := 0
  /-- Time stamp since which the pair has been in SYNC; 64 bits; R486; reset 0 -/
  syncT : Nat := 0
  /-- SWAPS; 16 bits saturating; R493; reset 0 -/
  swaps : Nat := 0
  /-- TAKEOVERS; 16 bits saturating; R493; reset 0 -/
  takeovers : Nat := 0
  /-- COLLISIONS; 16 bits saturating; R493; reset 0 -/
  collisions : Nat := 0
  /-- LINK_DROPS; 16 bits saturating; R493; reset 0 -/
  drops : Nat := 0
  /-- SEG_BAD; 32 bits saturating; R493; reset 0 -/
  segBad : Nat := 0
  /-- LAST_TKO; 32 bits; R493; reset 0 -/
  lastTko : BitVec 32 := 0
  /-- State frame last sent; the model's own; R474; reset empty -/
  frameOut : Bytes := []
  /-- Number of the last item acknowledged by the partner; 32 bits; R478; reset 0 -/
  iseqAcked : BitVec 32 := 0
deriving DecidableEq, Repr

/-! ### The whole state -/

/-- The state of the part. -/
structure State where
  /-- Start-up, supply and memory; a record; R495; reset as its fields -/
  boot : Boot := {}
  /-- Firmware update; a record; R504; reset as its fields -/
  fw : FwUpd := {}
  /-- DDR bytes that commands store (firmware update staging), canonical; 4 GiB; R57 R506; reset empty (every byte 0) -/
  ddr : List Host.Cell := []
  /-- Time base; a record; R21; reset as its fields -/
  clk : Clk := {}
  /-- Host clock alignment; a record; R37; reset as its fields -/
  ptp : Ptp := {}
  /-- Parameters; a record; R12; reset as its fields -/
  par : Par := {}
  /-- Mailboxes by master 0 to 11; a table; R357; reset empty (every mailbox at its reset) -/
  mbs : Tab Mb := []
  /-- Event log; a record; R397; reset as its fields -/
  log : EvLog := {}
  /-- Ethernet; a record; R368; reset as its fields -/
  eth : Eth := {}
  /-- QSPI target registers; a record; R373; reset as its fields -/
  qspi : Qspi := {}
  /-- Heddle; a record; R365; reset as its fields -/
  hed : Heddle := {}
  /-- Access tables, OTP cells and audit log; a record; R399; reset as its fields -/
  acc : Acc := {}
  /-- Network start; a record; R94; reset as its fields -/
  net : Net := {}
  /-- Branches 0 to 15; a table; R77; reset empty (every branch at its reset) -/
  brs : Tab Branch := []
  /-- Branch counter blocks; a table; R146; reset empty -/
  brCnt : Tab BranchCnt := []
  /-- Nodes 0 to 63; a table; R101; reset empty (every node at its reset) -/
  nodes : Tab Node := []
  /-- Node counter blocks; a table; R145; reset empty -/
  ndCnt : Tab NodeCnt := []
  /-- Draft and Warper; a record; R132; reset as its fields -/
  warp : Warp := {}
  /-- Lanes 0 to 7; a table; R165; reset empty (every lane at its reset) -/
  lanes : Tab Lane := []
  /-- Lane statistics; a table; R183; reset empty -/
  lnCnt : Tab LaneCnt := []
  /-- Axes 0 to 127: the axis state store; a table; R166; reset empty (every axis at its reset) -/
  axes : Tab Axis := []
  /-- Groups 0 to 15: the group state store; a table; R166; reset empty (every group at its reset) -/
  grps : Tab Grp := []
  /-- Correctable errors counted in the state stores; 32 bits; R181; reset 0 -/
  storeCorr : Nat := 0
  /-- Echo outputs 0 to 3; a table; R264; reset empty (every output at its reset) -/
  echo : Tab Echo := []
  /-- Kiln; a record; R329; reset as its fields -/
  kiln : Kiln := {}
  /-- CAN channels 0 to 2; a table; R422; reset empty (every channel at its reset) -/
  cans : Tab Can := []
  /-- Damper; a record; R442; reset as its fields -/
  dmp : Damper := {}
  /-- Selvedge and roles; a record; R480; reset as its fields -/
  pair : Pair := {}
  /-- Counter of the free values drawn (the model's own, no state of the part); a number; R525; reset 0 DESIGN CHOICE (log 2) -/
  freeCtr : Nat := 0
  /-- Commands and events that wait to be taken, first in first out (the model's own); a list; R365; reset empty -/
  pending : List Instr := []
deriving DecidableEq, Repr

/-- Faults of the model. -/
inductive Fault where
  /-- Raised by no meaning: the part has no stop of its own. It is kept so that the type is not empty; safe. -/
  | never
deriving DecidableEq, Repr

/-- Refusals of the model. -/
inductive Refusal where
  /-- Answered by the dispatcher for a row whose meaning has not been written; the string is its mnemonic. Safe: no
  statement about the row can then be proved. -/
  | notModelled (mnemonic : String)
deriving DecidableEq, Repr

/-- The part right after the release of nRESET at power-on, as delivered: nothing of R495 has run yet. -/
def State.reset : State := {}

end Sys2Proof.Machine
end

