-- ==== Sys2Proof/Machine/Params.lean ====
section
/-! DEFINITION. The parameter index (R511 to R519): every parameter with its instances, access, tied set, target, range
and default, and the reading of values in force. -/
namespace Sys2Proof.Machine

/-- One row of the index (R515) with the data of its chapter's parameter table. `cnt` is the number of instances (R512).
`tset` is the tied set in the order of R518, 28 for none. `tgt` is the access target: below 32 that target, 100 the axis
target, 101 that of the CAN channel, 102 that of a filter's channel (R513). `sg` marks a signed format. -/
structure PSpec where
  num : Nat
  cnt : Nat
  ro : Bool
  k : Bool
  tset : Nat
  tgt : Nat
  sg : Bool
  lo : Int
  hi : Int
  dflt : Int
deriving DecidableEq, Repr

/-- The code that stands for 'no tied set'. -/
def noSet : Nat := 28
/-- 2^32 − 1. -/
def u32max : Int := 4294967295
/-- 2^64 − 1. -/
def u64max : Int := 18446744073709551615
/-- 2^31 − 1. -/
def s31max : Int := 2147483647

/-- An unsigned parameter of a tied set. -/
def pU (tset cnt tgt num : Nat) (lo hi dflt : Int) : PSpec := ⟨num, cnt, false, false, tset, tgt, false, lo, hi, dflt⟩
/-- A signed parameter of a tied set. -/
def pS (tset cnt tgt num : Nat) (lo hi dflt : Int) : PSpec := ⟨num, cnt, false, false, tset, tgt, true, lo, hi, dflt⟩
/-- A read-only parameter. -/
def pR (cnt tgt num : Nat) (sg : Bool) : PSpec := ⟨num, cnt, true, false, noSet, tgt, sg, 0, 0, 0⟩
/-- A commit-limited parameter (access code K). -/
def pK (tset cnt tgt num : Nat) (lo hi dflt : Int) : PSpec := ⟨num, cnt, false, true, tset, tgt, false, lo, hi, dflt⟩

/-- DEV_ parameters (R516, R413). -/
def specsDev : List PSpec :=
  [ pU noSet 1 0 0x0010 0 3 1, pU noSet 1 0 0x0011 0 3 0, pU noSet 1 0 0x0012 0 50 5, pR 16 0 0x0013 false,
    pK noSet 1 0 0x0014 0 1 0, pR 1 0 0x0015 false, pR 1 0 0x0016 false, pR 1 0 0x0017 false ]
/-- AX_ parameters (R42, R204). -/
def specsAx : List PSpec :=
  [ pU 0 128 1 0x0100 0 4 0, pU 0 128 1 0x0101 0 63 0, pU 0 128 1 0x0102 0 7 0, pU 0 128 1 0x0103 0 7 0,
    pU 0 128 1 0x0104 0 0xFFFF 0, pU 0 128 1 0x0105 0 2 0, pU 0 128 1 0x0106 0 3 2, pU 0 128 1 0x0107 0 255 255,
    pU 0 128 1 0x0108 0 2 0, pU 0 128 1 0x0109 0 3 0, pU 0 128 1 0x010A 0 8 0, pU 0 128 1 0x010B 0 600 0,
    pU 0 128 1 0x010C 0 255 255, pU 0 128 1 0x010D 0 0xFFFF 0, pR 128 100 0x0110 false ]
/-- DRF_ parameters and PAIR_SYNC_RESERVE (R45). -/
def specsDrf : List PSpec :=
  [ pU 1 1 1 0x0200 0 0xFFFF 0xFFFF, pU 1 16 1 0x0201 0 3 1, pU 1 16 1 0x0202 20 200 0x4C, pU 1 16 1 0x0203 1 64 8,
    pU 1 16 1 0x0204 16 96 48, pU 1 64 1 0x0206 0 255 255, pR 1 1 0x0207 false, pR 1 1 0x0208 false ]
/-- LP_ parameters, first part (R203). -/
def specsLp1 : List PSpec :=
  [ pU 2 128 100 0x0300 0 u32max 0, pU 2 128 100 0x0301 0 0xFFFF 0x8000, pS 2 128 100 0x0302 (-2147483648) s31max 0,
    pU 2 128 100 0x0303 1 s31max 0x01000000,
    pU 3 128 100 0x0310 0 u32max 0, pU 3 128 100 0x0311 0 u32max 0, pU 3 128 100 0x0312 0 0x7FFF 0x6666 ] ++
  (List.range 10).map (fun i => pS 3 128 100 (0x0314 + i) (-2147483648) s31max (if i % 5 = 0 then 0x40000000 else 0))
/-- LP_ parameters, second part (R203). -/
def specsLp2 : List PSpec :=
  [ pU 4 128 100 0x0320 0 u32max 0, pU 4 128 100 0x0321 0 u32max 0, pS 4 128 100 0x0322 (-32768) 32767 0,
    pU 4 128 100 0x0323 0 0x49E7 0x486C, pU 4 128 100 0x0324 0 u32max 0, pU 4 128 100 0x0325 0 u32max 0,
    pU 4 128 100 0x0326 0 64 32,
    pU 5 128 100 0x0328 0 u32max 0, pU 5 128 100 0x0329 0 u32max 0, pU 5 128 100 0x032A 0 0x8000 0x7C00,
    pU 5 128 100 0x032B 0 5 0,
    pU 6 128 100 0x0330 1 64 1, pU 6 128 100 0x0331 0 u32max 0, pU 6 128 100 0x0332 0 u32max 0,
    pU 7 128 100 0x0338 1 u32max 0x10000, pU 7 128 100 0x0339 0 0x7FFF 0, pU 7 128 100 0x033A 0 0x7FFF 0,
    pU 7 128 100 0x033B 0 0xFFFF 0x3E80 ]
/-- LP_ parameters, third part (R203). -/
def specsLp3 : List PSpec :=
  [ pU 8 128 100 0x0340 1 0x7FFF 0x7333, pU 8 128 100 0x0341 1 s31max s31max, pU 8 128 100 0x0342 0 0x7FFF 0,
    pU 8 128 100 0x0343 0 0x7FFF 0x7FFF, pU 8 128 100 0x0344 1 4 4, pU 8 128 100 0x0345 0 s31max 0,
    pU 8 128 100 0x0346 1 0xFFFF 0x7D00, pU 8 128 100 0x0347 0 u32max 0x10000, pU 8 128 100 0x0348 0 1 0,
    pS noSet 128 100 0x0349 (-32768) 32767 0 ]
/-- MOD_ parameters (R240). -/
def specsMod : List PSpec :=
  [ pU 9 64 2 0x0400 0 2 0, pU 10 128 100 0x0401 0 400 0x50, pU 10 128 100 0x0402 80 1600 0xA0,
    pU 10 128 100 0x0403 1 16 1, pU 10 128 100 0x0404 0 1 0, pU 10 128 100 0x0405 0 0xFFFF 0x7D00 ]
/-- FB_ parameters (R268, R269, R322). -/
def specsFb : List PSpec :=
  [ pU 11 128 100 0x0500 0 2 0, pU 11 128 100 0x0501 1 0x01000000 0x1000, pU 11 128 100 0x0502 0 1 0,
    pS 11 128 100 0x0503 (-4611686018427387904) 4611686018427387903 4611686018427387903,
    pS 11 128 100 0x0504 (-4611686018427387904) 4611686018427387903 (-4611686018427387904),
    pU 11 128 100 0x0505 0 6 1, pU 11 128 100 0x0506 0 255 2, pU 11 128 100 0x0507 0 u32max 0,
    pU 11 128 100 0x0508 0 255 4, pU 11 128 100 0x0509 0 3 0, pU 11 128 100 0x050A 0 u32max 0x100000,
    pU 11 128 100 0x050B 0 u32max 0x200000, pU 11 128 100 0x050C 1 0xFFFF 0x100, pU 11 128 100 0x050D 8 30 0x18,
    pU 11 128 100 0x050E 0 1 0 ] ++
  [ pU 12 4 9 0x0520 0 255 255, pU 12 4 9 0x0521 0 0xFFFF 1, pU 12 4 9 0x0522 1 0xFFFF 1, pU 12 4 9 0x0523 0 0xFFFF 0,
    pU 12 4 9 0x0524 0 1 0, pR 128 100 0x0530 false, pR 128 100 0x0531 true, pR 128 100 0x0532 false,
    pR 128 100 0x0533 true, pR 128 100 0x0534 true, pU 13 128 100 0x0540 0 0xFF 7, pU 13 128 100 0x0541 1 16 4,
    pR 128 100 0x0542 false, pR 128 100 0x0543 true ]
/-- PRF_ parameters (R299, R322). -/
def specsPrf : List PSpec :=
  [ pU 14 128 100 0x0600 0 s31max 0, pU 14 128 100 0x0601 0 s31max 0, pU 14 128 100 0x0602 0 s31max 0,
    pU 14 128 100 0x0603 0 s31max 0, pU 14 128 100 0x0604 0 s31max 0x40, pU 14 128 100 0x0605 0 s31max 0,
    pU 14 128 100 0x0606 0 s31max 0x40, pU 14 128 100 0x0607 1 s31max 0x100000,
    pS noSet 128 100 0x0608 (-2147483648) s31max 0, pU 15 16 1 0x0610 0 u32max 0x100000, pR 128 100 0x0620 false,
    pU 16 128 100 0x0630 0 0xFF 1, pU 16 128 100 0x0631 1 s31max 0x10000, pU 16 128 100 0x0632 1 s31max 0x40,
    pU 16 128 100 0x0633 1 s31max 0x40, pS 16 128 100 0x0634 (-35184372088832) 35184372088831 0,
    pU 16 128 100 0x0635 0 u32max 0, pU 16 128 100 0x0636 1 0x7FFF 0x1000, pU 16 128 100 0x0637 1 0xFFFF 0x40 ]
/-- ACQ_ parameters (R354, R355). -/
def specsAcq : List PSpec :=
  [ pU 17 8 8 0x0700 0 0xFF 0, pU 17 8 8 0x0701 0 15 0, pU 17 8 8 0x0702 1 256 1, pU 17 8 8 0x0703 0 0xFFFFFF 0,
    pU 17 8 8 0x0704 1 0x1000000 0x400, pU 17 8 8 0x0705 0 5 0, pU 17 8 8 0x0706 0 u32max 0,
    pU 17 8 8 0x0707 0 0xFFFF 0, pS 17 8 8 0x0708 (-2147483648) s31max 0, pU 17 8 8 0x0709 0 u32max 0,
    pU 17 8 8 0x070A 0 2 0, pU 17 8 8 0x070B 0 3840 0,
    pU 18 96 8 0x0720 0 0xFFFF 0, pU 18 96 8 0x0721 0 255 255, pU 18 96 8 0x0722 0 15 0,
    pU 19 128 8 0x0740 0 u64max 0, pU 19 128 8 0x0741 0 0xFFFF 0x0800,
    pR 8 8 0x0750 false, pR 8 8 0x0751 false, pR 8 8 0x0752 false ]
/-- CAN_ parameters (R438, R439). -/
def specsCan : List PSpec :=
  [ pU 20 3 101 0x0800 0 2 0, pU 20 3 101 0x0801 0 u32max 0x01830E0F, pU 20 3 101 0x0802 0 u32max 0x803CCDC1,
    pU 20 3 101 0x0803 0 3 0, pU 20 3 101 0x0804 0 1000 0, pU 20 3 101 0x0805 0 1000 0, pU 20 3 101 0x0806 0 10000 0,
    pU 21 3 101 0x0808 0 u64max 0, pU 21 3 101 0x0809 0 253 0x80, pU 21 3 101 0x080A 0 253 0x80,
    pU 21 3 101 0x080B 0 253 0xF7, pU 22 192 102 0x0810 0 u64max 0, pR 3 101 0x0820 false ]
/-- SAF_ parameters (R463). SAF_GRP_CFG has an instance for each of the four groups of R4 (log 35). -/
def specsSaf : List PSpec :=
  [ pK 23 1 6 0x0900 0 5 0, pK 23 1 6 0x0901 0 5 1, pK 23 1 6 0x0902 0 u32max 0, pK 23 1 6 0x0903 0 u32max 0,
    pK 23 1 6 0x0904 1024 65535 0xB8D1, pK 23 1 6 0x0905 0 u64max 0, pK 23 1 6 0x0906 10 1000 50,
    pK 23 1 6 0x0907 1 500 20, pK 23 1 6 0x0908 100 10000 2000, pK 23 4 6 0x0910 0 0xFF 0, pK 23 1 6 0x0911 0 0x3F 0,
    pU 24 64 6 0x0920 0 255 255, pR 1 6 0x0930 false, pR 1 6 0x0931 false ]
/-- HST_, PAIR_ and ACC_ parameters (R375, R492, R516). -/
def specsHst : List PSpec :=
  [ pU 25 2 10 0x0A00 0 2 0, pU 25 2 10 0x0A01 0 u32max 0, pU 25 2 10 0x0A02 0 u32max 0, pU 25 2 10 0x0A03 0 u32max 0,
    pU 25 1 10 0x0A04 1024 65535 0xB8D0, pU 25 1 10 0x0A05 10 6000 0x3E8,
    pU 26 1 10 0x0A08 0 0x0FFF 0x0FFF, pU 26 12 10 0x0A09 1 64 8, pU 26 12 10 0x0A0A 0 0xFFFF 0xFFFE,
    pU 26 3 10 0x0A0B 0 u64max 0, pU noSet 1 10 0x0A20 0 1 0, pU noSet 1 10 0x0A21 0 1 0, pU noSet 1 10 0x0A22 0 127 0,
    pU 27 1 7 0x0B00 0 1 0, pK noSet 1 7 0x0B01 1 2 0, pU 27 1 7 0x0B02 0 8760 0, pU 1 1 7 0x0B05 256 4096 0x400,
    pR 8 4 0x0C00 false ]

/-- Find a row by parameter number. -/
def specFind : List PSpec → Nat → Option PSpec
  | [], _ => none
  | p :: ps, n => if p.num = n then some p else specFind ps n

/-- The row of a parameter number; none is a reserved number (R511). -/
def pspec (num : Nat) : Option PSpec :=
  match num / 256 with
  | 0 => specFind specsDev num
  | 1 => specFind specsAx num
  | 2 => specFind specsDrf num
  | 3 => if num < 0x0320 then specFind specsLp1 num else if num < 0x0340 then specFind specsLp2 num else specFind specsLp3 num
  | 4 => specFind specsMod num
  | 5 => specFind specsFb num
  | 6 => specFind specsPrf num
  | 7 => specFind specsAcq num
  | 8 => specFind specsCan num
  | 9 => specFind specsSaf num
  | 10 => specFind specsHst num
  | 11 => specFind specsHst num
  | 12 => specFind specsHst num
  | _ => none

/-- Every row of the index. -/
def allSpecs : List PSpec :=
  specsDev ++ specsAx ++ specsDrf ++ specsLp1 ++ specsLp2 ++ specsLp3 ++ specsMod ++ specsFb ++ specsPrf ++ specsAcq ++
    specsCan ++ specsSaf ++ specsHst

/-- The row of a parameter number that the instance index fits (R12, R512). -/
def paddr (num inst : Nat) : Option PSpec :=
  match pspec num with
  | some p => if inst < p.cnt then some p else none
  | none => none

/-- The default of a parameter instance; HST_CREDIT has one for each master (R375). -/
def pdefault (num inst : Nat) : Int :=
  if num = 0x0A09 then
    if inst = 0 ∨ inst = 9 then 16 else if inst ≤ 5 then 32 else 8
  else (pspec num).elim 0 (fun p => p.dflt)

/-- The key of a parameter instance in the tables of State. -/
def pkey (num inst : Nat) : Nat := num * 256 + inst

/-- The value in force of a parameter, from the table of values. -/
def pgetT (t : Tab Int) (num inst : Nat) : Int := (tabFind t (pkey num inst)).getD (pdefault num inst)
/-- The value in force of a parameter (R390). -/
def pget (s : State) (num inst : Nat) : Int := pgetT s.par.force num inst
/-- The value in force of an unsigned parameter. -/
def pnat (s : State) (num inst : Nat) : Nat := (pget s num inst).toNat

/-- The access target of a parameter instance (R513). -/
def ptarget (p : PSpec) (inst : Nat) : Nat :=
  if p.tgt = 100 then 16 + inst / 8 else if p.tgt = 101 then 11 + inst else if p.tgt = 102 then 11 + inst / 64 else p.tgt

/-- The tied set instance to which a parameter instance belongs: set code × 256 + instance (R518, R519). -/
def setKey (p : PSpec) (inst : Nat) : Nat :=
  let i :=
    if p.tset = 1 ∨ p.tset = 18 ∨ p.tset = 23 ∨ p.tset = 24 ∨ p.tset = 25 ∨ p.tset = 26 ∨ p.tset = 27 then 0
    else if p.tset = 22 then inst / 64 else inst
  p.tset * 256 + i

/-- The PNUM of the first member of a tied set (R398). -/
def setFirst (code : Nat) : Nat :=
  [0x0100, 0x0200, 0x0300, 0x0310, 0x0320, 0x0328, 0x0330, 0x0338, 0x0340, 0x0400, 0x0401, 0x0500, 0x0520, 0x0540,
   0x0600, 0x0610, 0x0630, 0x0700, 0x0720, 0x0740, 0x0800, 0x0808, 0x0810, 0x0900, 0x0920, 0x0A00, 0x0A08, 0x0B00].getD code 0

/-- The sets kept in the configuration area (R505, R518). -/
def setKept (code : Nat) : Bool := [20, 21, 23, 24, 25, 26, 27].contains code
/-- The sets applied at a bolt boundary (R518). -/
def setAtBolt (code : Nat) : Bool := code = 0 || code = 1

/-- The bits of n that are not in the mask are 0. -/
def onlyBits (mask n : Nat) : Bool := n &&& mask == n

/-- The checks of a parameter's own layout and enumerated values, beyond its range (R6, R384 and the chapters' tables). -/
def playout (num : Nat) (v : Nat) : Bool :=
  if num = 0x0104 then onlyBits 0x0777 v && v % 8 ≤ 5 && v / 16 % 8 ≤ 5 && v / 256 % 8 ≤ 5
  else if num = 0x0107 then v ≤ 15 || v = 255
  else if num = 0x010C then v ≤ 7 || v = 255
  else if num = 0x0203 then [1, 2, 4, 8, 16, 32, 64].contains v
  else if num = 0x0206 then v ≤ 3 || v = 255
  else if num = 0x0505 then v % 4 ≤ 2
  else if num = 0x0520 then v ≤ 127 || v = 255
  else if num = 0x0540 then onlyBits 0x77 v
  else if num = 0x0630 then onlyBits 0x1F v && 1 ≤ v % 16 && v % 16 ≤ 5
  else if num = 0x0700 then onlyBits 0x13 v && v % 4 ≤ 2
  else if num = 0x0702 then [1, 4, 16, 64, 256].contains v
  else if num = 0x0721 then v ≤ 7 || v = 255
  else if num = 0x0740 then (List.range 8).all (fun i => v / 256 ^ i % 256 ≤ 24)
  else if num = 0x0801 then onlyBits 0xBFFFFFFF v && 1 ≤ v / 256 % 256
  else if num = 0x0802 then onlyBits 0x81FFFFFF v
  else if num = 0x0810 then v / 2 ^ 58 % 16 = 0 && (nbit v 62 || (v / 2 ^ 11 % 2 ^ 18 = 0 && v / 2 ^ 40 % 2 ^ 18 = 0))
  else if num = 0x0900 ∨ num = 0x0901 then v ≠ 3
  else if num = 0x0902 ∨ num = 0x0903 then onlyBits 0x9FFFFFFF v
  else if num = 0x0910 then onlyBits 0xF3 v
  else if num = 0x0920 then v ≤ 3 || v = 255
  else true

/-- The value a 64-bit VALUE field means for a parameter, and whether it lies in the format, range and layout (R384). -/
def pvalue (p : PSpec) (raw : Nat) : Option Int :=
  let v : Int := if p.sg then wrapS 64 raw else raw
  if p.lo ≤ v ∧ v ≤ p.hi ∧ playout p.num v.toNat = true then some v else none

/-- The 64-bit VALUE field that shows a value: sign-extended or zero-extended (R384). -/
def praw (v : Int) : Nat := wrapU 64 v

/-! ### Parameters by name -/

/-- Class of an axis: 0 not declared, 1 servo, 2 block, 3 stepper, 4 measure (R42). -/
def axClass (s : State) (a : Nat) : Nat := pnat s 0x0100 a
/-- The interpolation group of an axis; 255 none (R42). -/
def axGroup (s : State) (a : Nat) : Nat := pnat s 0x0107 a
/-- The pick in time units of a pick length code (R23). -/
def pickUnits (code : Nat) : Nat := if code = 0 then 10000 else if code = 1 then 12500 else if code = 2 then 20000 else 25000
/-- T_pick in force. -/
def tPick (s : State) : Nat := pickUnits s.clk.plen
/-- T_bolt in force (R25). -/
def tBolt (s : State) : Nat := 32 * tPick s
/-- End of the up region (R29). -/
def upEnd (code : Nat) : Nat := if code = 0 then 4640 else if code = 1 then 6000 else if code = 2 then 9840 else 12240
/-- Build deadline T_dl (R29). -/
def tDl (code : Nat) : Nat := if code = 0 then 5600 else if code = 1 then 7000 else if code = 2 then 11200 else 13800
/-- Start of the down region (R29). -/
def downStart (code : Nat) : Nat := tDl code + 200
/-- End of the down region (R29). -/
def downEnd (code : Nat) : Nat := if code = 0 then 9700 else if code = 1 then 12200 else if code = 2 then 19700 else 24700
/-- Time units in a second. -/
def second : Nat := 400000000
/-- Time units in a millisecond. -/
def millisecond : Nat := 400000

end Sys2Proof.Machine
end

