-- ==== Sys2Proof/Machine/Ops.lean ====
section
/-! DEFINITION. The named operations over State that every family uses: the records of the numbered units, raising an event
(R367, R397), sending an item to the partner (R478), free values, and the outcome of a row. -/
namespace Sys2Proof.Machine

/-! ### Records of the numbered units -/

/-- Mailbox of a master. -/
def mbOf (s : State) (m : Nat) : Mb := tabGet {} s.mbs m
/-- Change the mailbox of a master. -/
def modMb (s : State) (m : Nat) (f : Mb → Mb) : State := { s with mbs := tabMod {} s.mbs m f }
/-- Branch. -/
def brOf (s : State) (b : Nat) : Branch := tabGet {} s.brs b
/-- Change a branch. -/
def modBr (s : State) (b : Nat) (f : Branch → Branch) : State := { s with brs := tabMod {} s.brs b f }
/-- Counter block of a branch. -/
def brcOf (s : State) (b : Nat) : BranchCnt := tabGet {} s.brCnt b
/-- Change the counter block of a branch. -/
def modBrc (s : State) (b : Nat) (f : BranchCnt → BranchCnt) : State := { s with brCnt := tabMod {} s.brCnt b f }
/-- Node. -/
def ndOf (s : State) (n : Nat) : Node := tabGet {} s.nodes n
/-- Change a node. -/
def modNd (s : State) (n : Nat) (f : Node → Node) : State := { s with nodes := tabMod {} s.nodes n f }
/-- Counter block of a node. -/
def ndcOf (s : State) (n : Nat) : NodeCnt := tabGet {} s.ndCnt n
/-- Change the counter block of a node. -/
def modNdc (s : State) (n : Nat) (f : NodeCnt → NodeCnt) : State := { s with ndCnt := tabMod {} s.ndCnt n f }
/-- Lane. -/
def laneOf (s : State) (l : Nat) : Lane := tabGet {} s.lanes l
/-- Change a lane. -/
def modLane (s : State) (l : Nat) (f : Lane → Lane) : State := { s with lanes := tabMod {} s.lanes l f }
/-- Statistics of a lane. -/
def lncOf (s : State) (l : Nat) : LaneCnt := tabGet {} s.lnCnt l
/-- Change the statistics of a lane. -/
def modLnc (s : State) (l : Nat) (f : LaneCnt → LaneCnt) : State := { s with lnCnt := tabMod {} s.lnCnt l f }
/-- Axis. -/
def axOf (s : State) (a : Nat) : Axis := tabGet {} s.axes a
/-- Change an axis. -/
def modAx (s : State) (a : Nat) (f : Axis → Axis) : State := { s with axes := tabMod {} s.axes a f }
/-- Interpolation group. -/
def grpOf (s : State) (g : Nat) : Grp := tabGet {} s.grps g
/-- Change a group. -/
def modGrp (s : State) (g : Nat) (f : Grp → Grp) : State := { s with grps := tabMod {} s.grps g f }
/-- Echo output. -/
def ecOf (s : State) (e : Nat) : Echo := tabGet {} s.echo e
/-- Change an echo output. -/
def modEc (s : State) (e : Nat) (f : Echo → Echo) : State := { s with echo := tabMod {} s.echo e f }
/-- Acquisition unit. -/
def unOf (s : State) (u : Nat) : AcqU := tabGet {} s.kiln.units u
/-- Change an acquisition unit. -/
def modUn (s : State) (u : Nat) (f : AcqU → AcqU) : State := { s with kiln.units := tabMod {} s.kiln.units u f }
/-- History of an axis. -/
def hiOf (s : State) (a : Nat) : Hist := tabGet {} s.kiln.hists a
/-- Change the history of an axis. -/
def modHi (s : State) (a : Nat) (f : Hist → Hist) : State := { s with kiln.hists := tabMod {} s.kiln.hists a f }
/-- CAN channel. -/
def canOf (s : State) (c : Nat) : Can := tabGet {} s.cans c
/-- Change a CAN channel. -/
def modCan (s : State) (c : Nat) (f : Can → Can) : State := { s with cans := tabMod {} s.cans c f }
/-- Safe output group. -/
def sogOf (d : Damper) (g : Nat) : Sog := tabGet {} d.sogs g
/-- Safe input. -/
def sinOf (d : Damper) (i : Nat) : Sin := tabGet {} d.sins i

/-- Change the state machine record of an axis. -/
def modSm (s : State) (a : Nat) (f : AxSm → AxSm) : State := modAx s a (fun x => { x with sm := f x.sm })
/-- Change the loop record of an axis. -/
def modLp (s : State) (a : Nat) (f : AxLoop → AxLoop) : State := modAx s a (fun x => { x with lp := f x.lp })
/-- Change the feedback record of an axis. -/
def modFb (s : State) (a : Nat) (f : AxFb → AxFb) : State := modAx s a (fun x => { x with fb := f x.fb })
/-- Change the profile record of an axis. -/
def modProf (s : State) (a : Nat) (f : AxProf → AxProf) : State := modAx s a (fun x => { x with prof := f x.prof })
/-- Change the modulation record of an axis. -/
def modMd (s : State) (a : Nat) (f : AxMod → AxMod) : State := modAx s a (fun x => { x with md := f x.md })
/-- Change the statistics of an axis. -/
def modCnt (s : State) (a : Nat) (f : AxCnt → AxCnt) : State := modAx s a (fun x => { x with cnt := f x.cnt })

/-- Apply a change for every member of a list. -/
def forEach {α : Type} (xs : List α) (f : State → α → State) (s : State) : State := xs.foldl f s
/-- Apply a change if a condition holds. -/
def when (c : Bool) (f : State → State) (s : State) : State := if c then f s else s

/-! ### Outcomes -/

/-- The outcome of a row: the next state, with the waiting queue as the step left it and the DDR bytes of R504, which
only the firmware update stores, as they were. -/
def finish (s t : State) : Host.Outcome State Fault Refusal := .next { t with pending := s.pending, ddr := s.ddr }
/-- The outcome of a row that belongs to no part of the safety island (R444): as `finish`, and the Damper as it was. -/
def finishD (s t : State) : Host.Outcome State Fault Refusal :=
  .next { t with pending := s.pending, ddr := s.ddr, dmp := s.dmp }
/-- What a row outside the safety island leaves of a group (R442, R444): its outputs and its test as they were, and its state but
for a release of RESTART or LOCKOUT that the active controller passes on (R462), which a halted Damper does not take (R460); causes may
have been found for it (R464). -/
def sogKeep (halted : Bool) (x y : Sog) : Sog := { x with st := if halted = false ∧ 2 ≤ x.st ∧ y.st = 1 then 1 else x.st, found := y.found }
/-- The groups released between two records of the Damper, taken from a register. -/
def retainKeep (d e : Damper) : BitVec 4 :=
  d.retain &&& ~~~ (BitVec.ofNat 4 (nsum (((List.range 4).filter (fun g => decide (d.halted = false ∧ 2 ≤ (sogOf d g).st ∧ (sogOf e g).st = 1))).map (fun g => 2 ^ g))))
/-- What a row outside the safety island that brings values into force leaves of the Damper: values of the safety set renew the
networks, find causes and set the mismatch (R462, R464); nothing else changes. -/
def islandKeep (d e : Damper) : Damper :=
  { d with sogs := (List.range 4).foldl (fun t g => let x := sogKeep d.halted (sogOf d g) (sogOf e g)
                                                    if x = sogOf d g then t else tabSet t g x) d.sogs,
           retain := retainKeep d e, netA := e.netA, netB := e.netB,
           mismatch := e.mismatch }
/-- The outcome of a row outside the safety island that may bring values of the safety set into force: as `finish`, with the Damper
kept as `islandKeep` says. -/
def finishV (s t : State) : Host.Outcome State Fault Refusal :=
  .next { t with pending := s.pending, ddr := s.ddr, dmp := islandKeep s.dmp t.dmp }
/-- The outcome of a row that stores in DDR (R504, R506): the waiting queue and the Damper are kept. -/
def finishM (s t : State) : Host.Outcome State Fault Refusal := .next { t with pending := s.pending, dmp := s.dmp }
/-- The outcome of a row that may reset the part: only the waiting queue is kept. -/
def finishAll (s t : State) : Host.Outcome State Fault Refusal := .next { t with pending := s.pending }

/-! ### Events -/

/-- The pick stamp of the current pick. -/
def ps (s : State) : BitVec 32 := s.clk.pstamp

/-- Whether a host-time mapping is in force (R39). -/
def mapped (s : State) : Bool := s.ptp.rho != -2147483648

/-- The event log with one more record (R397). -/
def logAdd (s : State) (code inst : Nat) (pl : Bytes) (p : BitVec 32) : EvLog :=
  { recs := ({ lseq := s.log.next, code := code, inst := inst, pstamp := p, payload := pl, tstamp := s.clk.now,
               t0 := s.ptp.t0, h0s := s.ptp.h0s, h0ns := s.ptp.h0ns, rho := s.ptp.rho } :: s.log.recs).take 524288,
    next := (s.log.next + 1) % 4294967296 }

/-- Merge an event into the pending entry of the same CODE and INST (R367). -/
def evMerge (e : Ev) : List Ev → Option (List Ev)
  | [] => none
  | x :: xs =>
    if x.code = e.code ∧ x.inst = e.inst then
      some ({ x with count := min (x.count + 1) 0xFFFF, payload := e.payload } :: xs)
    else (evMerge e xs).map (x :: ·)

/-- Add an event to the pending table of a master (R367): merged into an equal entry, appended, or merged into
MB_EVT_OVERFLOW, which stands beside the 128 entries, when they are taken. -/
def mbEvent (m : Nat) (e : Ev) (mb : Mb) : Mb :=
  match evMerge e mb.events with
  | some es => { mb with events := es, evtMerged := satInc 16 mb.evtMerged }
  | none =>
    if (mb.events.filter (fun x => x.code != 0x1103)).length < 128 then { mb with events := mb.events ++ [e] }
    else
      let o : Ev := { code := 0x1103, inst := m, count := 1, pstamp := e.pstamp, payload := [] }
      match evMerge o mb.events with
      | some es => { mb with events := es, evtMerged := satInc 16 mb.evtMerged }
      | none => { mb with events := mb.events ++ [o], evtMerged := satInc 16 mb.evtMerged }

/-- The mailboxes with an event added for every master whose HST_EVT_MASK has the class bit (R367). -/
def mbsEvent (s : State) (e : Ev) : Tab Mb :=
  (List.range 12).foldl
    (fun t m => if nbit (pnat s 0x0A0A m) (e.code / 4096) then tabMod {} t m (mbEvent m e) else t) s.mbs

/-- Raise an event that carries a given pick stamp. -/
def raiseAt (s : State) (code inst : Nat) (pl : Bytes) (p : BitVec 32) : State :=
  { s with log := logAdd s code inst pl p,
           mbs := mbsEvent s { code := code, inst := inst, count := 1, pstamp := p, payload := pl } }

/-- Raise an event: recorded in the event log and pending for the masters that receive its class (R367, R397). -/
def raise (s : State) (code inst : Nat) (pl : Bytes) : State := raiseAt s code inst pl (ps s)

/-- INST of an event that names no unit (R360). -/
def noInst : Nat := 0xFFFF

/-! ### Items to the partner -/

/-- Whether items are produced: the active controller of a pair whose standby is being loaded or in SYNC (R478, R489). -/
def mirroring (s : State) : Bool := s.pair.active && (s.pair.lstate = 2 || s.pair.lstate = 3)

/-- Whether the standby is in SYNC (R480). -/
def inSync (s : State) : Bool := s.pair.lstate = 3

/-- A stamp or item number has been reached by another, modulo 2^32. -/
def reached (x now : BitVec 32) : Bool := decide (psDiff now x < 2 ^ 31)

/-- The pick stamp at which the next bolt begins. -/
def nextBolt (s : State) : BitVec 32 := BitVec.ofNat 32 ((psBolt (ps s) + 1) * 32)

/-- The boundary an item of the present pick can name: it is sent before the frame of the next pick, so one of pick 31 names the
boundary after the next (R478). -/
def boltNamed (s : State) : BitVec 32 := if psPick (ps s) = 31 then nextBolt s + 32 else nextBolt s

/-- The p_e of an item that is sent in the present pick (R478): the boundary its effect applies at. No bolt change names the swap pick
(R488). -/
def peName (s : State) (bolt : Bool) : BitVec 32 :=
  if bolt then (if s.pair.swapAt = some (boltNamed s) then boltNamed s + 32 else boltNamed s) else ps s + 1

/-- Selvedge payload of a pick (R55). -/
def selCap (c : Nat) : Nat := if c = 0 then 7812 else if c = 1 then 9765 else if c = 2 then 15625 else 19531
/-- Bytes of the link that are left in this pick behind the state frame and the items sent (R474). While bulk waits, acknowledgements and
items keep to the reserve. -/
def linkRoom (s : State) : Nat :=
  (if s.pair.bulkOut = [] then selCap s.clk.plen - s.pair.frameOut.length else pnat s 0x0B05 0) - s.pair.spent

/-- The Selvedge record with one more item (R478). It is sent at once where none waits before it, no bulk does (R489) and it fits in
the pick; else it waits (R474). -/
def itemAdd (s : State) (b : ItemBody) (bolt : Bool) : Pair :=
  let p := s.pair
  let it : Item := { iseq := p.iseqSent + 1, pe := peName s bolt, body := b }
  let len := Config.itemLen it.iseq.toNat
  if p.link && p.bulkOut.isEmpty && p.outbox.all (fun o => o.sentAt.isSome) && decide (len ≤ linkRoom s) then
    { p with iseqSent := it.iseq, outbox := p.outbox ++ [{ item := it, bolt := bolt, sentAt := some (ps s), acked := false }],
             itemsOut := p.itemsOut ++ [it], spent := p.spent + len }
  else { p with iseqSent := it.iseq, outbox := p.outbox ++ [{ item := it, bolt := bolt, sentAt := none, acked := false }] }

/-- Send an item if items are produced (R478); its effect applies from the next pick. -/
def sendItem (s : State) (b : ItemBody) : State := { s with pair := if mirroring s then itemAdd s b false else s.pair }

/-- Send an item whose effect applies at a bolt or pick boundary and answer its number, for a change that waits for the acknowledgement while the partner is
in SYNC (R478). -/
def sendWait (s : State) (b : ItemBody) (bolt : Bool) : State × Option (BitVec 32) :=
  ({ s with pair := if mirroring s then itemAdd s b bolt else s.pair },
   if mirroring s && inSync s then some (s.pair.iseqSent + 1) else none)

/-- An item has been acknowledged and its p_e has come, or it is no longer waited for (R478). -/
def itemDone (s : State) (n : Option (BitVec 32)) : Bool :=
  match n with
  | none => true
  | some k => s.pair.outbox.all (fun o => o.item.iseq != k || (o.acked && reached o.item.pe (ps s)))

/-- Change the homing record of an axis, and mirror it (R478). -/
def modHm (s : State) (a : Nat) (f : AxHome → AxHome) : State :=
  let t := modAx s a (fun x => { x with hm := f x.hm })
  when ((axOf s a).hm != (axOf t a).hm) (fun u => sendItem u (.homing (Fin.ofNat 128 a) (axOf u a).hm)) t

/-! ### Free values -/

/-- Draw a free integer and advance the counter (log 2). -/
def drawInt (s : State) : State × Int := ({ s with freeCtr := s.freeCtr + 1 }, Config.freeInt s.freeCtr)
/-- Draw a free number and advance the counter (log 2). -/
def drawNat (s : State) : State × Nat := ({ s with freeCtr := s.freeCtr + 1 }, Config.freeNat s.freeCtr)

/-! ### Roles -/

/-- The fused role in effect: a chip whose role is not fused behaves as role A (R413). -/
def roleB (s : State) : Bool := s.acc.roleNow = 2
/-- The controller is standby: a pair is set up and the other chip is active. -/
def isStandby (s : State) : Bool := s.net.phase = .following
/-- The parsers alone follow the up frames: a standby's, and the new active controller's in the swap pick, which computes nothing (R475,
R488). -/
def parsesOnly (s : State) : Bool := isStandby s || s.pair.swapSt = 2
/-- The QSPI READY register bit and pin (R495). -/
def isReady (s : State) : Bool := s.boot.ready

end Sys2Proof.Machine
end

