-- ==== Sys2Proof/Machine/Can.lean ====
section
/-! DEFINITION. CAN channels: the transmit FIFO (R430, R433), error confinement (R427), address claim (R435) and
transport (R436). The frame formats of ISO 11783-3 and ISO 11783-5 and the counter steps of ISO 11898-1 are PRESUMED
(log 9): spec/ names the standards and does not restate them. -/
namespace Sys2Proof.Machine

/-- CAN_NAME of a channel (R438). -/
def canName (s : State) (c : Nat) : Nat := pnat s 0x0808 c
/-- The mode a channel runs in (R422, R423): a controller that is not active listens only. -/
def canEff (s : State) (c : Nat) : Nat := if pnat s 0x0800 c = 1 ∧ s.pair.active = false then 2 else pnat s 0x0800 c
/-- The channel can transmit: normal mode, not bus-off or recovering (R422, R427). -/
def canRunning (ch : Can) : Bool := ch.mode = 1 && !ch.boff

/-- An extended identifier from priority, PDU format, destination and source. -/
def canId (prio pf ps' sa : Nat) : BitVec 29 := BitVec.ofNat 29 (prio * 2 ^ 26 + pf * 65536 + ps' * 256 + sa)
/-- PDU format of an extended identifier. -/
def idPf (i : BitVec 29) : Nat := i.toNat / 65536 % 256
/-- Destination of an extended identifier. -/
def idPs (i : BitVec 29) : Nat := i.toNat / 256 % 256
/-- Source address of an extended identifier. -/
def idSa (i : BitVec 29) : Nat := i.toNat % 256
/-- A classical extended frame. -/
def canFrame (i : BitVec 29) (d : Bytes) : CanFrame := { ide := true, fdf := false, remote := false, ident := i, data := d }

/-- Move waiting firmware frames into free entries, in order (R430). -/
def canRefill : Nat → Can → Can
  | 0, ch => ch
  | k + 1, ch =>
    match ch.fwQ with
    | [] => ch
    | e :: es => if ch.fifo.length < 32 then canRefill k { ch with fifo := ch.fifo ++ [e], fwQ := es } else ch

/-- The channel after an entry has left the FIFO from the head (R430, R433). -/
def canAfterPop (now : Nat) (ch : Can) : Can := { canRefill 32 ch with headT := now }

/-- Enter a firmware frame (R430): in order behind the frames that already wait. -/
def canFwEnter (now : Nat) (f : CanFrame) (brs : Bool) (ch : Can) : Can :=
  let e : CanEnt := { f := f, brs := brs, host := false, t := now }
  if ch.fifo.length < 32 ∧ ch.fwQ = [] then
    { ch with fifo := ch.fifo ++ [e], headT := if ch.fifo = [] then now else ch.headT }
  else { ch with fwQ := ch.fwQ ++ [e], fwWait := satInc 16 ch.fwWait }

/-- Send a firmware frame on a channel. -/
def canSendFw (s : State) (c : Nat) (f : CanFrame) : State := modCan s c (canFwEnter s.clk.now f false)

/-- The arbitration key of R433. -/
def canKey (f : CanFrame) : Nat :=
  if f.ide then f.ident.toNat / 2 ^ 18 * 2 ^ 19 + 2 ^ 18 + f.ident.toNat % 2 ^ 18 else f.ident.toNat * 2 ^ 19

/-- The FIFO sorted by key, arrival order kept among equals, each entry with the position it had (R433). -/
def canSorted (q : List CanEnt) : List (CanEnt × Nat) := sortBy (fun a b => canKey a.1.f < canKey b.1.f) (q.zip (List.range q.length))
/-- Requeue (R433, steps 2 and 3), counting the entries whose position changed. -/
def canRequeue (now : Nat) (ch : Can) : Can × Nat :=
  let r := canSorted ch.fifo
  let moved := ((r.map (·.2)).zip (List.range r.length)).filter (fun p => p.1 != p.2)
  ({ ch with fifo := r.map (·.1), headT := if (r.map (·.2)).headD 0 = 0 then ch.headT else now }, moved.length)

/-! ### Error confinement -/

/-- CAN_STATUS STATE (R439). -/
def canState (ch : Can) : Nat :=
  if ch.mode ≠ 1 then 3 else if ch.boff then 2 else if 128 ≤ ch.tec ∨ 128 ≤ ch.recv then 1 else 0

/-- Raise the events of a change of the error counters (R427). -/
def canConfine (s : State) (c : Nat) (old : Can) : State :=
  let ch := canOf s c
  let s1 := when ((old.tec < 96 && 96 ≤ ch.tec) || (old.recv < 96 && 96 ≤ ch.recv)) (fun t => raise t 0xC101 c []) s
  let s2 := when (old.tec < 128 && old.recv < 128 && (128 ≤ ch.tec || 128 ≤ ch.recv)) (fun t => raise t 0xC102 c []) s1
  when (ch.boff && !old.boff) (fun t => raise t 0xC103 c []) s2

/-- The channel after an error or lost arbitration (R427, R440). -/
def canErrStep (kind : CanErrKind) (ch : Can) : Can :=
  match kind with
  | .arbLost => { ch with arbLost := satInc 32 ch.arbLost }
  | .txError =>
    let t := ch.tec + 8
    { ch with errTx := satInc 32 ch.errTx, tec := min t 511, boff := ch.boff || 256 ≤ t,
              recov := if 256 ≤ t && !ch.boff then false else ch.recov,
              boffCnt := if 256 ≤ t && !ch.boff then satInc 16 ch.boffCnt else ch.boffCnt }
  | .txKept => { ch with errTx := satInc 32 ch.errTx }
  | .rxError => { ch with errRx := satInc 32 ch.errRx, recv := min (ch.recv + 1) 255 }
  | .rxHeavy => { ch with errRx := satInc 32 ch.errRx, recv := min (ch.recv + 8) 255 }

/-- The receive error counter after a frame received without error: down by one, or to a value from 119 to 127 that the
standard leaves open, the free value `v` (log 9). -/
def canRecOk (v recv : Nat) : Nat := if recv = 0 then 0 else if recv ≤ 127 then recv - 1 else 119 + v % 9

/-! ### Transport (R436) -/

/-- Send a transport frame from the channel's address. -/
def tpSend (s : State) (c pf peer : Nat) (d : Bytes) : State :=
  canSendFw s c (canFrame (canId 7 pf peer (canOf s c).sa) d)
/-- The three bytes of a parameter group at the end of a connection management frame. -/
def tpPgn (pgn : Nat) : Bytes := le 3 pgn
/-- Count an abort and raise CAN_TP_ABORT (R436). -/
def tpAbortNote (s : State) (c peer reason : Nat) : State :=
  raise (modCan s c (fun ch => { ch with tpAbort := satInc 16 ch.tpAbort })) 0xC109 c [BitVec.ofNat 8 peer, BitVec.ofNat 8 reason]
/-- Abort towards a peer. `ext` selects the extended protocol's frames. -/
def tpAbortSend (s : State) (c peer reason pgn : Nat) (ext : Bool) : State :=
  tpAbortNote (tpSend s c (if ext then 0xC8 else 0xEC) peer ([0xFF, BitVec.ofNat 8 reason, 0xFF, 0xFF, 0xFF] ++ tpPgn pgn)) c peer reason
/-- Abort every session of a peer without a frame of ours. -/
def tpDropPeer (s : State) (c peer : Nat) : State :=
  let go := fun (t : State) (had : Bool) (rx : Bool) =>
    when had (fun t =>
      let r := drawNat t
      tpAbortNote (modCan r.1 c (fun ch => if rx then { ch with tpRx := tabErase ch.tpRx peer } else { ch with tpTx := tabErase ch.tpTx peer }))
        c peer (r.2 % 256)) t
  let ch := canOf s c
  go (go s (tabFind ch.tpRx peer).isSome true) (tabFind ch.tpTx peer).isSome false
/-- Abort every session of a channel (loss of its own address). -/
def tpDropAll (s : State) (c : Nat) : State :=
  let ch := canOf s c
  forEach (dedup (ch.tpRx.map (·.1) ++ ch.tpTx.map (·.1))) (fun t p => tpDropPeer t c p) s

/-- Clear the next packets of a receive session. -/
def tpClear (s : State) (c peer : Nat) (t : TpSess) : State :=
  let total := cdiv t.len 7
  let n := min t.per (total + 1 - t.next)
  modCan (tpSend s c 0xEC peer ([17, BitVec.ofNat 8 n, BitVec.ofNat 8 t.next, 0xFF, 0xFF] ++ tpPgn t.pgn)) c
    (fun ch => { ch with tpRx := tabSet ch.tpRx peer { t with upto := t.next + n - 1, t := s.clk.now } })

/-- The packets `next` to `next + n − 1` of a transmit session, as frames. -/
def tpData (s : State) (c peer : Nat) (t : TpSess) : Nat → Nat → State
  | 0, _ => s
  | n + 1, k =>
    let d := (t.data.drop (7 * (k - 1))).take 7
    tpData (tpSend s c 0xEB peer (BitVec.ofNat 8 k :: (d ++ List.replicate (7 - d.length) 0xFF))) c peer t n (k + 1)

/-- A request to send arrives (R436). -/
def tpRts (s : State) (c peer : Nat) (d : Bytes) : State :=
  let len := rdLe d 1 2
  let pgn := rdLe d 5 3
  let ch := canOf s c
  if (tabFind ch.tpRx peer).isSome then tpAbortSend s c peer 1 pgn false
  else if 4 ≤ ch.tpRx.length ∨ 1025 < len then tpAbortSend s c peer 2 pgn false
  else
    tpClear s c peer { data := [], len := len, pgn := pgn, next := 1, upto := 0,
                       per := max 1 (min (rdLe d 3 1) (rdLe d 4 1)), t := s.clk.now }

/-- A data packet arrives (R436). Packets that are missing at the end of a burst are asked for again, twice at the most, and then the session
is aborted with reason 5 (PRESUMED, log 9). -/
def tpDt (s : State) (c peer : Nat) (d : Bytes) : State :=
  match tabFind (canOf s c).tpRx peer with
  | none => s
  | some t =>
    let k := rdLe d 0 1
    let t1 := if k = t.next then { t with data := (t.data ++ (d.drop 1).take 7).take t.len, next := t.next + 1, t := s.clk.now } else t
    if t1.len ≤ t1.data.length then
      modCan (tpSend s c 0xEC peer ([19] ++ le 2 t1.len ++ [BitVec.ofNat 8 (cdiv t1.len 7), 0xFF] ++ tpPgn t1.pgn)) c
        (fun ch => { ch with tpRx := tabErase ch.tpRx peer })
    else if k = t.upto then
      if t1.next ≤ t.upto then
        if t.again = 2 then tpAbortSend (modCan s c (fun ch => { ch with tpRx := tabErase ch.tpRx peer })) c peer 5 t.pgn false
        else tpClear s c peer { t1 with again := t.again + 1 }
      else tpClear s c peer { t1 with again := 0 }
    else modCan s c (fun ch => { ch with tpRx := tabSet ch.tpRx peer t1 })

/-- A connection management frame arrives (R436). A receiver may ask for packets again twice in succession (PRESUMED, log 9). -/
def tpCm (s : State) (c peer : Nat) (d : Bytes) : State :=
  let ctl := rdLe d 0 1
  let tx := tabFind (canOf s c).tpTx peer
  if ctl = 16 then tpRts s c peer d
  else if ctl = 17 then
    match tx with
    | some t =>
      let n := rdLe d 1 1
      let k := rdLe d 2 1
      if k = 0 then s
      else if k < t.next ∧ t.again = 2 then
        tpAbortSend (modCan s c (fun ch => { ch with tpTx := tabErase ch.tpTx peer })) c peer 5 t.pgn false
      else
        let m := min n (cdiv t.len 7 + 1 - k)
        modCan (tpData s c peer t m k) c (fun ch => { ch with tpTx := tabSet ch.tpTx peer { t with next := k + m, upto := k + m - 1, t := s.clk.now,
                                                                                                          again := if k < t.next then t.again + 1 else 0 } })
    | none => s
  else if ctl = 19 then modCan s c (fun ch => { ch with tpTx := tabErase ch.tpTx peer })
  else if ctl = 255 then
    let had := (tabFind (canOf s c).tpRx peer).isSome || tx.isSome
    when had (fun t => tpAbortNote (modCan t c (fun ch => { ch with tpRx := tabErase ch.tpRx peer, tpTx := tabErase ch.tpTx peer })) c peer (rdLe d 1 1)) s
  else s

/-- The address at present held by a NAME on a channel (R374). -/
def canHolder (ch : Can) (name : Nat) : Option Nat := (ch.seen.find? (fun p => p.2 = name)).map (·.1)

/-- The data length codes of FD frames above 8 bytes. -/
def fdLen (n : Nat) : Nat := if n ≤ 8 then n else if n ≤ 12 then 12 else if n ≤ 16 then 16 else if n ≤ 20 then 20
  else if n ≤ 24 then 24 else if n ≤ 32 then 32 else if n ≤ 48 then 48 else 64

/-- Send one gateway message to the holder (R374): in one FD frame where it fits, padded to a length the format has
(PRESUMED, log 9), else by a transport session. -/
def gwStart (s : State) (c peer : Nat) (msg : Bytes) : State :=
  let ch := canOf s c
  if pnat s 0x0803 c % 2 = 1 ∧ msg.length ≤ 64 then
    modCan s c (canFwEnter s.clk.now { ide := true, fdf := true, remote := false, ident := canId 6 0xEF peer ch.sa,
                                       data := padTo (fdLen msg.length) msg } (nbit (pnat s 0x0803 c) 1))
  else
    let n := cdiv msg.length 7
    modCan (tpSend s c 0xEC peer ([16] ++ le 2 msg.length ++ [BitVec.ofNat 8 n, 0xFF] ++ tpPgn 0xEF00)) c
      (fun x => { x with tpTx := tabSet x.tpTx peer { data := msg, len := msg.length, pgn := 0xEF00, next := 1, upto := 0, per := 255, t := s.clk.now } })

/-- Start the gateway messages that can be sent now, at most `n` of them; none while the gateway is off (R374). -/
def gwPump (s : State) (c : Nat) : Nat → State
  | 0 => s
  | n + 1 =>
    let ch := canOf s c
    match (if pnat s 0x0A0B c = 0 then [] else ch.gwQ), canHolder ch (pnat s 0x0A0B c) with
    | msg :: rest, some peer =>
      if ch.mode = 1 ∧ ch.claim = 2 ∧ (tabFind ch.tpTx peer).isNone ∧ ch.tpTx.length < 4 then
        gwPump (gwStart (modCan s c (fun x => { x with gwQ := rest })) c peer msg) c n
      else s
    | _, _ => s

/-- Queue a gateway message and start what can be started. -/
def gwSend (s : State) (c : Nat) (msg : Bytes) : State :=
  gwPump (modCan s c (fun ch => { ch with gwQ := ch.gwQ ++ [msg] })) c 4

/-! ### Address claim (R435) -/

/-- Send the address claim of the channel from an address. -/
def claimFrame (s : State) (c sa : Nat) : State := canSendFw s c (canFrame (canId 6 0xEE 0xFF sa) (le 8 (canName s c)))

/-- The claimant `name` of an address keeps or takes it from the one that is known to have claimed it: the lower NAME holds it. -/
def claimWins (name : Nat) (old : Option Nat) : Bool := match old with | some q => decide (name < q) | none => true
/-- Mark the addresses a NAME has left, and note the address it claims now, unless a lower NAME keeps that. -/
def seenClaim (name sa : Nat) (seen : Tab Nat) : Tab Nat :=
  let t := seen.map (fun p => if p.2 = name then (p.1, name + 2 ^ 64) else p)
  if sa < 254 && claimWins name (tabFind t sa) then tabSet t sa name else t

/-- Claim an address: the 250 ms start (R435 steps 1, 2). -/
def claimAddr (s : State) (c sa : Nat) : State := claimFrame (modCan s c (fun ch => { ch with sa := sa, claim := 1 })) c sa

/-- The next address to claim after a loss, from the range, wrapping, none claimed by another NAME (R435 step 4). -/
def claimNext (s : State) (c : Nat) : Option Nat :=
  let ch := canOf s c
  let lo := pnat s 0x080A c
  let hi := pnat s 0x080B c
  let from' := if lo ≤ ch.sa ∧ ch.sa < hi then ch.sa + 1 else lo
  let n := hi + 1 - lo
  (List.range n).map (fun i => lo + (from' - lo + i) % n) |>.find? (fun a => a != ch.sa && (tabFind ch.seen a).isNone)

/-- The channel loses its address to a lower NAME (R435 steps 4 and 5). -/
def claimLose (s : State) (c : Nat) : State :=
  let s1 := tpDropAll s c
  match nbit (canName s c) 63, claimNext s c with
  | true, some a => claimAddr s1 c a
  | _, _ => modCan s1 c (fun ch => { ch with sa := 0xFE, claim := 3 })

/-- Begin the claim of a channel in normal mode with a NAME, at a given first address; one that another NAME has claimed since the channel
started is never claimed (R435 step 4). A channel of a controller that is not active keeps the address it follows (R490). -/
def claimStartAt (s : State) (c sa : Nat) : State :=
  if (canOf s c).mode = 1 ∧ canName s c ≠ 0 then
    if (tabFind (canOf s c).seen sa).isSome then claimLose (modCan s c (fun ch => { ch with sa := sa })) c else claimAddr s c sa
  else modCan s c (fun ch => { ch with sa := if s.pair.active then 0xFE else ch.sa, claim := 0 })

/-- Begin the claim at CAN_SA_PREF (R435 step 1). -/
def claimStart (s : State) (c : Nat) : State := claimStartAt s c (pnat s 0x0809 c)

/-- The addresses that a claim of `sa` by a NAME takes from their holders: the one it leaves itself, and `sa` from a higher NAME. -/
def claimTakes (name sa : Nat) (seen : Tab Nat) : List Nat :=
  (seen.filter (fun p => (p.2 = name && p.1 != sa) || (p.1 = sa && p.2 < 2 ^ 64 && decide (name < p.2)))).map (·.1)
/-- The claims known after one that arrives; a claim that the channel's own NAME turns down is none (R435 steps 3 and 4). -/
def seenAfter (s : State) (c sa name : Nat) (x : Can) : Tab Nat :=
  if sa = x.sa ∧ canName s c < name ∧ canName s c ≠ 0 then seenClaim name 254 x.seen else seenClaim name sa x.seen
/-- An address claim of another NAME arrives (R435, R436). -/
def claimReceive (s : State) (c sa name : Nat) : State :=
  let ch := canOf s c
  if name = canName s c then s
  else
    let s1 := forEach (claimTakes name sa ch.seen) (fun t p => tpDropPeer t c p) s
    let s2 := modCan s1 c (fun x => { x with seen := seenAfter s c sa name x })
    if (ch.claim = 1 ∨ ch.claim = 2) ∧ sa = ch.sa then
      if canName s c < name then claimFrame s2 c ch.sa else claimLose s2 c
    else s2

/-- A request for address claim arrives (R435 step 3). -/
def claimRequest (s : State) (c : Nat) : State :=
  let ch := canOf s c
  if ch.claim = 1 ∨ ch.claim = 2 then claimFrame s c ch.sa
  else if ch.claim = 4 then modCan s c (fun x => { x with claim := 5 }) else s

/-- The firmware stack takes a received frame (R435, R436): claims, requests for claim and transport to its own address. The claims of
other NAMEs are noted whether the channel has a NAME itself or not, since it started. -/
def canStack (s : State) (c : Nat) (f : CanFrame) : State :=
  let ch := canOf s c
  if !f.ide || ch.mode = 0 then s
  else if canName s c = 0 then
    if idPf f.ident = 0xEE ∧ f.data.length = 8 then modCan s c (fun x => { x with seen := seenAfter s c (idSa f.ident) (rdLe f.data 0 8) x }) else s
  else if ch.mode = 2 then
    -- a standby follows the address its partner's channel holds (R490) and the claims of other NAMEs (R435)
    if idPf f.ident = 0xEE ∧ f.data.length = 8 then
      if rdLe f.data 0 8 = canName s c then modCan s c (fun x => { x with sa := idSa f.ident })
      else modCan s c (fun x => { x with seen := seenAfter s c (idSa f.ident) (rdLe f.data 0 8) x })
    else s
  else
    let pf := idPf f.ident
    let dst := idPs f.ident
    let src := idSa f.ident
    if pf = 0xEE ∧ f.data.length = 8 then claimReceive s c src (rdLe f.data 0 8)
    else if pf = 0xEA ∧ (dst = 0xFF ∨ dst = ch.sa) ∧ rdLe f.data 0 3 = 0xEE00 then claimRequest s c
    else if dst ≠ ch.sa ∨ ch.claim ≠ 2 then s
    else if pf = 0xEC then tpCm s c src f.data
    else if pf = 0xEB then tpDt s c src f.data
    else if pf = 0xC8 ∧ rdLe f.data 0 1 = 20 then
      tpAbortSend s c src (if (tabFind ch.tpRx src).isSome then 1 else 2) (rdLe f.data 5 3) true
    else s

/-! ### Restart (R425) -/

/-- Stop and restart a channel in the mode its parameters and the role give (R423, R425). -/
def canRestart (s : State) (c : Nat) : State :=
  let m := canEff s c
  let s1 := tpDropAll s c
  let s2 := modCan s1 c (fun ch =>
    let hosts := (ch.fifo.filter (·.host)).length
    canAfterPop s.clk.now { ch with mode := m, tec := 0, recv := 0, boff := false, recov := false, seen := [], sa := if s.pair.active then 0xFE else ch.sa, claim := 0, stopDue := false,
                                    onBus := false, autoDue := false,
                                    fifo := ch.fifo.filter (fun e => !e.host), txExpired := satAdd 32 ch.txExpired hosts })
  claimStart s2 c

/-- Switch a channel to the mode that the present role gives, at a change of role (R423, R490). The address held before
is claimed again. The transmit FIFO stays as it is (DESIGN CHOICE, log 112). -/
def canRole (s : State) (c : Nat) : State :=
  let m := canEff s c
  let sa := (canOf s c).sa
  let s1 := tpDropAll s c
  let s2 := modCan s1 c (fun ch => { ch with mode := m, onBus := false, autoDue := false })
  if m = 1 then claimStartAt s2 c (if sa = 0xFE then pnat s 0x0809 c else sa)
  else modCan s2 c (fun ch => { ch with claim := 0, sa := sa })

/-! ### Receive filters (R428, R429) -/

/-- Whether a frame matches a filter. -/
def fltMatch (flt : Nat) (f : CanFrame) : Bool :=
  let m := if f.ide then flt / 2 ^ 29 % 2 ^ 29 else flt / 2 ^ 29 % 2048
  nbit flt 63 && (nbit flt 62 == f.ide) && ((f.ident.toNat ^^^ (flt % 2 ^ 29)) &&& m) == 0

/-- The report table after a frame (R429). -/
def canReport (s : State) (c : Nat) (f : CanFrame) : State :=
  let hits := (List.range 64).filter (fun i => fltMatch (pnat s 0x0810 (64 * c + i)) f)
  modCan s c (fun ch => { ch with rep := hits.foldl (fun t i => tabSet t i (min ((tabGet (0, f) t i).1 + 1) 0xFFFF, f)) ch.rep,
                                  rxMatch := satAdd 32 ch.rxMatch hits.length })

/-- The payload of CAN_RX (R429). -/
def canRxPayload (i : Nat) (n : Nat) (f : CanFrame) : Bytes :=
  le 4 (f.ident.toNat + 2 ^ 31 * b2n f.ide + 2 ^ 30 * b2n f.fdf) ++ [BitVec.ofNat 8 f.data.length, BitVec.ofNat 8 i] ++ le 2 n ++
    padTo 8 (f.data.take 8)

/-- The reports of the bolt boundary (R429). -/
def canBolt (s : State) (c : Nat) : State :=
  let ch := canOf s c
  let s1 := forEach ch.rep (fun t p => raise t 0xC105 c (canRxPayload p.1 p.2.1 p.2.2)) s
  if ch.rep = [] ∧ ch.expRaised = false then s else modCan s1 c (fun x => { x with rep := [], expRaised := false })

end Sys2Proof.Machine
end

