-- ==== Sys2Proof/Machine/Mailbox.lean ====
section
/-! DEFINITION. Mailboxes (R358 to R367), rights (R400, R403, R404) and the way of a command from its entry to its
completion (R378). -/
namespace Sys2Proof.Machine

/-! ### Rights -/

/-- READ (R400). -/
def rREAD : Nat := 1
/-- WRITE (R400). -/
def rWRITE : Nat := 2
/-- COMMIT (R400). -/
def rCOMMIT : Nat := 4
/-- MOVE (R400). -/
def rMOVE : Nat := 8
/-- ARM (R400). -/
def rARM : Nat := 16
/-- SAFE (R400). -/
def rSAFE : Nat := 32
/-- OWN (R400). -/
def rOWN : Nat := 64
/-- UPDATE (R400). -/
def rUPDATE : Nat := 128

/-- The default rights word of a master on a target (R404). -/
def rightsDefault (m tgt : Nat) : BitVec 16 :=
  if m = 5 ∨ m = 10 then 0x00FF else if 6 ≤ m ∧ m ≤ 8 then (if tgt = 4 then 0 else 1) else 0

/-- A reserved target (R399). -/
def reservedTarget (tgt : Nat) : Bool := tgt = 14 || tgt = 15 || 32 ≤ tgt

/-- The rights word in force of a master on a target (R399, R403, R404). -/
def rightsOf (s : State) (m tgt : Nat) : BitVec 16 :=
  if reservedTarget tgt then 0
  else if m = 0 then 0x00FF
  else if m = 9 then (if tgt = 7 then 0x0005 else 0x0001)
  else if m = 11 then (if tgt = 6 then 0x0021 else 0x0001)
  else if m = 10 ∧ s.acc.dbgOff = true then 0
  else tabGet (rightsDefault m tgt) s.acc.words (tgt * 16 + m)

/-- Whether a master holds every right of a mask on a target (R381). -/
def hasRights (s : State) (m tgt mask : Nat) : Bool := onlyBits (rightsOf s m tgt).toNat mask

/-! ### Opcodes -/

/-- The opcodes of the catalogue (R391, R392, R394, R396). -/
def opcodes : List Nat :=
  [0x0100, 0x0101, 0x0102, 0x0201, 0x0202, 0x0203, 0x0204, 0x0205, 0x0301, 0x0302, 0x0303, 0x0401, 0x0402, 0x0403, 0x0404,
   0x0405, 0x0406, 0x0407, 0x0501, 0x0502, 0x0901, 0x0902, 0x0601, 0x0602, 0x0603, 0x0604, 0x0701, 0x0702, 0x0703, 0x0704,
   0x0801, 0x0802, 0x0803, 0x0804, 0x0805, 0x0806, 0x0807, 0x0808, 0x0809, 0x0A01, 0x0A02, 0x0A03, 0x0A04, 0x0A05, 0x0B01,
   0x0B02, 0x0B03, 0x0C01, 0x0C02, 0x0D01, 0x0D02, 0x0E01, 0x0E02, 0x0E03, 0x0E04]

/-- The opcodes a standby serves (R380). -/
def opStandby (op : Nat) : Bool :=
  op / 256 = 1 || op / 256 = 0x0D || op / 256 = 0x0E ||
    [0x0201, 0x0205, 0x0302, 0x0303, 0x0401, 0x0501, 0x0901, 0x0A01, 0x0A05, 0x0B02, 0x0C02].contains op

/-- The motion class: opcodes that need MOVE, ARM or SAFE (R365). -/
def opMotion (op : Nat) : Bool :=
  [0x0601, 0x0602, 0x0603, 0x0604, 0x0701, 0x0702, 0x0703, 0x0704, 0x0801, 0x0802, 0x0803, 0x0804, 0x0808, 0x0809, 0x0C01].contains op

/-- The declared axes of an interpolation group, ascending (R292). -/
def grpMembers (s : State) (g : Nat) : List Nat := (List.range 128).filter (fun a => axClass s a != 0 && axGroup s a == g)

/-- The access target of an axis (R399). -/
def axTarget (a : Nat) : Nat := 16 + a / 8
/-- The target of a group command: the axis target of its lowest-numbered member (R381). -/
def grpTarget (s : State) (g : Nat) : Nat := axTarget ((grpMembers s g).headD 0)

/-- PNUM of an item or set name. -/
def itPnum (w : Nat) : Nat := w / 65536
/-- INST of an item or set name. -/
def itInst (w : Nat) : Nat := w / 256 % 256
/-- The target an item addresses; PAIR_SYNC_RESERVE counts as addressing target 1 except in a read (R514). -/
def itTarget (read : Bool) (w : Nat) : Nat :=
  match paddr (itPnum w) (itInst w) with
  | some p => if p.num = 0x0B05 ∧ read = false then 1 else ptarget p (itInst w)
  | none => 0

/-- The access target that a command addresses, for its ordering (R364, R381). -/
def cmdTarget (s : State) (op : Nat) (pl : Bytes) : Nat :=
  let w0 := word pl 0
  match op / 256 with
  | 1 => if op = 0x0102 then 3 else 0
  | 2 => if op = 0x0205 then 0 else itTarget (op = 0x0201) (word pl 1)
  | 3 => 1
  | 4 => 2
  | 6 => axTarget (w0 % 128)
  | 7 => if op = 0x0702 then grpTarget s (w0 % 16) else if op = 0x0703 ∧ nbit w0 8 = true then grpTarget s (w0 % 16) else axTarget (w0 % 128)
  | 8 => 8
  | 10 => 4
  | 11 => 11 + w0 % 4
  | 12 => 6
  | 13 => 7
  | 14 => 5
  | _ => 0

/-! ### Ring entries -/

/-- The bytes of a ring entry (R359, R360), payload padded to a multiple of 4 (R358). -/
def entryBytes : RingEntry → Bytes
  | .cpl c =>
    words [1 + 2 * 16 + c.psl * 256, c.payload.length + c.status * 65536,
           b2n c.notAcc + 2 * b2n c.rep + c.tag.toNat * 256 + c.opcode * 65536, c.seq.toNat] ++ pad4 c.payload
  | .evt q e =>
    words [1 + 3 * 16 + q.toNat * 65536, e.payload.length + e.count * 65536, e.inst + e.code * 65536, e.pstamp.toNat] ++ pad4 e.payload

/-- Masters with internal rings, which nothing of the surroundings reads: their entries are taken at once (R357, log 10). -/
def internalMaster (m : Nat) : Bool := m = 0 || m = 9 || 11 ≤ m
/-- Masters of the CAN gateways (R374). -/
def gwMaster (m : Nat) : Bool := 6 ≤ m && m ≤ 8
/-- The completion ring of a master has no free slot (R366, R373). That of a CAN gateway holds the messages that wait for a transmit
session; the debug port takes its entries at once (log 10). -/
def ringFull (s : State) (m : Nat) : Bool :=
  if internalMaster m || m = 10 then false else 128 ≤ (if gwMaster m then (canOf s (m - 6)).gwQ.length else (mbOf s m).ring.length)

/-- Put an entry on the completion ring of a master, or hand it to its transport (R357, R366, R373, R374). -/
def ringPut (s : State) (m : Nat) (x : RingEntry) : State :=
  if internalMaster m then s
  else if m = 10 then (if s.acc.dbgOff then s else { s with hed.jtag := some (entryBytes x) })
  else if gwMaster m then
    gwSend s (m - 6) ((match x with | .cpl _ => (0x02 : Byte) | .evt _ _ => 0x03) :: entryBytes x)
  else
    let s1 := modMb s m (fun mb => { mb with ring := mb.ring ++ [x] })
    if m = 5 then { s1 with qspi.cplHead := s1.qspi.cplHead + 1, qspi.cplMem := tabSet s1.qspi.cplMem (s1.qspi.cplHead.toNat % 128) (entryBytes x) }
    else s1

/-- Deliver the oldest pending event of a master (R367). -/
def evtPut (s : State) (m : Nat) : State :=
  match (mbOf s m).events with
  | [] => s
  | e :: es =>
    if ringFull s m then s
    else ringPut (modMb s m (fun mb => { mb with events := es, eseq := mb.eseq + 1 })) m (.evt (mbOf s m).eseq e)

/-- Deliver up to `n` pending events. -/
def evtFlush (m : Nat) : Nat → State → State
  | 0, s => s
  | n + 1, s => evtFlush m n (evtPut s m)

/-- Remove the flight of a completion that has been written (R363). -/
def retire (c : Cpl) (mb : Mb) : Mb :=
  if c.notAcc || c.rep then mb else { mb with flights := mb.flights.filter (fun f => f.entry.seq != c.seq) }

/-- Deliver every pending event of a master for whom no completion waits (R366). -/
def evtsFirst (s : State) (m : Nat) : State := if (mbOf s m).waiting = [] then evtFlush m 130 s else s
/-- Put a completion on its ring, or let it wait for space (R366). -/
def cplPut (s : State) (m : Nat) (c : Cpl) : State :=
  if (mbOf s m).waiting = [] ∧ ringFull s m = false then ringPut (modMb s m (retire c)) m (.cpl c)
  else modMb s m (fun mb => { mb with waitT := if mb.waiting = [] then s.clk.now else mb.waitT, waiting := mb.waiting ++ [c] })
/-- Write a completion, behind every event raised before it, or let it wait for space (R366). -/
def writeCpl (s : State) (m : Nat) (c : Cpl) : State := cplPut (evtsFirst s m) m c

/-- Write the oldest waiting completion if there is space (R366). -/
def writeWaiting (s : State) (m : Nat) : State :=
  match (mbOf s m).waiting with
  | [] => s
  | c :: cs =>
    if ringFull s m then s
    else
      let s1 := ringPut (modMb s m (fun mb => retire c { mb with waiting := cs, waitT := s.clk.now })) m (.cpl c)
      modMb s1 m (fun mb => { mb with stalled := mb.stalled && !mb.waiting.isEmpty })

/-- A completion with NOTACC = 1 (R361 to R363). -/
def notAcc (s : State) (e : CmdEntry) (op status : Nat) (pl : Bytes) : State :=
  writeCpl (modMb s e.master (fun mb => { mb with notAccCnt := satInc 16 mb.notAccCnt })) e.master
    { seq := e.seq, opcode := op, tag := e.tag, rep := false, notAcc := true, status := status,
      psl := (ps s).toNat % 2 ^ 24, payload := pl }

/-- The journal with a completion, which holds those of the last 256 accepted sequence numbers (R362). -/
def journalPut (sNext : BitVec 32) (c : Cpl) (js : List Cpl) : List Cpl := c :: js.filter (fun x => decide ((sNext - 1 - x.seq).toNat < 256))
/-- A mailbox whose command has its completion: the completion is the latest of the journal (R362). -/
def cplNote (c : Cpl) (mb : Mb) : Mb :=
  { mb with journal := journalPut mb.sNext c mb.journal,
            flights := mb.flights.map (fun g => if g.entry.seq = c.seq then { g with wait := some .done } else g) }
/-- The completion of a command in flight (R359). -/
def cplMake (s : State) (f : Flight) (status : Nat) (pl : Bytes) : Cpl :=
  { seq := f.entry.seq, opcode := f.opcode, tag := f.entry.tag, rep := false, notAcc := false, status := status,
    psl := (ps s).toNat % 2 ^ 24, payload := pl }
/-- The journal item of a completion, for the partner (R478). -/
def cplItem (s : State) (m : Nat) (c : Cpl) : State :=
  if m < 12 then sendItem s (.journal (Fin.ofNat 12 m) c.seq c.opcode c.tag c.status c.psl c.payload) else s
/-- Produce the completion of a command in flight: journalled, mirrored and written (R362, R363, R366). -/
def produce (s : State) (m : Nat) (f : Flight) (status : Nat) (pl : Bytes) : State :=
  let c := cplMake s f status pl
  writeCpl (cplItem (modMb s m (cplNote c)) m c) m c

/-- Complete every command in flight whose wait satisfies a condition, masters and entries in order. -/
def completeWaits (s : State) (p : Wait → Bool) (status : Nat) (pl : Bytes) : State :=
  forEach (List.range 12) (fun t m =>
    forEach ((mbOf t m).flights.filter (fun f => match f.wait with | some w => p w | none => false))
      (fun u f => produce u m f status pl) t) s

/-! ### Acceptance -/

/-- Take an entry into flight (R362, R363). -/
def takeIn (s : State) (e : CmdEntry) (op : Nat) : State :=
  sendItem (modMb s e.master (fun b => { b with sNext := b.sNext + 1, flights := b.flights ++ [{ entry := e, opcode := op, wait := none }] }))
    (.acceptance e op none)
/-- Answer an entry that repeats an accepted one, from the journal (R362). -/
def repeatAns (s : State) (e : CmdEntry) (op : Nat) : State :=
  let m := e.master.val
  match (mbOf s m).journal.find? (fun c => c.seq == e.seq) with
  | some c => writeCpl (modMb s m (fun b => { b with repeatCnt := satInc 16 b.repeatCnt })) m { c with rep := true }
  | none => notAcc s e op 0x1002 (le 4 (mbOf s m).sNext.toNat)
/-- The bits of HST_MASTER_EN that are fixed (R375): 0, 9 and 11 read 1; bit 10 reads 0 once the debug port is disabled. -/
def masterEnFix (s : State) (v : Nat) : Nat :=
  let w := v ||| 0x0A01
  if s.acc.dbgOff ∧ nbit w 10 = true then w - 0x400 else w
/-- Judge a command entry and accept it (R361 to R363). -/
def accept (s : State) (e : CmdEntry) (op : Nat) : State :=
  let m := e.master.val
  let mb := mbOf s m
  let d := (e.seq - mb.sNext).toNat
  if 1008 < e.payload.length then notAcc (modMb s m (fun b => { b with malformed := satInc 32 b.malformed })) e op 0x1006 []
  else if d = 0 then
    if !nbit (masterEnFix s (pnat s 0x0A08 0)) m then notAcc s e op 0x1005 []
    else if pnat s 0x0A09 m ≤ mb.flights.length then notAcc s e op 0x1003 []
    else if mb.flights.any (fun f => f.entry.tag == e.tag) then notAcc s e op 0x1004 []
    else takeIn s e op
  else if 2 ^ 32 - 256 ≤ d then
    if mb.flights.any (fun f => f.entry.seq == e.seq) then s else repeatAns s e op
  else if d ≤ 2 ^ 31 then notAcc s e op 0x1001 (le 4 mb.sNext.toNat)
  else notAcc s e op 0x1002 (le 4 mb.sNext.toNat)

/-! ### Order and turn -/

/-- A command that has completed no longer holds back later ones (R364). -/
def flightOpen (f : Flight) : Bool := f.wait != some .done

/-- Two commands address one target; an opcode that is not listed has none (R364). -/
def sameTarget (s : State) (f g : Flight) : Bool :=
  opcodes.contains f.opcode && opcodes.contains g.opcode && cmdTarget s g.opcode g.entry.payload == cmdTarget s f.opcode f.entry.payload
/-- Whether a command may start behind the earlier ones of its master (R364). -/
def mayStart (s : State) (earlier : List Flight) (f : Flight) : Bool :=
  let before := earlier.filter flightOpen
  if f.entry.fence then before.isEmpty else before.all (fun g => !g.entry.fence && !sameTarget s f g)

/-- The first command of a master in the class that may start. -/
def candIn (s : State) (motion : Bool) : List Flight → List Flight → Option Flight
  | _, [] => none
  | earlier, f :: fs =>
    if f.wait = none ∧ opMotion f.opcode = motion ∧ mayStart s earlier f = true then some f
    else candIn s motion (earlier ++ [f]) fs

/-- The turn of a class: masters in order from the one after the last served (R365). -/
def turnOf (s : State) (motion : Bool) (last : Nat) : Option (Nat × Flight) :=
  ((List.range 12).map (fun i => (last + 1 + i) % 12)).findSome? (fun m => (candIn s motion [] (mbOf s m).flights).map (fun f => (m, f)))

/-- The command the Heddle takes next: the motion class first (R365). -/
def heddlePick (s : State) : Option (Nat × Flight) :=
  match turnOf s true s.hed.lastMotion with
  | some x => some x
  | none => turnOf s false s.hed.lastGeneral

/-- Note the master served in a class (R365). -/
def noteTurn (s : State) (m op : Nat) : State :=
  { s with hed := if opMotion op then { s.hed with lastMotion := m } else { s.hed with lastGeneral := m } }

/-! ### Execution -/

/-- What the execution of a command answers: its completion, or what the completion waits for. -/
inductive CmdRes where
  | fin (status : Nat) (payload : Bytes)
  | wait (w : Wait)
deriving DecidableEq, Repr

/-- The status of the first check that fails (R378). -/
def firstFail : List (Bool × Nat) → Option Nat
  | [] => none
  | (ok, st) :: cs => if ok then firstFail cs else some st

/-- Run a command's effect behind its checks in their order (R378). -/
def checked (s : State) (cs : List (Bool × Nat)) (k : State × CmdRes) : State × CmdRes :=
  match firstFail cs with
  | some st => (s, .fin st [])
  | none => k

/-- The numbers of the items sent since a number. -/
def itemsSince (s : State) (n : BitVec 32) : List (BitVec 32) := (List.range (psDiff s.pair.iseqSent n)).map (fun k => n + BitVec.ofNat 32 (k + 1))

/-- A command in flight waits for something. -/
def flightWait (e : CmdEntry) (w : Wait) (mb : Mb) : Mb :=
  { mb with flights := mb.flights.map (fun g => if g.entry.seq = e.seq then { g with wait := some w } else g) }
/-- A command that waits has produced the items of its effects, or takes effect on the new active controller as it stands (R479): the
others, whose effects are still to come, are executed from the start after a takeover. -/
def waitTold (s : State) (w : Wait) : Bool :=
  match w with
  | .applied _ | .partner _ | .mstab _ | .enable _ | .swap => true
  | .readmit b => !(brOf s b).readmit
  | _ => false
/-- Settle what an execution answered. `n` is the number of the last item sent before it: a command whose effects are produced tells
the partner the numbers of its effect items (R478, R479). -/
def settle (m : Nat) (f : Flight) (n : BitVec 32) (r : State × CmdRes) : State :=
  match r.2 with
  | .fin st pl => produce r.1 m f st pl
  | .wait w =>
    let t := modMb r.1 m (flightWait f.entry w)
    when (waitTold t w) (fun u => sendItem u (.acceptance f.entry f.opcode (some (itemsSince r.1 n)))) t

/-- A command taken by the Heddle: the role check of step 2 of R378, then the opcode's own checks and effect. -/
def execFlight (s : State) (m : Nat) (f : Flight) (body : State → Nat → Bytes → State × CmdRes) : State :=
  let s1 := noteTurn s m f.opcode
  if isStandby s1 && !opStandby f.opcode then produce s1 m f (if f.opcode = 0x0801 then 0xA004 else 0x2006) []
  else settle m f s1.pair.iseqSent (body s1 m f.entry.payload)

/-- The Heddle takes the commands whose opcode is not listed, for as long as such a one has the turn (R364, R365, R378 step 1): each
completes with CMD_UNKNOWN, which may free the next behind a fence. At most `n` of them. -/
def unlistedRun : Nat → State → State
  | 0, s => s
  | n + 1, s =>
    match heddlePick s with
    | some (m, f) => if opcodes.contains f.opcode then s else unlistedRun n (produce (noteTurn s m f.opcode) m f 0x2001 [])
    | none => s
/-- Commands that can be in flight: 12 masters with at most 32 credits. -/
def flightsMax : Nat := 384

/-- The row of a command: its entry is judged and accepted if it has not been, and the command is executed if the Heddle
takes it now; otherwise it waits in flight. No command is taken before READY (R496). Commands of no listed opcode that have the turn are
served first. -/
def command (s : State) (e : CmdEntry) (op : Nat) (body : State → Nat → Bytes → State × CmdRes) : State :=
  if s.boot.ready then
    let s1 := unlistedRun flightsMax (accept s e op)
    match heddlePick s1 with
    | some (m, f) => if m = e.master.val ∧ f.entry = e ∧ f.opcode = op then execFlight s1 m f body else s1
    | none => s1
  else s

/-- A command entry that a transport delivers (R361 to R363). -/
def deliver (s : State) (e : CmdEntry) (op : Nat) : State :=
  let s1 := accept s e op
  if opcodes.contains op then s1 else when s1.boot.ready (unlistedRun flightsMax) s1

/-- What the bytes of a command entry say (R358, R361). -/
inductive Parsed where
  | ok (e : CmdEntry) (op : Nat) (len : Nat)
  | bad (seq : BitVec 32) (tag : BitVec 8) (op : Nat)
  | unreadable

/-- Read one command entry at the start of bytes that end with its slot or datagram (R361). -/
def parseEntry (m : MasterNo) (bs : Bytes) : Parsed :=
  if bs.length < 16 then .unreadable
  else
    let w0 := word bs 0
    let w1 := word bs 1
    let w2 := word bs 2
    let seq : BitVec 32 := BitVec.ofNat 32 (word bs 3)
    let tag : BitVec 8 := BitVec.ofNat 8 (w2 / 256)
    let plen := w1 % 65536
    if w0 ≠ 0x11 ∨ w1 / 65536 ≠ 0 ∨ w2 % 256 / 2 ≠ 0 ∨ 1008 < plen ∨ bs.length < 16 + 4 * cdiv plen 4 then .bad seq tag (w2 / 65536)
    else .ok { master := m, seq := seq, tag := tag, fence := w2 % 2 = 1, payload := (bs.drop 16).take plen } (w2 / 65536) (16 + 4 * cdiv plen 4)

/-- A malformed entry whose SEQ and TAG can be read is answered, any other is discarded and counted (R361). -/
def malformed (s : State) (m : MasterNo) (p : Parsed) : State :=
  let s1 := modMb s m (fun b => { b with malformed := satInc 32 b.malformed })
  match p with
  | .bad seq tag op => notAcc s1 { master := m, seq := seq, tag := tag, fence := false, payload := [] } op 0x1006 []
  | _ => s1

/-- Take one entry's bytes from a transport. -/
def takeEntry (s : State) (m : MasterNo) (bs : Bytes) : State :=
  match parseEntry m bs with
  | .ok e op _ => deliver s e op
  | p => malformed s m p

end Sys2Proof.Machine
end

