-- ==== Sys2Proof/Machine/Access.lean ====
section
/-! DEFINITION. Access tables, key slots, OTP counters and the audit log (R399 to R421), with their commands. -/
namespace Sys2Proof.Machine

/-! ### OTP and audit log -/

/-- Key slot. -/
def keyOf (s : State) (i : Nat) : KeySlot := tabGet {} s.acc.keys i
/-- KEY_STATE of R415: two bits for each slot. -/
def keyStates (acc : Acc) : Nat := nsum ((List.range 8).map (fun i => (tabGet {} acc.keys i : KeySlot).state * 4 ^ i))
/-- OTPSNAP of the counters (R416). -/
def otpSnap (acc : Acc) : Nat :=
  keyStates acc * 65536 + acc.role * 16384 + b2n acc.dbgOff * 8192 + acc.arb * 64 + acc.safUsed
/-- DEV_OTP_STAT (R415). -/
def otpStat (acc : Acc) : Nat :=
  keyStates acc * 2 ^ 48 + b2n acc.dbgOff * 2 ^ 40 + acc.arb * 2 ^ 32 + acc.safUsed * 65536 + acc.role
/-- The key check value (R410). -/
def keyCheck (key : Bytes) : Nat := rdLe (hmac key (ascii "SPN128-C")) 0 4
/-- ACC_KEY_INFO of a slot (R415). -/
def keyInfo (k : KeySlot) : Nat :=
  if k.state = 0 then 0 else keyCheck k.key * 2 ^ 32 + k.master * 256 + k.state

/-- Bytes 0 to 31 of an audit record (R416). -/
def auditHead (r : AuditRec) : Bytes :=
  words [r.aseq, r.obj + r.master * 2 ^ 20 + r.kind * 2 ^ 24, r.snap, r.oldv, r.newv, r.pstamp.toNat] ++ le 8 r.tstamp
/-- The 64 bytes of an audit record (R416). -/
def auditBytes (r : AuditRec) : Bytes := auditHead r ++ r.chain
/-- The chain of the record before ASEQ 0 (R417). -/
def auditGenesis : Bytes := sha256 (ascii "SPN128-A" ++ le 5 Config.csid.toNat)

/-- Append one record to the log (R416, R417). -/
def auditPush (s : State) (obj master kind snap oldv newv : Nat) : Acc :=
  let prev := match s.acc.log with | [] => auditGenesis | r :: _ => r.chain
  let r0 : AuditRec := { aseq := s.acc.nextAseq, obj := obj, master := master, kind := kind, snap := snap, oldv := oldv, newv := newv,
                         pstamp := ps s, tstamp := s.clk.now, chain := [] }
  { s.acc with log := { r0 with chain := sha256 (prev ++ auditHead r0) } :: s.acc.log, nextAseq := s.acc.nextAseq + 1 }

/-- Append a record; a full region first has its oldest 1,024 records erased and a checkpoint appended (R418). -/
def auditAdd (s : State) (obj master kind snap oldv newv : Nat) : State :=
  let s1 : State :=
    if 16384 ≤ s.acc.log.length then
      let kept := s.acc.log.take (s.acc.log.length - 1024)
      let base := match s.acc.log.drop (s.acc.log.length - 1024) with | [] => 0 | r :: _ => r.snap
      let s0 : State := { s with acc := { s.acc with log := kept } }
      { s with acc := auditPush s0 0 0 0x0F base 1024 0 }
    else s
  { s1 with acc := auditPush s1 obj master kind snap oldv newv }

/-- Whether a record kind is an OTP change (R416). -/
def kindOtp (k : Nat) : Bool := 2 ≤ k && k ≤ 7

/-- The snapshot after the OTP records of a list, oldest first, from a base (R419): each key record advances its slot by
one, a role, safety, anti-rollback or debug record moves its own field. -/
def anchorFold (base : Nat) (rs : List AuditRec) : Nat :=
  rs.foldl (fun v r =>
    if r.kind = 2 ∨ r.kind = 3 then v + 65536 * 4 ^ r.obj
    else if r.kind = 4 then v + r.newv * 16384
    else if r.kind = 5 then v + 1
    else if r.kind = 6 then v + (r.newv - r.oldv) * 64
    else if r.kind = 7 then v + 8192 else v) base

/-- The records that count for the anchor: all those kept, oldest first, without the records named by a
record of kind 0x09 (R419); and the base, the counters at the last erased record (R418). -/
def anchorInput (log : List AuditRec) : Nat × List AuditRec :=
  let base := match log.find? (fun r => r.kind == 0x0F) with | some r => r.snap | none => 0
  let skip := (log.filter (fun r => r.kind == 9)).map (·.newv)
  (base, log.reverse.filter (fun r => !skip.contains r.aseq))

/-- Whether the OTP counters equal the base plus the records (R419). -/
def anchorHolds (acc : Acc) : Bool :=
  let i := anchorInput acc.log
  anchorFold i.1 i.2 == otpSnap acc

/-- Raise OTP_LOW when a counter reaches a mark (R415). -/
def otpLow (s : State) (oldv newv mark last : Nat) : State :=
  let s1 := when (oldv < mark && mark ≤ newv) (fun t => raise t 0xB105 noInst []) s
  when (oldv < last && last ≤ newv) (fun t => raise t 0xB105 noInst []) s1

/-! ### Tables -/

/-- Set a rights word (R405). -/
def accSet (s : State) (tgt m : Nat) (w : BitVec 16) : State :=
  { s with acc.words := tabSet s.acc.words (tgt * 16 + m) w,
           acc.counts := tabMod 0 s.acc.counts tgt (fun n => (n + 1) % 2 ^ 32) }

/-- The masters among 1 to 8 and 10 that hold OWN on a target (R406). -/
def owners (s : State) (tgt : Nat) : List Nat :=
  [1, 2, 3, 4, 5, 6, 7, 8, 10].filter (fun m => hasRights s m tgt rOWN)

/-- The words an item carries for a target (R407). -/
def accWords (s : State) (tgt : Nat) : List (BitVec 16) := (List.range 12).map (fun m => rightsOf s m tgt)

/-- The payload of ACC_READ (R405). -/
def accReadPayload (s : State) (tgt : Nat) : Bytes :=
  le 4 (tabGet 0 s.acc.counts tgt) ++ ((accWords s tgt).map (fun w => le 2 w.toNat)).flatten

/-- The execution of ACC_READ (R399, R405). -/
def accReadRun (s : State) (m : Nat) (pl : Bytes) : State × CmdRes :=
  let w0 := word pl 0
  checked s [(pl.length = 4, 0x2002), (onlyBits 0x1F w0, 0x2003), (hasRights s m 4 rREAD, 0x2005)]
    (s, .fin 0 (accReadPayload s (w0 % 32)))

/-- An accepted ACC_WRITE in its order (R407). -/
def accApply (s : State) (io : IoResult) (m tgt mm : Nat) (w : BitVec 16) : State × CmdRes :=
  if io.auditOk then
    let s1 := auditAdd s tgt m 0x01 (otpSnap s.acc) (rightsOf s mm tgt).toNat (w.toNat + mm * 2 ^ 20)
    if io.flashOk then
      let s2 := raise (accSet s1 tgt mm w) 0xB101 noInst ([BitVec.ofNat 8 tgt, BitVec.ofNat 8 mm] ++ le 2 w.toNat)
      let r := sendWait s2 (.access tgt (accWords s2 tgt) (tabGet 0 s2.acc.counts tgt)) false
      match r.2 with
      | some k => (r.1, .wait (.partner k))
      | none => (r.1, .fin 0 [])
    else (s1, .fin 0xB005 [])
  else (s, .fin 0xB005 [])

/-- The execution of ACC_WRITE (R399, R403, R405 to R407). -/
def accWriteRun (io : IoResult) (s : State) (m : Nat) (pl : Bytes) : State × CmdRes :=
  let w0 := word pl 0
  let tgt := w0 % 32
  let mm := w0 / 256 % 16
  let w : BitVec 16 := BitVec.ofNat 16 (w0 / 65536)
  checked s
    [(pl.length = 4, 0x2002), (onlyBits 0x00FF0F1F w0, 0x2003), (mm ≤ 11 && !reservedTarget tgt, 0x2004),
     (hasRights s m tgt rOWN, 0x2005), (mm != 0 && mm != 9 && mm != 11 && !(mm == 10 && s.acc.dbgOff), 0xB002)]
    (if w = rightsOf s mm tgt then (s, .fin 0 [])
     else if nbit w.toNat 6 = false ∧ owners s tgt = [mm] then (s, .fin 0xB001 [])
     else accApply s io m tgt mm w)

/-! ### Key slots -/

/-- The slots live for a master (R409). -/
def liveSlots (s : State) (m : Nat) : List Nat := (List.range 8).filter (fun i => (keyOf s i).state = 1 && (keyOf s i).master = m)
/-- K_m of a master: the key of its live slot (R409). -/
def masterKey (s : State) (m : Nat) : Option Bytes := (liveSlots s m).head?.map (fun i => (keyOf s i).key)
/-- Change a key slot. -/
def modKey (s : State) (i : Nat) (f : KeySlot → KeySlot) : State := { s with acc.keys := tabMod {} s.acc.keys i f }

/-- The OTP cells of one record as another one has them. -/
def otpRise (new acc : Acc) : Acc := { acc with keys := new.keys, role := new.role, safUsed := new.safUsed, arb := new.arb, dbgOff := new.dbgOff }
/-- The programming of the cells has failed: those of the change are blown or not, which is free (R414; log 127). -/
def otpFails (s t : State) : State :=
  { s with freeCtr := s.freeCtr + 1, acc := if Config.freeBool s.freeCtr then otpRise t.acc s.acc else s.acc }
/-- The result of an OTP change whose audit record comes first (R414): the record is appended with the counters as they
will stand, then the cells are programmed and the change is applied. -/
def otpChange (s : State) (io : IoResult) (obj m kind oldv newv : Nat) (apply : State → State) : State × Nat :=
  if io.auditOk then
    let s1 := auditAdd s obj m kind (otpSnap (apply s).acc) oldv newv
    if io.otpOk then (apply s1, 0) else (otpFails s1 (apply s1), 0xB006)
  else (s, 0xB005)

/-- Mirror a key slot; in a pair with the partner in SYNC the command waits for it (R412). -/
def keyMirror (s : State) (i : Nat) (pl : Bytes) : State × CmdRes :=
  let k := keyOf s i
  let r := sendWait s (.key (Fin.ofNat 8 i) k.state k.master k.key) false
  match r.2 with
  | some n => (r.1, .wait (.partner n))
  | none => (r.1, .fin 0 pl)

/-- Whether the partner in SYNC has its slot in another state than a key command expects, which is the partner's matter: a free value
(R412, log 2). -/
def keyPartner (s : State) : State × Bool :=
  if mirroring s && inSync s then ({ s with freeCtr := s.freeCtr + 1 }, Config.freeBool s.freeCtr) else (s, false)

/-- The execution of KEY_PROVISION (R410, R412, R414). -/
def keyProvisionRun (io : IoResult) (s : State) (m : Nat) (pl : Bytes) : State × CmdRes :=
  let w0 := word pl 0
  let i := w0 % 8
  let mm := w0 / 256 % 16
  let key := (pl.drop 4).take 32
  checked s
    [(pl.length = 36, 0x2002), (onlyBits 0x0F07 w0, 0x2003), (mm ≤ 11, 0x2004), (hasRights s m 4 rOWN, 0x2005),
     ((keyOf s i).state = 0 && 1 ≤ mm && mm ≤ 4 && (liveSlots s mm).isEmpty, 0xB003), (m = 5 || m = 10, 0xB004)]
    (let p := keyPartner s
     let r := otpChange p.1 io i m 0x02 0 (keyCheck key) (fun t => modKey t i (fun _ => { state := 1, master := mm, key := key }))
     if p.2 then (p.1, .fin 0xB003 []) else if r.2 = 0 then keyMirror r.1 i (le 4 (keyCheck key)) else (r.1, .fin r.2 []))

/-- The execution of KEY_REVOKE (R411, R412, R414). The open session of the master stays until its timeout, but none of its
datagrams is used any more, because its slot is not live. -/
def keyRevokeRun (io : IoResult) (s : State) (m : Nat) (pl : Bytes) : State × CmdRes :=
  let w0 := word pl 0
  let i := w0 % 8
  let k := keyOf s i
  checked s
    [(pl.length = 4, 0x2002), (onlyBits 0x7 w0, 0x2003), (hasRights s m 4 rOWN, 0x2005), (k.state = 1, 0xB003)]
    (let p := keyPartner s
     let r := otpChange p.1 io i m 0x03 (keyCheck k.key) 0 (fun t => modKey t i (fun x => { x with state := 2 }))
     if p.2 then (p.1, .fin 0xB003 []) else if r.2 = 0 then keyMirror (raise r.1 0xB102 noInst [BitVec.ofNat 8 i, BitVec.ofNat 8 k.master]) i [] else (r.1, .fin r.2 []))

/-- The payload of AUDIT_READ: up to `n` records from an ASEQ on (R420). -/
def auditPayload (s : State) (fromSeq n : Nat) : Bytes :=
  let oldest := match s.acc.log.getLast? with | some r => r.aseq | none => s.acc.nextAseq
  let first := max fromSeq oldest
  let rs := (s.acc.log.reverse.filter (fun r => first ≤ r.aseq)).take n
  words [first, rs.length + 65536 * b2n s.acc.chainOk + 2 ^ 17 * b2n s.acc.anchorOk, 0] ++ (rs.map auditBytes).flatten
/-- The execution of AUDIT_READ (R420). -/
def auditReadRun (s : State) (m : Nat) (pl : Bytes) : State × CmdRes :=
  let n := word pl 1 % 16
  checked s [(pl.length = 8 && 1 ≤ n, 0x2002), (onlyBits 0xF (word pl 1), 0x2003), (hasRights s m 4 rREAD, 0x2005)]
    (s, .fin 0 (auditPayload s (word pl 0) n))

/-- ACC_READ. -/
def execAccRead (e : CmdEntry) (s : State) : Host.Outcome State Fault Refusal := finishD s (command s e 0x0A01 accReadRun)
/-- ACC_WRITE. -/
def execAccWrite (e : CmdEntry) (io : IoResult) (s : State) : Host.Outcome State Fault Refusal :=
  finishD s (command s e 0x0A02 (accWriteRun io))
/-- KEY_PROVISION. -/
def execKeyProvision (e : CmdEntry) (io : IoResult) (s : State) : Host.Outcome State Fault Refusal :=
  finishD s (command s e 0x0A03 (keyProvisionRun io))
/-- KEY_REVOKE. -/
def execKeyRevoke (e : CmdEntry) (io : IoResult) (s : State) : Host.Outcome State Fault Refusal :=
  finishD s (command s e 0x0A04 (keyRevokeRun io))
/-- AUDIT_READ. -/
def execAuditRead (e : CmdEntry) (s : State) : Host.Outcome State Fault Refusal := finishD s (command s e 0x0A05 auditReadRun)

end Sys2Proof.Machine
end

