-- ==== Sys2Proof/Machine/Axis.lean ====
section
/-! DEFINITION. What an axis is (declaration, placement, encoder), when its tasks are due (R26, R51), its states (R204 to
R208) and the fault reactions (R209 to R213). -/
namespace Sys2Proof.Machine

/-! ### Declaration, placement, descriptor -/

/-- Node of an axis (R42). -/
def axNode (s : State) (a : Nat) : Nat := pnat s 0x0101 a
/-- Local axis index (R42). -/
def axLax (s : State) (a : Nat) : Nat := pnat s 0x0102 a
/-- A loop of an axis is declared: 0 current, 1 speed, 2 position (R42). -/
def axLoop (s : State) (a k : Nat) : Bool := nbit (pnat s 0x0103 a) k
/-- Rate code of a loop: 0 current or basic rate, 1 speed, 2 position (R42). -/
def axRate (s : State) (a k : Nat) : Nat := pnat s 0x0104 a / 16 ^ k % 8
/-- The placement record of an axis. -/
def plOf (s : State) (a : Nat) : Option AxisPl := s.warp.place.axes.find? (fun p => p.axis = a)
/-- The axis is placed (R46). -/
def placed (s : State) (a : Nat) : Bool := match plOf s a with | some p => !p.unplaced | none => false
/-- The placement record of a node. -/
def npOf (s : State) (n : Nat) : Option NodePl := s.warp.place.nodes.find? (fun p => p.node = n)
/-- The descriptor entry AXDn of a local axis (R130). -/
def descAx (d : Bytes) (lax : Nat) : Nat := rdLe d (8 + 3 * lax) 3
/-- ENC of an axis, from its node's descriptor (R130, R243). -/
def axEnc (s : State) (a : Nat) : Nat := descAx (ndOf s (axNode s a)).desc (axLax s a) / 256 % 8
/-- NFLAGS of a node's descriptor (R130). -/
def nflags (s : State) (n : Nat) : Nat := rdLe (ndOf s n).desc 0 1
/-- The declared axes of a node, ascending. -/
def nodeAxes (s : State) (n : Nat) : List Nat := (List.range 128).filter (fun a => axClass s a != 0 && axNode s a == n)
/-- Home lane (R64). -/
def axLane (s : State) (a : Nat) : Option Nat := match plOf s a with | some p => if p.unplaced then none else some p.lane | none => none

/-- The pick period T_pwm of a node (R215). -/
def tPwm (s : State) (n : Nat) : Nat :=
  let r := pnat s 0x0400 n
  if r = 1 then 2 * tPick s else if r = 2 then tPick s / 2 else tPick s

/-- A loop of rate code k and phase φ executes in pick i of the bolt (R26). -/
def dueIn (i k ph : Nat) : Bool := i % 2 ^ k = ph % 2 ^ k
/-- The loop `k` of an axis executes in pick i (R26). -/
def loopDue (s : State) (a k i : Nat) : Bool :=
  match plOf s a with
  | some p =>
    if axClass s a ≤ 2 then axLoop s a k && dueIn i (axRate s a k) (if k = 0 then p.phCur else if k = 1 then p.phSpd else p.phPos)
    else k = 0 && dueIn i (axRate s a 0) p.phCur
  | none => false
/-- At least one task of the axis is due in pick i (R51, R168). -/
def axDue (s : State) (a i : Nat) : Bool := placed s a && (loopDue s a 0 i || loopDue s a 1 i || loopDue s a 2 i)

/-- The axis runs a profile (R271). -/
def hasProfile (s : State) (a : Nat) : Bool := axClass s a = 3 || ((axClass s a = 1 || axClass s a = 2) && axLoop s a 2)
/-- The rate code of the profile (R271). -/
def profRate (s : State) (a : Nat) : Nat := if axClass s a = 3 then axRate s a 0 else axRate s a 2
/-- A profile step runs in pick i: the following pick executes the outermost loop (R271). -/
def profDue (s : State) (a i : Nat) : Bool :=
  hasProfile s a && placed s a && loopDue s a (if axClass s a = 3 then 0 else 2) ((i + 1) % 32)
/-- The axis belongs to an interpolation group (R292). -/
def inGroup (s : State) (a : Nat) : Bool := axGroup s a < 16

/-- The safe output group of the axis's node: 255 none (R461). -/
def axSog (s : State) (a : Nat) : Nat := pnat s 0x0920 (axNode s a)
/-- The safe output group of the axis is closed, or it has none, so that nothing puts it into SAFE_OFF (R461). -/
def sogClosedFor (s : State) (a : Nat) : Bool := let g := axSog s a; 4 ≤ g || (sogOf s.dmp g).st = 0

/-- The loops of the axis are closed: ENABLED, MOVING, HOLD or a quick stop (R18, R206; log 12). -/
def axClosed (x : Axis) : Bool :=
  match x.sm.st with
  | .enabled => true | .moving => true | .hold => true
  | .fault => x.sm.react = 1
  | _ => false

/-! ### States -/

/-- STATE of AX_STATE (R204). -/
def axStNat : AxSt → Nat
  | .disabled => 0 | .ready => 1 | .enabled => 2 | .moving => 3 | .hold => 4 | .fault => 5 | .safeOff => 6

/-- Mirror the state of an axis (R478). -/
def axItem (s : State) (a : Nat) : State :=
  let x := axOf s a
  sendItem s (.axisState (Fin.ofNat 128 a) (axStNat x.sm.st) x.sm.react x.sm.fcode x.sm.disCmd)

/-- Note an event raised at most once per bolt. -/
def onceAdd (c : Nat) (sm : AxSm) : AxSm := if sm.once.contains c then sm else { sm with once := c :: sm.once }

/-- The loop state of an axis at an entry to ENABLED (R208). -/
def loopZero (l : AxLoop) : AxLoop :=
  { l with iv := 0, id := 0, iq := 0, ib := 0, bq0 := {}, bq1 := {}, shi := false, slo := false, sd := 0, sq := 0, sb := false,
           vFb := 0, iqRef := 0, vd := 0, vq := 0, vAl := 0, vBe := 0, duty := 0, step := none }

/-- A boost of R238 runs: 64 picks from the pick that started it. -/
def boostOn (s : State) (m : AxMod) : Bool :=
  match m.boost with
  | some p => decide (psDiff (ps s) p < 64)
  | none => false
/-- t_eff (R226). -/
def tEff (s : State) (a : Nat) : Nat := if boostOn s (axOf s a).md then 2 * pnat s 0x0402 a else pnat s 0x0402 a
/-- N_eff (R226). -/
def nEff (s : State) (a : Nat) : Nat := if boostOn s (axOf s a).md then 1 else pnat s 0x0403 a
/-- Start a boost of an axis (R238): KINDLE_BOOST if none runs, counted. A frame that restarts a running boost adds nothing to BOOST_CNT
(DESIGN CHOICE, log 124). -/
def boostStart (s : State) (a : Nat) : State :=
  let was := boostOn s (axOf s a).md
  let s1 := modMd s a (fun m => { m with boost := some (ps s) })
  if was then s1 else raise (modCnt s1 a (fun c => { c with boost := satInc 16 c.boost })) 0x7108 a []

/-- R208 for the loops and the profile: outputs and integrators at 0, pos_ref := pos, v_ref := 0, Q := 2 pos (R291). -/
def loopReset (s : State) (a : Nat) : State :=
  modAx s a (fun x =>
    { x with lp := loopZero x.lp,
             prof := { x.prof with posRef := x.fb.pos, vRef := 0, aRef := 0, q := 2 * x.fb.pos, v := 0, live := true, limStop := false } })

/-- What R208 and R228 do at an entry to ENABLED: the loop reset, the kindling counts at N_eff, and a boost. -/
def enableReset (s : State) (a : Nat) : State :=
  let n := nEff s a
  boostStart (modMd (loopReset s a) a (fun m => { m with cA := n, cB := n, cC := n })) a

/-- End an output override that is in force or due, at a change of the axis's state: a command that still waits for its
start completes with AX_COND, and the loops resume from the state of R208, with the kindling of R228 if the outputs stay
on (R395). -/
def ovrStop (s : State) (a : Nat) (on : Bool) : State :=
  match (axOf s a).md.ovr with
  | none => s
  | some _ =>
    let s1 := completeWaits (modMd s a (fun m => { m with ovr := none })) (fun w => w = .override a) 0x6001 []
    if on then enableReset s1 a else loopReset s1 a

/-- Change the state of an axis (R205): noted for AXIS_STATE (R214), ending an output override (R395), and mirrored. -/
def setSt (s : State) (a : Nat) (st : AxSt) : State :=
  if (axOf s a).sm.st = st then s
  else axItem (ovrStop (modSm s a (fun m => onceAdd 0x610E { m with st := st, changed := true })) a (st = .moving || st = .hold)) a

/-- Discard the queue of an axis, raising MOVE_DISCARD if any entry was held (R289, R291). -/
def queueDrop (s : State) (a : Nat) : State :=
  let p := (axOf s a).prof
  if p.queue = [] then s
  else
    let s1 := modProf s a (fun q => { q with queue := [], act := false })
    let tag := if p.act then (p.queue.head?.map (·.tag)).getD 0 else 0
    sendItem (raise s1 0x9105 a (le 2 p.queue.length ++ le 2 tag)) (.queue (Fin.ofNat 128 a) [] false p.limStop)

/-- Mirror the queue and the path of a group (R478). -/
def grpItem (s : State) (g : Nat) : State :=
  let r := grpOf s g
  sendItem s (.group (Fin.ofNat 16 g) r.queue r.act r.mem r.l r.lead r.shape r.vm r.hold r.qdec)
/-- Discard the group entries of a group (R297, R298). -/
def grpDrop (s : State) (g : Nat) : State :=
  let r := grpOf s g
  if r.queue = [] then s
  else
    let tag := if r.act then (r.queue.head?.map (·.tag)).getD 0 else 0
    raise (grpItem (modGrp s g (fun x => { x with queue := [], act := false })) g) 0x9105 g (le 2 r.queue.length ++ le 2 tag)

/-- A member leaves the path of its group, whose entries are discarded (R291, R297; log 109). -/
def grpLeave (s : State) (a : Nat) : State :=
  if inGroup s a then
    let g := axGroup s a
    when ((grpOf s g).mem.any (fun m => m.1 = a))
      (fun t => grpItem (modGrp t g (fun r => { r with mem := r.mem.filter (fun m => m.1 != a), refs := r.refs.filter (fun m => m.1 != a) })) g) (grpDrop s g)
  else s

/-- Stop the profile: the queue is discarded and the profile idles until the next entry to ENABLED (R291). -/
def profIdle (s : State) (a : Nat) : State :=
  modProf (grpLeave (queueDrop s a) a) a (fun q => { q with live := false, limStop := false, vRef := 0, aRef := 0, v := 0 })

/-- End a homing sequence with a result (R318, R320). -/
def homeEnd (s : State) (a result : Nat) : State :=
  let h := (axOf s a).hm
  if h.phase = 0 then s
  else
    raise (modHm s a (fun x => { x with phase := 0, result := result })) 0x9106 a (le 2 result ++ leS 8 h.cH)

/-- Abort a homing sequence (R320). -/
def homeAbort (s : State) (a : Nat) : State := homeEnd s a 0x9014

/-- The stop of a group path (R297): the smallest scaled deceleration of the given members, at least 1. -/
def grpQdec (s : State) (g : Nat) (ms : List Nat) (dec : Nat → Int) : Int :=
  let r := grpOf s g
  let ds := r.mem.filterMap (fun m => if ms.contains m.1 ∧ m.2.1 ≠ 0 then some (tdiv (dec m.1 * r.l) (iabs m.2.1)) else none)
  imax 1 (ds.foldl imin (ds.headD 1))

/-- Begin the stop of a group path along it (R297, R309). -/
def grpStop (s : State) (g : Nat) (ms : List Nat) (dec : Nat → Int) : State :=
  grpItem (modGrp (grpDrop s g) g (fun r => { r with qdec := some (grpQdec s g ms dec) })) g

/-! ### Fault reactions -/

/-- What QSTOP means for an axis: it acts as OFF without LP_QSTOP_DEC or without a speed loop (R209). -/
def reactFor (s : State) (a r : Nat) : Nat :=
  if r = 1 ∧ (pget s 0x0345 a = 0 ∨ axLoop s a 1 = false ∨ 3 ≤ axClass s a) then 2 else r

/-- The strongest reaction of several faults and its lowest code (R211). -/
def strongest (fs : List (Nat × Nat)) : Nat × Nat :=
  fs.foldl (fun b f => if b.2 < f.2 ∨ (b.2 = f.2 ∧ f.1 < b.1) then f else b) (fs.headD (0, 0))

/-- Freeze the history of an axis after entry to FAULT: the picks still to record (R351). -/
def histFault (s : State) (a : Nat) : State :=
  modHi s a (fun h => if h.frozen || h.left.isSome then h else { h with left := some (pnat s 0x0741 a) })

/-- Enter FAULT, or go from a quick stop to OFF, with a code and a reaction (R205, R209, R211). -/
def enterFault (s : State) (a code r : Nat) : State :=
  let off := if r = 2 ∧ axClosed (axOf s a) = true then some (ps s) else none
  let s1 := modSm s a (fun m => { m with react := r, fcode := code, qsT := ps s, qsRest := none, offPs := off })
  let s2 := homeAbort (setSt s1 a .fault) a
  let s3 := if r = 2 then profIdle s2 a else modProf (queueDrop s2 a) a (fun q => { q with limStop := false })
  axItem (histFault s3 a) a

/-- The effect of the strongest reaction on the state machine of one axis (R205, R211). -/
def react1 (s : State) (a code r : Nat) : State :=
  let m := (axOf s a).sm
  match m.st with
  | .disabled => s
  | .safeOff => if m.fcode = 0 then axItem (modSm s a (fun x => { x with fcode := code })) a else s
  | .fault =>
    if m.react = 1 ∧ r = 2 then
      profIdle (axItem (modSm s a (fun x => { x with react := 2, fcode := if m.qsT = ps s then code else m.fcode, offPs := some (ps s) })) a) a
    else if m.react = r ∧ m.qsT = ps s ∧ code < m.fcode then axItem (modSm s a (fun x => { x with fcode := code })) a
    else s
  | _ => enterFault s a code r

/-- Whether the axis takes QSTOP or OFF now, so that its group stops (R213). -/
def takesStop (s : State) (a r : Nat) : Bool :=
  1 ≤ r && (match (axOf s a).sm.st with | .ready => true | .enabled => true | .moving => true | .hold => true | _ => false)

/-- The other members of the group that take QSTOP with GROUP_STOP (R213). -/
def grpOthers (s : State) (a : Nat) : List Nat :=
  if inGroup s a then (grpMembers s (axGroup s a)).filter (fun b => b != a && ((axOf s b).sm.st = .moving || (axOf s b).sm.st = .hold)) else []

/-- Take the faults of one axis detected together: every fault raises its event, the strongest reaction is taken, and the
group stops, along its path at the deceleration of the members that take QSTOP (R211, R213, R297). In FAULT the event of a code is not raised again (R214). The event of LANE_FAULT is the lane's (R185). -/
def takeFaults (s : State) (a : Nat) (fs : List (Nat × Nat)) : State :=
  if fs = [] then s
  else
    let fs1 := fs.map (fun f => (f.1, reactFor s a f.2))
    let m := (axOf s a).sm
    let new := fs1.filter (fun f => f.1 != 0x4104 && !(m.st = .fault && m.faults.contains f.1))
    let s0 := forEach new (fun t f => raise t f.1 a []) s
    let cs := fs1.map (·.1)
    let s1 := modSm s0 a (fun x => { x with faults := if m.st = .fault then x.faults ++ cs.filter (fun c => !x.faults.contains c) else cs })
    let b := strongest fs1
    if b.2 = 0 then s1
    else
      let others := if takesStop s1 a b.2 then grpOthers s1 a else []
      let s2 := react1 s1 a b.1 b.2
      let s3 := forEach others (fun t o => react1 (modSm (raise t 0x610C o []) o (fun x => { x with faults := [0x610C] })) o 0x610C (reactFor t o 1)) s2
      if inGroup s a ∧ takesStop s1 a b.2 = true then
        grpStop s3 (axGroup s a) ((if b.2 = 1 then [a] else []) ++ others.filter (fun o => reactFor s o 1 = 1)) (fun i => pget s 0x0345 i)
      else s3

/-! ### Entry to ENABLED and to DISABLED -/

/-- Enter ENABLED from READY; the enable command completes (R205, R394). -/
def enterEnabled (s : State) (a : Nat) : State :=
  completeWaits (setSt (modMd (enableReset (modSm s a (fun m => { m with enaDue := false })) a) a (fun m => { m with body := .none })) a .enabled) (fun w => w = .enable a) 0 []

/-- The conditions of an enable command in READY (R205, R201, R233, R461): a group, which is closed, FCODE 0, not measure, the node's writes
done, and for a stepper without encoder LP_STP_K of one microstep for a count. -/
def enaCond (s : State) (a : Nat) : Bool :=
  axSog s a < 4 && sogClosedFor s a && (axOf s a).sm.fcode = 0 && axClass s a != 4 &&
    !(axClass s a = 3 && axEnc s a = 0 && pget s 0x0338 a != 0x10000)

/-- Enter DISABLED: what every way to it does to the profile, the homing sequence and a waiting enable. The first decode after DISABLED
takes a baseline: at once unless DIS_CMD holds the axis (R205, R250). -/
def enterDisabled (s : State) (a : Nat) : State :=
  let s1 := profIdle (homeAbort (setSt s a .disabled) a) a
  let s2 := modAx s1 a (fun x => { x with sm := { x.sm with enaDue := false, react := 0 }, fb := { x.fb with valid := x.fb.valid && x.sm.disCmd, rebase := false } })
  axItem (completeWaits s2 (fun w => w = .enable a) 0x6001 []) a

/-- An axis becomes unplaced (R205). -/
def axUnplace (s : State) (a : Nat) : State :=
  enterDisabled (modSm s a (fun m => { m with disCmd := false, fcode := 0, react := 0 })) a

/-- The axis's safe output group opens (R205, R207). A measure axis takes no SAFE_OFF (R202). -/
def axSafeOff (s : State) (a : Nat) : State :=
  if axClass s a = 4 then s
  else match (axOf s a).sm.st with
  | .disabled => s
  | .safeOff => s
  | _ => axItem (modSm (profIdle (homeAbort (setSt s a .safeOff) a) a) a (fun m => { m with react := 2 })) a

/-- The axis's safe output group closes (R205). -/
def axSafeOn (s : State) (a : Nat) : State :=
  if (axOf s a).sm.st = .safeOff then
    if (axOf s a).sm.fcode = 0 then axItem (setSt (modSm s a (fun m => { m with react := 0 })) a .ready) a
    else histFault (setSt s a .fault) a
  else s

end Sys2Proof.Machine
end

