-- ==== Sys2Proof/Machine/Feedback.lean ====
section
/-! DEFINITION. The feedback decode of an axis (R247 to R263), the sampling of its switch inputs (R303, R304), its echo
outputs (R264, R265) and its status words (R269, R323). -/
namespace Sys2Proof.Machine

/-! ### Parts of the decode -/

/-- The Hall sector of a HALL code; none is invalid (R254). -/
def hallSector (c : Nat) : Option Nat :=
  if c = 1 then some 0 else if c = 3 then some 1 else if c = 2 then some 2 else if c = 6 then some 3
  else if c = 4 then some 4 else if c = 5 then some 5 else none

/-- Gray to binary (R249), for values below 2^32. -/
def grayBin (w : Nat) : Nat :=
  let a := w ^^^ (w / 2)
  let b := a ^^^ (a / 4)
  let c := b ^^^ (b / 16)
  let d := c ^^^ (c / 256)
  d ^^^ (d / 65536)

/-- The count of an incremental or Hall channel after FB_DIR (R248). -/
def cnt16 (dir cnt : Nat) : Nat := if dir = 1 then (65536 - cnt) % 65536 else cnt
/-- The difference of two counts of n bits, centred (R248, R249). -/
def cntDiff (n : Nat) (w prev : Nat) : Int :=
  tmod ((w : Int) - prev + (3 * 2 ^ (n - 1) : Nat)) (2 ^ n : Nat) - (2 ^ (n - 1) : Nat)
/-- The value w of an absolute read (R249). -/
def absVal (n code dir : Nat) (raw : RawIn) : Nat :=
  let w := (raw.cnt + raw.edge % 16384 * 65536) % 2 ^ n
  let b := if code = 1 then grayBin w % 2 ^ n else w
  if dir = 1 then (2 ^ n - b) % 2 ^ n else b
/-- The value congruent to r modulo m nearest to c. -/
def nearest (m : Nat) (r : Int) (c : Int) : Int := c + (nmod (r - c + (m / 2 : Nat)) m : Int) - (m / 2 : Nat)

/-- The count estimate v_cnt from the earlier decodes, latest first (R260). -/
def vCnt (m : Nat) (hist : List (Int × BitVec 32)) (c : Int) (p : BitVec 32) : Int :=
  match hist[2 ^ m - 1]? with
  | some h => sat32 (tdiv ((c - h.1) * 65536) (psDiff p h.2))
  | none =>
    match hist.getLast? with
    | some h => sat32 (tdiv ((c - h.1) * 65536) (psDiff p h.2))
    | none => 0

/-- The period estimator after a decode (R261): its reference, none while ref is false, and v_per. `d` is the count step, `age` the
valid AGE in time units with half its unit added, none when the index took the field or AGE is not valid. -/
def perStep (tPickU : Nat) (ts : Int) (d c : Int) (age : Option Int) (edge : Option (Int × Int)) (vPer : Int) :
    Option (Int × Int) × Int :=
  if d ≠ 0 then
    match age with
    | some ag =>
      let t := ts - ag
      match edge with
      | some (ce, te) =>
        if t ≤ te then (edge, vPer) else (some (c, t), sat32 (tdiv ((c - ce) * 65536 * (tPickU : Int)) (t - te)))
      | none => (some (c, t), vPer)
    | none => (none, vPer)
  else
    match edge with
    | some (_, te) =>
      let b := sat32 (tdiv (65536 * (tPickU : Int)) (ts - te))
      (edge, if b < iabs vPer then sgn vPer * b else vPer)
    | none => (edge, vPer)

/-- The valid AGE of an edge channel in time units, with half a unit (R245, R261). -/
def ageOf (enc : Nat) (edge : Nat) : Option Int :=
  if enc = 1 then (if edge / 32768 = 1 ∨ edge % 32768 = 0x7FFF then none else some ((edge % 32768 * 32 + 16 : Nat) : Int))
  else (if edge % 8192 = 0x1FFF then none else some ((edge % 8192 * 256 + 128 : Nat) : Int))

/-- What a decode answers: the new record, the events to raise with their payloads, the faults, the index report, whether a decode was
made and whether it is the first one of R250, the index correction it applied (R258), the turns it removed (R252), and for a baseline of an
axis that had one before, the offset it took against a count that went on (R250). -/
structure DecOut where
  fb : AxFb
  evs : List (Nat × Bytes) := []
  faults : List (Nat × Nat) := []
  idx : Option Int := none
  done : Bool := true
  first : Bool := false
  corr : Int := 0
  turns : Int := 0
  base : Option Int := none
deriving DecidableEq, Repr

/-- Shift every count held by an offset (R260). -/
def fbShift (f : AxFb) (dc : Int) : AxFb :=
  { f with cExt := wrapS 64 (f.cExt + dc), hist := f.hist.map (fun h => (h.1 + dc, h.2)), edge := f.edge.map (fun e => (e.1 + dc, e.2)) }
/-- Shift the counts and the position by an offset in counts (R252, R318, R477). -/
def fbMove (f : AxFb) (dc : Int) : AxFb := { fbShift f dc with pos := wrapS 64 (f.pos + dc * 65536) }
/-- The item of the feedback offsets of an axis (kind 0x03 of R478): `dc` is the offset its c_ext took. -/
def offsBody (a : Nat) (k : OfsKind) (f : AxFb) (dc : Int) : ItemBody :=
  .feedbackOfs (Fin.ofNat 128 a) k dc f.kTot (if f.idxPh then some f.ph else none) f.refd f.idxMiss f.homeOfs

/-- A baseline decode (R250). -/
def fbBaseline (s : State) (a enc : Nat) (raw : RawIn) (f : AxFb) : AxFb :=
  let n := pnat s 0x050D a
  let w := absVal n (pnat s 0x050E a) (pnat s 0x0502 a) raw
  let c16 := cnt16 (pnat s 0x0502 a) raw.cnt
  let again := f.valid
  let c : Int :=
    if 3 ≤ enc then (if again then nearest (2 ^ n) (w + f.homeOfs) f.cExt else (w : Int) + f.homeOfs)
    else if again then f.cExt else 0
  { f with valid := true, rebase := false, cExt := c, prev := if 3 ≤ enc then w else c16, pos := wrapS 64 (shl c 16), vAct := 0,
           refd := if 3 ≤ enc then (if again then f.refd else true) else false, idxPh := false, idxMiss := 0,
           hist := [(c, ps s)], edge := none, vPer := 0, vmode := false, still := false, chgPs := ps s, lastPs := ps s,
           qPrev := raw.inp.toNat / 256, hallO := match hallSector (raw.edge / 8192) with | some h => nmod ((h : Int) - c) 6 | none => 0,
           hallBad := 0, absBad := 0, sector := hallSector (raw.edge / 8192) }

/-- A baseline can be taken from this channel (R250). -/
def baseOk (enc : Nat) (raw : RawIn) : Bool :=
  if 3 ≤ enc then raw.edge / 32768 = 0 else if enc = 2 then (hallSector (raw.edge / 8192)).isSome else true

/-- Step 3 of R247: the index of an incremental axis (R256 to R258). `check` is false during homing to an index, which suspends R258
alone (R313), and on a standby. -/
def fbIndex (s : State) (a : Nat) (check : Bool) (before : Int) (raw : RawIn) (f : AxFb) : AxFb × List (Nat × Bytes) × List (Nat × Nat) × Option Int :=
  if raw.edge / 32768 = 0 then (f, [], [], none)
  else
    let icnt : Nat := if pnat s 0x0502 a = 1 then (32768 - raw.edge % 32768) % 32768 else raw.edge % 32768
    let ci := nearest 32768 icnt (tdiv (before + f.cExt) 2)
    let mode := pnat s 0x0505 a
    if mode % 4 = 0 then (f, [], [], some ci)
    else if !f.idxPh then ({ f with idxPh := true, ph := ci }, [], [], some ci)
    else if check = false then (f, [], [], some ci)
    else
      let p : Nat := if pnat s 0x0507 a ≠ 0 then pnat s 0x0507 a else if pnat s 0x0500 a = 0 then 0 else pnat s 0x0501 a
      let dev : Int :=
        if p = 0 then ci - f.ph
        else let r : Int := nmod (ci - f.ph) p; if ((p + 1) / 2 : Nat) ≤ r then r - p else r
      if iabs dev ≤ pget s 0x0506 a then
        if mode % 4 = 2 ∧ dev ≠ 0 then
          ({ fbShift f (-dev) with idxMiss := 0, idxCorr := wrapS 8 dev }, [(0x8102, leS 4 dev)], [], some ci)
        else ({ f with idxMiss := 0 }, [], [], some ci)
      else
        let m := min (f.idxMiss + 1) 3
        ({ f with idxMiss := m }, [(0x8101, leS 4 dev)], if m = 3 ∧ mode / 4 % 2 = 0 then [(0x610A, 1)] else [], some ci)

/-- Step 5 of R247: the turns K that a rotary axis removes at pick 0 of a bolt (R252). A standby takes them as an item (R475). -/
def fbTurnsOut (s : State) (a : Nat) (pos : Int) : Int :=
  if pnat s 0x0500 a = 1 ∧ psPick (ps s) = 0 ∧ (2 ^ 61 : Int) ≤ iabs pos ∧ parsesOnly s = false then fdiv pos (pget s 0x0501 a * 65536) else 0
/-- The record of an axis that removes K turns (R252); the index phase moves with the count, so that c_idx − ph stays. -/
def fbTurn (s : State) (a : Nat) (k : Int) (f : AxFb) : AxFb :=
  if k = 0 then f else { fbMove f (-(k * pget s 0x0501 a)) with kTot := wrapS 32 (f.kTot + k), ph := f.ph - k * pget s 0x0501 a }
/-- TURN_REBASE (R252). -/
def turnEv (k : Int) : List (Nat × Bytes) := if k = 0 then [] else [(0x8106, [])]

/-- Step 8 of R247: the soft-limit flags, which a rotary axis does not have (R251, R253). -/
def fbLimits (s : State) (a : Nat) (f : AxFb) : AxFb × List (Nat × Bytes) :=
  if pnat s 0x0500 a = 1 then ({ f with slimP := false, slimN := false }, [])
  else
    let p := decide (pget s 0x0503 a < f.pos)
    let n := decide (f.pos < pget s 0x0504 a)
    ({ f with slimP := p, slimN := n }, if (p || n) && !(f.slimP || f.slimN) then [(0x8103, [])] else [])

/-- The end of every decode: step 8 of R247, and the range check of R252 in linear and hybrid mode. -/
def fbEnd (s : State) (a : Nat) (o : DecOut) : DecOut :=
  let l := fbLimits s a o.fb
  { o with fb := l.1, evs := o.evs ++ l.2,
           faults := o.faults ++ if pnat s 0x0500 a ≠ 1 ∧ (2 ^ 62 : Int) ≤ iabs l.1.pos then [(0x6111, 2)] else [] }

/-- A decode of an absolute axis whose read failed (R255). -/
def fbReadErr (s : State) (a : Nat) (evs : List (Nat × Bytes)) (f : AxFb) : DecOut :=
  let f1 := { f with pos := wrapS 64 (f.pos + f.vAct * (psDiff (ps s) f.lastPs : Int)), lastPs := ps s, absBad := min (f.absBad + 1) 3 }
  let k := fbTurnsOut s a f1.pos
  fbEnd s a { fb := fbTurn s a k f1, evs := evs ++ turnEv k, faults := if f.absBad = 2 then [(0x6110, 2)] else [], turns := k }

/-- Steps 6 and 7 of R247, for a decode that extended the count by `d` to `c` before any index correction `corr`; a rebase of the
same decode is in both counts. -/
def fbSpeed (s : State) (a enc : Nat) (raw : RawIn) (d c corr : Int) (f : AxFb) : AxFb :=
  let p := ps s
  let v1 := vCnt (pnat s 0x0509 a) (f.hist.map (fun h => (h.1 - corr, h.2))) c p
  let ts : Int := (s.clk.pickT0 + 160 : Nat)
  let e0 := f.edge.map (fun e => (e.1 - corr, e.2))
  let pr := if 3 ≤ enc then (none, 0) else perStep (tPick s) ts d c (ageOf enc raw.edge) e0 f.vPer
  let mode := if 3 ≤ enc then false
    else if f.vmode then !(decide (pget s 0x050B a < iabs pr.2)) else decide (iabs v1 < pget s 0x050A a) && pr.1.isSome
  let chg := if d ≠ 0 then p else f.chgPs
  let still := decide (pnat s 0x050C a ≤ psDiff p chg)
  let v := if still then 0 else if mode then pr.2 else v1
  { f with hist := ((c, p) :: f.hist.map (fun h => (h.1 - corr, h.2))).take 8 |>.map (fun h => (h.1 + corr, h.2)),
           edge := pr.1.map (fun e => (e.1 + corr, e.2)), vPer := pr.2, vmode := mode, still := still, chgPs := chg, lastPs := p,
           vAct := v, pos := wrapS 64 (if 3 ≤ enc then shl f.cExt 16 + v else shl f.cExt 16) }

/-- ABS_WARN of a decode (R245, R255). -/
def warnEv (enc : Nat) (raw : RawIn) : List (Nat × Bytes) := if 3 ≤ enc ∧ raw.edge / 16384 % 2 = 1 then [(0x8104, [])] else []

/-- The decode of an axis with an encoder, baseline taken (R247). Step 5 takes pos as it stands there: step 1 has set it for a counting
encoder, and that of an absolute one is the earlier decode's (R248, R249). -/
def fbDecode (s : State) (a enc : Nat) (check : Bool) (raw : RawIn) (f : AxFb) : DecOut :=
  if 3 ≤ enc ∧ raw.edge / 32768 = 1 then fbReadErr s a (warnEv enc raw) f
  else
    let n := pnat s 0x050D a
    let w := if 3 ≤ enc then absVal n (pnat s 0x050E a) (pnat s 0x0502 a) raw else cnt16 (pnat s 0x0502 a) raw.cnt
    let sec := if enc = 2 then hallSector (raw.edge / 8192) else none
    let d : Int := if enc = 2 ∧ sec = none then 0 else cntDiff (if 3 ≤ enc then n else 16) w f.prev
    let c := wrapS 64 (f.cExt + d)
    let f1 := { f with cExt := c, prev := if enc = 2 ∧ sec = none then f.prev else w, absBad := 0, sector := sec,
                       hallBad := if enc = 2 ∧ sec = none then min (f.hallBad + 1) 3 else 0 }
    let hallF : List (Nat × Nat) :=
      match enc, sec with
      | 2, some h => if nmod ((h : Int) - c) 6 = f.hallO then [] else [(0x610F, 2)]
      | 2, none => if f.hallBad = 2 then [(0x610F, 2)] else []
      | _, _ => []
    let ix := if enc = 1 then fbIndex s a check f.cExt raw f1 else (f1, [], [], none)
    let corr := ix.1.cExt - c
    let qd := if enc = 1 then (raw.inp.toNat / 256 + 256 - f.qPrev) % 256 else 0
    let f2 := { ix.1 with qNow := f.qNow + qd, qPrev := raw.inp.toNat / 256 }
    let qF : List (Nat × Nat) := if enc = 1 ∧ pnat s 0x0508 a < f2.qNow then [(0x6109, 1)] else []
    let k := fbTurnsOut s a (if 3 ≤ enc then f2.pos else wrapS 64 (shl c 16))
    let f3 := fbSpeed s a enc raw d (if k = 0 then c else c - k * pget s 0x0501 a) corr (fbTurn s a k f2)
    fbEnd s a { fb := f3, evs := warnEv enc raw ++ ix.2.1 ++ turnEv k, faults := hallF ++ ix.2.2.1 ++ qF, idx := ix.2.2.2.map (· - k * pget s 0x0501 a),
                corr := corr, turns := k }

/-- The offset of a baseline decode that gave c_ext = `c`, against the count of R248 or R249 that goes on over the gap (R250). -/
def baseOfs (s : State) (a enc : Nat) (raw : RawIn) (old : AxFb) (c : Int) : Int :=
  let n := if 3 ≤ enc then pnat s 0x050D a else 16
  let w := if 3 ≤ enc then absVal n (pnat s 0x050E a) (pnat s 0x0502 a) raw else cnt16 (pnat s 0x0502 a) raw.cnt
  c - (old.cExt + cntDiff n w old.prev)

/-- The axis is about to leave DISABLED: its decode takes the first baseline (R205, R250). -/
def fbFirst (s : State) (x : Axis) : Bool := !x.fb.valid || (x.sm.st == .disabled && !x.sm.disCmd && !parsesOnly s)

/-- The feedback decode of an axis (R247), with the baseline of R250 first; while one waits for a valid Hall code, the commutation has no
sector (R254). A stepper without an encoder takes pos from
pos_ref (R201). -/
def fbRun (s : State) (a : Nat) (check : Bool) (raw : RawIn) : DecOut :=
  let x := axOf s a
  let enc := axEnc s a
  if enc = 0 then
    let f := { x.fb with valid := true, pos := x.prof.posRef, lastPs := ps s }
    let k := fbTurnsOut s a f.pos
    let g := if k = 0 then f else { f with pos := f.pos - k * pget s 0x0501 a * 65536, kTot := wrapS 32 (f.kTot + k) }
    fbEnd s a { fb := g, evs := turnEv k, first := !x.fb.valid, turns := k }
  else if fbFirst s x ∨ x.fb.rebase = true then
    if baseOk enc raw then
      let f := fbBaseline s a enc raw { x.fb with valid := x.fb.valid && !fbFirst s x }
      let k := fbTurnsOut s a f.pos
      fbEnd s a { fb := fbTurn s a k f, evs := warnEv enc raw ++ turnEv k, first := fbFirst s x, turns := k,
                  base := if x.fb.valid then some (baseOfs s a enc raw x.fb f.cExt) else none }
    else { fb := { x.fb with valid := x.fb.valid && !fbFirst s x, sector := none }, done := false }
  else fbDecode s a enc check raw x.fb

/-- Every position of one member that a group record holds moves by the PU removed (R252, R291). -/
def grpShift (a : Nat) (d : Int) (g : Grp) : Grp :=
  let f := fun (m : Nat × Int × Int) => if m.1 = a then (m.1, m.2.1 - d, m.2.2 - d) else m
  { g with queue := g.queue.map (fun e => { e with mem := e.mem.map f }),
           mem := g.mem.map (fun m => if m.1 = a then (m.1, m.2.1, m.2.2 - d) else m),
           refs := g.refs.map (fun m => if m.1 = a then (m.1, m.2.1 - d, m.2.2) else m) }

/-- Move the profile state and the queue of an axis by -d PU (R252). -/
def profShift (d : Int) (p : AxProf) : AxProf :=
  let mv := fun (e : MoveEntry) => if e.kind = 3 then e else { e with target := e.target - d, base := e.base.map (· - d) }
  { p with posRef := p.posRef - d, q := p.q - 2 * d, qAct := p.qAct - 2 * d, queue := p.queue.map mv }

/-- Shift every count that a homing record holds (R252, R313). -/
def hmShift (d : Int) (h : AxHome) : AxHome :=
  { h with leg0 := h.leg0 - d, cHome := h.cHome - d, cH := h.cH - d, idx := h.idx.map (fun i => (i.1 - d, i.2)) }
/-- Shift every count that the switch inputs hold (R252, R304). -/
def inShift (d : Int) (x : AxIn) : AxIn :=
  let b := fun (y : Deb) => { y with runC := y.runC - d, cEdge := y.cEdge - d }
  { x with limP := b x.limP, limN := b x.limN, home := b x.home }

/-- What a rebase by K turns moves beside the feedback record (R252): pos_ref, Q and every position of the queue, of the group's too, the
counts of a homing sequence and of the switch inputs, and the item that mirrors it. -/
def turnRebase (s : State) (a : Nat) (k : Int) : State :=
  if k = 0 then s
  else
    let dc := k * pget s 0x0501 a
    let s0 := modAx s a (fun y => { y with prof := profShift (dc * 65536) y.prof, inp := inShift dc y.inp })
    let s1 := when ((axOf s0 a).hm.phase != 0) (fun t => modHm t a (hmShift dc)) s0
    let s2 := if inGroup s a then grpItem (modGrp s1 (axGroup s a) (grpShift a (dc * 65536))) (axGroup s a) else s1
    sendItem s2 (offsBody a .turn (axOf s2 a).fb (-dc))

/-- The item for a decode that took a new baseline, changed REFD, the index phase or IDX_MISS, or corrected c_ext (R250, R257, R258,
R478); a rebase of the same decode follows as an item of its own. -/
def decItem (s : State) (a : Nat) (f : AxFb) (o : DecOut) : State :=
  let g := { o.fb with kTot := f.kTot, ph := o.fb.ph + o.turns * pget s 0x0501 a }
  let k : OfsKind := if o.base.isSome then .baseline else if o.corr = 0 then .flags else .correction
  when (o.base.isSome || o.corr != 0 || f.idxPh != g.idxPh || f.ph != g.ph || f.refd != g.refd || f.idxMiss != g.idxMiss)
    (fun t => sendItem t (offsBody a k g (o.base.getD o.corr))) s

/-! ### Switch inputs -/

/-- Active or inactive by FB_IN_CFG: bit i enables, bit i + 4 makes active low (R303). -/
def swActive (cfg i : Nat) (lvl : Bool) : Bool := nbit cfg i && (lvl != nbit cfg (i + 4))

/-- One sample of a switch input (R303, R304). -/
def debSample (c : Int) (lvl : Bool) (d : Deb) : Deb :=
  if !d.init then { d with init := true, lvl := lvl, run := 0 }
  else if lvl = d.lvl then { d with run := 0 }
  else { d with run := min (d.run + 1) 31, runC := if d.run = 0 then c else d.runC }

/-- The levels, runs and chatter windows restart from the next sample, and the chatter flag clears (R322). -/
def debRestart (d : Deb) : Deb := { d with init := false, run := 0, chg := [], chat := false }

/-- The samples of the three inputs of a decode pick; the first decode of R250 sets the levels (R303). A decode that
waits for a new baseline is a sample too. -/
def inSample (s : State) (a : Nat) (first : Bool) (c : Int) (inp : BitVec 16) (x : AxIn) : AxIn :=
  let cfg := pnat s 0x0540 a
  let b := fun i (d : Deb) => debSample c (swActive cfg i (inp.toNat.testBit i)) { d with init := d.init && !first }
  { x with limP := b 0 x.limP, limN := b 1 x.limN, home := b 2 x.home }

/-- The record after a debounced change (R303, R304, R306). -/
def debChange (p : BitVec 32) (d : Deb) : Deb :=
  let ch := p :: d.chg.filter (fun q => decide (psDiff p q < 32))
  { d with lvl := !d.lvl, run := 0, cEdge := d.runC, chg := ch, lastChg := p, chat := d.chat || decide (6 ≤ ch.length) }

/-- FB_DEB consecutive samples show the other level (R303). -/
def debReady (s : State) (a : Nat) (d : Deb) : Bool := d.init && decide (pnat s 0x0541 a ≤ d.run)
/-- The record with the change that the samples so far complete: DEBOUNCED_CHANGE takes it in the same pick. -/
def debNow (s : State) (a : Nat) (d : Deb) : Deb := if debReady s a d then debChange (ps s) d else d

/-- The effective level of a limit (R306). -/
def limEff (d : Deb) : Bool := d.chat || d.lvl
/-- The record of LIMIT_BOTH: set while both limits are effectively active, and until both have been inactive (R310). -/
def limLatch (x : AxIn) : AxIn := { x with both := (limEff x.limP && limEff x.limN) || (x.both && (limEff x.limP || limEff x.limN)) }
/-- The limit that guards a direction (R305). -/
def limToward (x : AxIn) (dir : Int) : Bool := if 0 < dir then limEff x.limP else if dir < 0 then limEff x.limN else false
/-- The limit that guards a direction, as a loop sees it after the decode of its pick (R303, R309). -/
def limTowardNow (s : State) (a : Nat) (x : AxIn) (dir : Int) : Bool :=
  limToward { x with limP := debNow s a x.limP, limN := debNow s a x.limN } dir

/-! ### Status words -/

/-- The angle of R252. -/
def fbAngle (s : State) (a : Nat) : Nat :=
  if pnat s 0x0500 a = 0 then 0 else nmod (axOf s a).fb.pos (pnat s 0x0501 a * 65536)
/-- FB_TURNS (R252). -/
def fbTurns (s : State) (a : Nat) : Int :=
  if pnat s 0x0500 a = 0 then 0 else wrapS 32 (fdiv (axOf s a).fb.pos (pget s 0x0501 a * 65536) + (axOf s a).fb.kTot)
/-- FB_STATUS (R269). -/
def fbStatus (f : AxFb) : Nat :=
  min f.qBolt 255 * 2 ^ 24 + wrapU 8 f.idxCorr * 65536 + b2n f.slimN * 128 + b2n f.slimP * 64 + f.idxMiss * 16 + b2n f.idxPh * 8 +
    b2n f.vmode * 4 + b2n f.still * 2 + b2n f.refd
/-- FB_IN_STATUS (R323). -/
def inStatus (x : Axis) : Nat :=
  x.hm.result * 65536 + x.hm.phase * 4096 + b2n x.inp.home.chat * 64 + b2n x.inp.limN.chat * 32 + b2n x.inp.limP.chat * 16 +
    b2n x.inp.home.lvl * 4 + b2n (limEff x.inp.limN) * 2 + b2n (limEff x.inp.limP)
/-- AX_STATE (R204). -/
def axState (m : AxSm) : Nat := m.fcode * 65536 + m.react * 256 + b2n m.disCmd * 8 + axStNat m.st

/-! ### Echo outputs -/

/-- The accumulation of R264 from a position change. Answers the record and the counts dropped. -/
def echoAcc (p q : Nat) (inv : Bool) (dp : Int) (e : Echo) : Echo × Nat :=
  let acc := e.acc + dp * p
  let den : Int := (q * 65536 : Nat)
  let k := tdiv acc den
  let bl := e.bl + (if inv then -k else k)
  let b2 := clamp (-65535) 65535 bl
  ({ e with acc := acc - k * den, bl := b2 }, (iabs (bl - b2)).toNat)

/-- The steps of the pick that starts (R265). -/
def echoSteps (tp : Nat) (e : Echo) : Echo :=
  let n := min (iabs e.bl).toNat (tp / 40)
  { e with left := n, dir := if e.bl < 0 then -1 else 1, bl := e.bl - sgn e.bl * n }

/-- One step of an output (R265). -/
def echoStep1 (e : Echo) : Echo := if e.left = 0 then e else { e with left := e.left - 1, o := wrapS 32 (e.o + e.dir), moved := true }

/-- Levels A, B of an output count (R265). -/
def echoAB (o : Int) : Bool × Bool :=
  let r := nmod o 4
  (r = 1 || r = 2, r = 2 || r = 3)
/-- Level Z (R265). -/
def echoZ (zper : Nat) (o : Int) : Bool := zper != 0 && nmod o zper = 0

end Sys2Proof.Machine
end

