-- ==== Sys2Proof/Machine/Profile.lean ====
section
/-! DEFINITION. The profile generator (R271 to R291): shapes, the positional and the velocity step, and the queue of one
axis. -/
namespace Sys2Proof.Machine

/-! ### Shapes (R273) -/

/-- A shape after the replacements of R273. -/
structure Shape where
  vstart : Int
  vstop : Int
  vb : Int
  a1 : Int
  a2 : Int
  d1 : Int
  d2 : Int
  vmax : Int
deriving DecidableEq, Repr

/-- Replace a zero by the other value (R273). -/
def orElseZ (x y : Int) : Int := if x = 0 then y else x
/-- A shape from PRF_VSTART, VSTOP, VBREAK, A1, A2, D1, D2, VMAX (R273). -/
def mkShape (xs : List Int) : Shape :=
  let g := fun i => xs.getD i 0
  { vstart := g 0, vstop := g 1, vb := g 2, a1 := orElseZ (g 3) (g 4), a2 := orElseZ (g 4) (g 3),
    d1 := orElseZ (g 5) (g 6), d2 := orElseZ (g 6) (g 5), vmax := g 7 }
/-- The eight shape parameters of an axis in force. -/
def shapeList (s : State) (a : Nat) : List Int := (List.range 8).map (fun i => pget s (0x0600 + i) a)
/-- The shape of an axis. -/
def shapeOf (s : State) (a : Nat) : Shape := mkShape (shapeList s a)
/-- Acceleration at a speed (R273). -/
def Shape.acc (h : Shape) (u : Int) : Int := if u < h.vb then h.a1 else h.a2
/-- Deceleration at a speed (R273). -/
def Shape.dec (h : Shape) (u : Int) : Int := if u ≤ h.vb then h.d1 else h.d2
/-- A of R273. -/
def Shape.amax (h : Shape) : Int := imax (imax h.a1 h.a2) (imax h.d1 h.d2)

/-! ### One step -/

/-- q of R276. -/
def brakeQ (dd x e c : Int) : Int :=
  let y := x * x + dd * e
  if y < 0 then 0 else tdiv ((isqrt (dd * dd * c * c + 4 * y).toNat : Int) - dd * c) 2
/-- lim of R276. -/
def brakeLim (h : Shape) (e c ux : Int) : Int :=
  if h.vb < ux then brakeQ h.d2 ux e c
  else
    let g := brakeQ h.d1 ux e c
    if g ≤ h.vb then g
    else imax h.vb (brakeQ h.d2 h.vb (e - tdiv (h.vb * h.vb - ux * ux + h.d1 - 1) h.d1) c)

/-- What one step answers: Q, v, the speed un, whether the entry completes, whether the branch for moving away ran. -/
structure PStep where
  q : Int
  v : Int
  un : Int
  done : Bool
  away : Bool
deriving DecidableEq, Repr

/-- The positional step (R277) from Q and v toward T. -/
def posStep (h : Shape) (r q v t vm ux : Int) (blend : Bool) : PStep :=
  let sg := if v ≠ 0 then sgn v else sgn (2 * t - q)
  let u := sg * v
  let e := sg * (2 * t - q)
  let um := imax ux 1
  if u = 0 ∧ e = 0 then { q := q, v := v, un := 0, done := true, away := false }
  else if 0 < e ∨ u = 0 then
    let ua := imax (u + h.acc u * r) h.vstart
    let g := brakeLim h (e - u * r) r ux
    let un := imax (imax (imin (imin ua vm) g) (u - h.dec u * r)) um
    if un = um ∧ e ≤ (u + un) * r then { q := 2 * t, v := if blend then sg * ux else 0, un := un, done := true, away := false }
    else { q := q + sg * (u + un) * r, v := sg * un, un := un, done := false, away := false }
  else
    let un := imax (u - h.dec u * r) 0
    { q := q + sg * (u + un) * r, v := if 0 < h.vstop ∧ un ≤ h.vstop then 0 else sg * un, un := un, done := false, away := true }

/-- The velocity step (R279) toward vt. -/
def velStep (h : Shape) (r q v vt : Int) : PStep :=
  let sg := if v ≠ 0 then sgn v else sgn vt
  let u := sg * v
  let w := if sgn vt = sg then iabs vt else 0
  let un := if u < w then imin (imax (u + h.acc u * r) h.vstart) w else imax (u - h.dec u * r) w
  { q := q + sg * (u + un) * r, v := if w = 0 ∧ 0 < h.vstop ∧ un ≤ h.vstop then 0 else sg * un, un := un, done := false, away := false }

/-- The step of a quick stop or limit stop: no speed jump (R291, R307). -/
def stopStep (d r q v : Int) : PStep :=
  let sg := sgn v
  let u := sg * v
  let un := imax (u - d * r) 0
  { q := q + sg * (u + un) * r, v := sg * un, un := un, done := false, away := false }

/-- The outputs of R275 after a step. -/
def profOut (amax r : Int) (p : PStep) (x : AxProf) : AxProf :=
  { x with q := p.q, v := p.v, posRef := asr p.q 1, vRef := p.v, aRef := clamp (-amax) amax (tdiv (p.v - x.v) r), turn := p.away }

/-! ### Entries (R281, R284) -/

/-- T of an entry with a base, or none while its base is deferred (R281). -/
def entT (s : State) (a : Nat) (e : MoveEntry) : Option Int :=
  if e.kind = 3 then none
  else if e.kind = 4 then
    e.base.map (fun b =>
      let c := pnat s 0x0501 a * 65536
      let bm := nmod b c
      let p := nmod (e.raw - bm) c
      let n := nmod ((bm : Int) - e.raw) c
      if e.rdir = 1 then b + p else if e.rdir = 2 then b - n else if p ≤ n then b + p else b - n)
  else some e.target
/-- The distance D of a positional entry, none while its base is deferred (R281). -/
def entD (s : State) (a : Nat) (e : MoveEntry) : Option Int :=
  match entT s a e, e.base with
  | some t, some b => some (t - b)
  | _, _ => none
/-- The effective speed limit of an entry (R280). -/
def entVm (h : Shape) (e : MoveEntry) : Int := if e.vmax = 0 then h.vmax else imin e.vmax h.vmax

/-- The exit speed of the active entry `i` before the entries `js`, and whether it blends (R284). -/
def joint (s : State) (a : Nat) (h : Shape) (i : MoveEntry) (js : List MoveEntry) : Int × Bool :=
  match js.find? (fun j => j.kind = 3 || entD s a j != some 0) with
  | none => (h.vstop, false)
  | some j =>
    match entD s a i, entD s a j with
    | some di, some dj =>
      if j.kind ≠ 3 ∧ sgn di = sgn dj ∧ i.noBlend = false then
        (imin (imin (entVm h i) (entVm h j)) (brakeLim h (2 * iabs dj) 0 h.vstop), true)
      else (h.vstop, false)
    | _, _ => (h.vstop, false)

/-! ### The queue of an axis -/

/-- Raise MOVE_DONE, and MOVE_OVERSHOOT where the target was passed (R288, R302). -/
def moveDone (s : State) (inst tag : Nat) (turn tgt : Int) : State :=
  let u := fun (x : Int) => (clamp 0 u32max x).toNat
  let s1 := raise s 0x9101 inst (le 2 tag ++ le 4 (u turn) ++ le 4 (u tgt))
  when (0 < tgt) (fun t => raise t 0x9102 inst []) s1

/-- Mirror the queue of an axis (R478). -/
def queueItem (s : State) (a : Nat) : State :=
  let p := (axOf s a).prof
  sendItem s (.queue (Fin.ofNat 128 a) p.queue p.act p.limStop)

/-- The active entry completes (R277, R285, R286): MOVE_DONE, and it leaves the queue. -/
def entryDone (s : State) (a : Nat) : State :=
  let p := (axOf s a).prof
  match p.queue with
  | [] => s
  | e :: es => queueItem (modProf (moveDone s a e.tag p.ovsTurn p.ovsTgt) a (fun x => { x with queue := es, act := false, ovsTurn := 0, ovsTgt := 0 })) a

/-- The first entry becomes active: a deferred base is taken, and the values of R288 are noted (R281, R288). -/
def entryActivate (s : State) (a : Nat) : State :=
  queueItem (modProf s a (fun p =>
    match p.queue with
    | [] => p
    | e :: es =>
      let e1 := if e.kind = 3 then e else { e with base := some (e.base.getD p.posRef) }
      let e2 := match entT s a e1 with | some t => { e1 with target := t } | none => e1
      let s0 := sgn (2 * e2.target - p.q)
      { p with queue := e2 :: es, act := true, qAct := p.q, vAct := p.v, s0 := if s0 = 0 then sgn p.v else s0, ovsTurn := 0, ovsTgt := 0 })) a

/-- Activate entries until one is active that is not zero-length (R282, R285). -/
def entriesNext (a : Nat) : Nat → State → State
  | 0, s => s
  | n + 1, s =>
    let p := (axOf s a).prof
    if p.act = true ∨ p.queue = [] then s
    else
      let s1 := entryActivate s a
      match (axOf s1 a).prof.queue with
      | e :: _ => if e.kind ≠ 3 ∧ entD s1 a e = some 0 then entriesNext a n (entryDone s1 a) else s1
      | [] => s1

/-- At the start of a step: an active velocity entry with another entry behind it completes (R286), and the next entries
become active. -/
def entriesStart (a : Nat) : Nat → State → State
  | 0, s => s
  | n + 1, s =>
    let s1 := entriesNext a 33 s
    let p := (axOf s1 a).prof
    match p.act, p.queue with
    | true, e :: _ :: _ => if e.kind = 3 then entriesStart a n (entryDone s1 a) else s1
    | _, _ => s1

/-- The overshoot values after a step of a positional entry (R288). -/
def ovsTrack (t : Int) (p : AxProf) : AxProf :=
  { p with ovsTurn := if p.vAct ≠ 0 ∧ sgn p.vAct ≠ p.s0 then imax p.ovsTurn (asr (sgn p.vAct * (p.q - p.qAct)) 1) else p.ovsTurn,
           ovsTgt := imax p.ovsTgt (asr (-p.s0 * (2 * t - p.q)) 1) }

/-- The soft limit ahead of a direction, in linear and hybrid mode (R290). -/
def softAhead (s : State) (a : Nat) (sg : Int) : Option Int :=
  if pnat s 0x0500 a = 1 ∨ sg = 0 then none else some (if 0 < sg then pget s 0x0503 a else pget s 0x0504 a)

/-- The step of an active velocity entry (R279, R290): the step, and whether it lands on the soft limit. -/
def velEntry (s : State) (a : Nat) (h : Shape) (r : Int) (p : AxProf) (e : MoveEntry) : PStep × Bool :=
  let sg := if p.v ≠ 0 then sgn p.v else sgn e.target
  match softAhead s a sg with
  | none => (velStep h r p.q p.v e.target, false)
  | some lim =>
    if sg * (2 * lim - p.q) ≤ 0 then (velStep h r p.q p.v (if sgn e.target = sg then 0 else e.target), false)
    else
      let pv := velStep h r p.q p.v e.target
      let pp := posStep h r p.q p.v lim (entVm h e) h.vstop false
      if pp.un < pv.un ∨ (pp.un = pv.un ∧ pp.done = true) then (pp, pp.done) else (pv, false)

/-- ENABLED becomes MOVING while a move is active, and MOVING becomes ENABLED at rest (R205, R283). -/
def profState (s : State) (a : Nat) : State :=
  let x := axOf s a
  let rest := x.prof.v = 0 && !x.prof.act && x.prof.queue = []
  match x.sm.st with
  | .enabled => if x.prof.act then setSt s a .moving else s
  | .moving => if rest && x.hm.phase = 0 then setSt s a .enabled else s
  | _ => s

/-- A move that was active in a step makes the axis MOVING, even if it completed within the step (R205). -/
def moveSeen (s : State) (a : Nat) : State := if (axOf s a).sm.st = .enabled then setSt s a .moving else s

/-- One profile step of an axis with its own queue (R277 to R290). -/
def entryStep (s : State) (a : Nat) (r : Int) : State :=
  let s1 := entriesStart a 33 s
  let p := (axOf s1 a).prof
  let h := shapeOf s1 a
  let s2 : State :=
    match p.act, p.queue with
    | true, e :: es =>
      if e.kind = 3 then
        let st := velEntry s1 a h r p e
        let t := modProf s1 a (profOut h.amax r st.1)
        if st.2 then entryDone (raise t 0x9103 a []) a
        else if e.target = 0 ∧ st.1.v = 0 then entryDone t a else t
      else
        let j := joint s1 a h e es
        let st := posStep h r p.q p.v e.target (entVm h e) j.1 j.2
        let t := modProf s1 a (fun x => ovsTrack e.target (profOut h.amax r st x))
        if st.done then entryDone t a else t
    | _, _ => modProf s1 a (profOut h.amax r (if p.v = 0 then { q := p.q, v := 0, un := 0, done := false, away := false } else velStep h r p.q p.v 0))
  let s3 := entriesNext a 33 s2
  profState (if p.act then moveSeen s3 a else s3) a

/-- The deceleration of a quick stop or limit stop in one step: LP_QSTOP_DEC, or the shape's for a limit stop with
LP_QSTOP_DEC = 0; and A (R291, R307). -/
def stopDec (s : State) (a : Nat) (h : Shape) (v : Int) : Int × Int :=
  let d := pget s 0x0345 a
  if d = 0 then (h.dec (iabs v), h.amax) else (d, d)

/-- One step of a quick stop or a limit stop (R291, R307). -/
def haltStep (s : State) (a : Nat) (r : Int) : State :=
  let x := axOf s a
  let h := shapeOf s a
  let d := stopDec s a h x.prof.v
  let s1 := modProf s a (profOut d.2 r (stopStep d.1 r x.prof.q x.prof.v))
  if (axOf s1 a).prof.v = 0 then profState (when x.prof.limStop (fun t => queueItem t a) (modProf s1 a (fun p => { p with limStop := false }))) a else s1

/-- The picks that a profile step advances by: r, or after a takeover the picks from the state frame it started from (R271,
R483). -/
def stepPicks (s : State) (rate : Nat) (c : Option (BitVec 32)) : Int :=
  match c with
  | some p => (psDiff (ps s + 1) p : Int)
  | none => (2 ^ rate : Nat)

end Sys2Proof.Machine
end

