-- ==== Sys2Proof/Machine/Homing.lean ====
section
/-! DEFINITION. Switch inputs and limits (R303 to R310) and homing sequences (R311 to R321). -/
namespace Sys2Proof.Machine

/-! ### The sequence -/

/-- PRF_HM_VSRCH taken by the sequence. -/
def hmVsrch (h : AxHome) : Int := h.par.getD 0 0
/-- PRF_HM_OFS taken by the sequence. -/
def hmOfs (h : AxHome) : Int := h.par.getD 3 0
/-- PRF_HM_DMAX taken by the sequence. -/
def hmDmax (h : AxHome) : Int := h.par.getD 4 0
/-- PRF_HM_TSTOP taken by the sequence. -/
def hmTstop (h : AxHome) : Int := h.par.getD 6 0
/-- The homing shape (R312). -/
def hmShape (h : AxHome) : Shape := mkShape [0, 0, 0, 0, h.par.getD 1 0, 0, h.par.getD 2 0, hmVsrch h]

/-- A homing sequence is active. -/
def homing (x : Axis) : Bool := x.hm.phase != 0
/-- The index checks of R258 are made (R313): not in modes 2 and 3 while a sequence runs. -/
def idxCheck (x : Axis) : Bool := !(homing x && (x.hm.mode = 2 || x.hm.mode = 3))
/-- A leg is under way: back-off, search, reversed search or index search, not yet ended. -/
def hmLeg (h : AxHome) : Bool := 1 ≤ h.phase && h.phase ≤ 4 && h.next = 0
/-- A leg under way, or one that a limit ended in this pick, which a capture overrides (R321). -/
def hmOpen (s : State) (h : AxHome) : Bool := hmLeg h || h.trip == some (ps s)

/-- The capture: c_h is taken, and the axis stops (R318). -/
def hmCapture (s : State) (a : Nat) (c : Int) : State :=
  modHm s a (fun h => { h with phase := 5, next := 0, trip := none, cH := c })
/-- The sequence fails: the axis stops, and HOMING_END follows at rest (R315, R320). -/
def hmFail (s : State) (a code : Nat) : State := modHm s a (fun h => { h with phase := 6, next := code })

/-- A limit or the leg length ends the leg (R314, R315). A search of mode 4 that exceeds PRF_HM_DMAX, for which R315 states
no result, fails as one that finds no switch (log 18). -/
def hmTrip (s : State) (a : Nat) : State :=
  let h := (axOf s a).hm
  let t := modHm s a (fun x => { x with trip := some (ps s) })
  if h.phase = 1 then hmFail t a 0x9011
  else if h.mode = 4 then hmFail t a 0x9011
  else if h.mode = 5 then hmFail t a 0x9013
  else if h.reversed then hmFail t a (if h.mode = 2 then 0x9012 else 0x9011)
  else modHm t a (fun x => { x with phase := 2, next := 2 })

/-- An index report that qualifies in mode 3: beyond c_edge of HOME in the search direction s (R313; log 18). -/
def hmBeyond (h : AxHome) (cEdge c : Int) : Bool := decide (0 < (c - cEdge) * h.s)

/-- The index report of a decode pick (R313). -/
def hmIndex (s : State) (a : Nat) (ci : Int) : State :=
  let h := (axOf s a).hm
  let t := modHm s a (fun x => { x with idx := some (ci, ps s) })
  if h.mode = 2 ∧ hmLeg h = true then hmCapture t a ci
  else if h.mode = 3 ∧ h.phase = 4 ∧ hmLeg h = true ∧ hmBeyond h h.cHome ci = true then hmCapture t a ci
  else t

/-- HOME has completed its debounce in mode 3: an index report of this pick may qualify at once, even if a limit ended the leg in it;
otherwise the index part of the leg begins (R316, R321). -/
def hmHomeFound (s : State) (a : Nat) (c : Int) : State :=
  let h := (axOf s a).hm
  let t := when (hmLeg h) (fun u => modHm u a (fun x => { x with phase := 4, cHome := c })) s
  match h.idx with
  | some (ci, p) => if p = ps s ∧ hmBeyond h c ci = true then hmCapture t a ci else t
  | none => t

/-- The index part of mode 3 has run past its distance (R316). -/
def hmIdxFar (s : State) (a : Nat) (x : Axis) : Bool :=
  let cpr := pget s 0x0501 a
  let lim := if hmDmax x.hm ≠ 0 ∧ hmDmax x.hm < cpr then hmDmax x.hm else cpr
  x.hm.phase = 4 && decide (lim < iabs (x.fb.cExt - x.hm.cHome))

/-- The limit in the direction of travel ends a leg (R315). In the search of mode 4 the limits end nothing but by their debounced
change. -/
def hmLimit (s : State) (a : Nat) : State :=
  let x := axOf s a
  if hmLeg x.hm = true ∧ limToward x.inp x.hm.dir = true ∧ ¬(x.hm.mode = 4 ∧ x.hm.phase ≠ 1) then hmTrip s a else s

/-- The debounced level of the input that a back-off leaves: the limit in direction s in mode 4, else HOME (R313). -/
def hmBackLvl (x : Axis) : Bool := if x.hm.mode = 4 then (if 0 < x.hm.s then x.inp.limP.lvl else x.inp.limN.lvl) else x.inp.home.lvl

/-- The checks of a leg at a decode: the index distance, which alone bounds the index part, the leg length and the limit in the direction of travel (R314 to R316), and the
end of a back-off whose input is debounced inactive, which may be so from its start where only the chatter flag holds a limit
active (R306, R313). -/
def hmDecode (s : State) (a : Nat) : State :=
  let x := axOf s a
  if hmLeg x.hm = false then s
  else if x.hm.phase = 1 ∧ hmBackLvl x = false then modHm s a (fun h => { h with next := 1 })
  else if hmIdxFar s a x then hmFail s a 0x9012
  else if x.hm.phase ≠ 4 ∧ hmDmax x.hm ≠ 0 ∧ hmDmax x.hm < iabs (x.fb.cExt - x.hm.leg0) then hmTrip s a
  else hmLimit s a

/-- A limit or the leg length has ended the search in this pick; a capture of the pick stands all the same (R321). -/
def hmJust (s : State) (h : AxHome) : Bool := h.phase = 6 && h.trip == some (ps s)

/-- Hard-stop conditions after a speed-loop execution (R317): the pick from which they have held. -/
def hmStall (s : State) (a : Nat) (x : Axis) : AxHome :=
  if x.hm.mode = 5 ∧ (x.hm.phase = 2 ∨ hmJust s x.hm = true) then
    let sat := if 0 < x.hm.s then x.lp.shi else x.lp.slo
    if sat = true ∧ iabs x.fb.vAct ≤ pget s 0x0347 a then
      { x.hm with stallPs := match x.hm.stallPs with | some p => some p | none => some (ps s) }
    else { x.hm with stallPs := none }
  else { x.hm with stallPs := none }

/-- The end of a successful sequence: the position is set (R318). -/
def hmFinish (s : State) (a : Nat) : State :=
  let h := (axOf s a).hm
  let dc := hmOfs h - h.cH
  let s1 := modAx s a (fun x =>
    { x with fb := { fbMove x.fb dc with
                       refd := true,
                       ph := if h.mode = 2 ∨ h.mode = 3 then h.cH + dc else x.fb.ph,
                       idxPh := if h.mode = 2 ∨ h.mode = 3 then true else x.fb.idxPh,
                       idxMiss := if h.mode = 2 ∨ h.mode = 3 then 0 else x.fb.idxMiss,
                       homeOfs := if 3 ≤ axEnc s a then x.fb.homeOfs + dc else x.fb.homeOfs },
             prof := { x.prof with posRef := x.prof.posRef + dc * 65536, q := x.prof.q + 2 * dc * 65536 } })
  homeEnd (sendItem s1 (offsBody a .home (axOf s1 a).fb dc)) a 0

/-- Start the next leg at rest. -/
def hmNext (s : State) (a phase : Nat) (dir : Int) (rev : Bool) : State :=
  let c := (axOf s a).fb.cExt
  modHm s a (fun h => { h with phase := phase, next := 0, dir := dir, leg0 := c, reversed := rev, trip := none })

/-- What follows at rest in a sequence (R313, R315, R318, R320). -/
def hmRest (s : State) (a : Nat) : State :=
  let h := (axOf s a).hm
  if h.phase = 5 then profState (hmFinish s a) a
  else if h.phase = 6 then profState (homeEnd s a h.next) a
  else if h.next = 1 then hmNext s a 2 h.s false
  else if h.next = 2 then hmNext s a 3 (-h.s) true
  else s

/-- One profile step of a homing sequence (R312). -/
def hmStep (s : State) (a : Nat) (r : Int) : State :=
  let x := axOf s a
  let sh := hmShape x.hm
  let vt := if hmLeg x.hm then x.hm.dir * hmVsrch x.hm else 0
  let st := velStep sh r x.prof.q x.prof.v vt
  let s1 := modProf s a (profOut sh.amax r st)
  if vt = 0 ∧ st.v = 0 then hmRest s1 a else s1

/-! ### Debounced changes and limits -/

/-- The debounce record of an input. -/
def debOf (x : AxIn) (sw : SwInput) : Deb := match sw with | .limP => x.limP | .limN => x.limN | .home => x.home
/-- Replace the debounce record of an input. -/
def debSet (x : AxIn) (sw : SwInput) (d : Deb) : AxIn :=
  match sw with
  | .limP => { x with limP := d }
  | .limN => { x with limN := d }
  | .home => { x with home := d }
/-- The number of an input in events: its bit in the inputs and status channel (R120, R325). -/
def swNo (sw : SwInput) : Nat := match sw with | .limP => 0 | .limN => 1 | .home => 2
/-- The direction a limit guards (R305). -/
def swDir (sw : SwInput) : Int := match sw with | .limP => 1 | .limN => -1 | .home => 0

/-- The profile of a group member stops its path for a limit: LP_QSTOP_DEC, or the smaller shape deceleration of a member
whose LP_QSTOP_DEC is 0 (R309; log 19). -/
def limDec (s : State) (i : Nat) : Int :=
  let d := pget s 0x0345 i
  if d = 0 then imin (shapeOf s i).d1 (shapeOf s i).d2 else d

/-- The limit stop of an axis (R307, R309). -/
def limitStop (s : State) (a : Nat) : State :=
  if inGroup s a then
    grpStop (raise s 0x8107 a []) (axGroup s a) (grpMembers s (axGroup s a)) (limDec s)
  else
    let s1 := raise (queueDrop s a) 0x8107 a []
    if (axOf s1 a).sm.st = .fault then s1 else queueItem (modProf s1 a (fun p => { p with limStop := true })) a

/-- Both limits (R310). -/
def limBoth (s : State) (a : Nat) : State :=
  let x := (axOf s a).inp
  when ((limLatch x).both && !x.both) (fun t => raise t 0x8109 a []) (modAx s a (fun y => { y with inp := limLatch y.inp }))

/-- The homing sequence at a debounced change of an input to a level (R313). -/
def hmChange (s : State) (a : Nat) (sw : SwInput) (lvl : Bool) (c : Int) : State :=
  let h := (axOf s a).hm
  let mine := if h.mode = 4 then swDir sw = h.s else (sw == .home && (h.mode = 1 || h.mode = 3))
  if mine then
    if h.phase = 1 then (if lvl = false ∧ h.next = 0 then modHm s a (fun x => { x with next := 1 }) else s)
    else if lvl = true ∧ (h.phase = 2 ∨ h.phase = 3 ∨ h.trip = some (ps s)) ∧ hmOpen s h = true ∧ h.phase ≠ 5 then
      if h.mode = 3 then hmHomeFound s a c else hmCapture s a c
    else s
  else s

/-- A debounced change of an input (R303 to R310, R313). -/
def swChange (s : State) (a : Nat) (sw : SwInput) : State :=
  let x := axOf s a
  let d := debOf x.inp sw
  if debReady s a d then
    let d1 := debChange (ps s) d
    let was := limEff d
    let s1 := modAx s a (fun y => { y with inp := debSet y.inp sw d1 })
    let s2 := when (d1.chat && !d.chat) (fun t => raise t 0x8108 a [BitVec.ofNat 8 (swNo sw)]) s1
    let s3 := when (homing x) (fun t => hmLimit (hmChange t a sw d1.lvl d1.cEdge) a) s2
    let isLim := sw != .home
    let s4 := when isLim (fun t => limBoth t a) s3
    let hit := isLim && !was && limEff d1 && !homing x && hasProfile s a && decide (x.prof.vRef * swDir sw > 0)
    let s5 := when hit (fun t => limitStop t a) s4
    sendItem s5 (.debounced (Fin.ofNat 128 a) sw d1.lvl d1.cEdge d1.chat)
  else s

/-- The chatter flag of an input clears (R306). -/
def chatClear (s : State) (a : Nat) (sw : SwInput) : State :=
  let x := axOf s a
  let d := debOf x.inp sw
  if d.chat = true ∧ x.sm.decoded = true ∧ 64 ≤ psDiff (ps s) d.lastChg then
    sendItem (limBoth (modAx s a (fun y => { y with inp := debSet y.inp sw { d with chat := false } })) a)
      (.debounced (Fin.ofNat 128 a) sw d.lvl d.cEdge false)
  else s

/-- The hard stop is detected (R317): the profile stands at the position of the axis. -/
def hardStop (s : State) (a : Nat) : State :=
  let x := axOf s a
  match x.hm.stallPs with
  | some p =>
    if x.hm.mode = 5 ∧ (x.hm.phase = 2 ∨ hmJust s x.hm = true) ∧ hmTstop x.hm ≤ psDiff (ps s) p + 1 then
      modProf (modHm (hmCapture s a x.fb.cExt) a (fun h => { h with stallPs := none })) a
        (fun q => { q with q := 2 * x.fb.pos, v := 0, posRef := x.fb.pos, vRef := 0, aRef := 0 })
    else s
  | none => s

/-- DEBOUNCED_CHANGE: FB_DEB consecutive samples show the other level (R303). -/
def execDebouncedChange (a : AxisNo) (sw : SwInput) (s : State) : Host.Outcome State Fault Refusal := finishD s (swChange s a sw)
/-- CHATTER_CLEAR: no debounced change for 64 consecutive picks (R306). -/
def execChatterClear (a : AxisNo) (sw : SwInput) (s : State) : Host.Outcome State Fault Refusal := finishD s (chatClear s a sw)
/-- HARD_STOP_DETECT: the conditions of R317 have held for PRF_HM_TSTOP picks. -/
def execHardStopDetect (a : AxisNo) (s : State) : Host.Outcome State Fault Refusal := finishD s (hardStop s a)

end Sys2Proof.Machine
end

