-- ==== Sys2Proof/Machine/Group.lean ====
section
/-! DEFINITION. Interpolation groups (R292 to R298) and the profile job of an axis. -/
namespace Sys2Proof.Machine

/-! ### Group entries -/

/-- The references a path record gives its members (R294). -/
def grpRefs (g : Grp) : List (Nat × Int × Int × Int) :=
  g.mem.map (fun m =>
    if g.l = 0 then (m.1, m.2.2, 0, 0)
    else (m.1, m.2.2 + tdiv (m.2.1 * g.q) (2 * g.l : Nat), tdiv (m.2.1 * g.v) g.l, tdiv (m.2.1 * g.a) g.l))

/-- The path record of an entry: members with D and B, L and the lead (R293). Deferred bases are taken now (R281): pos_ref, with the
references `rs` of a path step just made in place of those the members have yet to take (R295). -/
def grpPath (s : State) (rs : List (Nat × Int × Int × Int)) (e : GEntry) : List (Nat × Int × Int) × Nat × Option Nat :=
  let mem := e.mem.map (fun m =>
    let b := if e.defer then (match rs.find? (fun q => q.1 = m.1) with | some q => q.2.1 | none => (axOf s m.1).prof.posRef) else m.2.2
    (m.1, m.2.1 - b, b))
  let l := nmax (mem.map (fun m => (iabs m.2.1).toNat))
  (mem, l, (mem.find? (fun m => (iabs m.2.1).toNat = l)).map (·.1))

/-- The members of a group become MOVING (R298). -/
def grpMoving (s : State) (g : Nat) : State :=
  forEach (grpMembers s g) (fun t a => if (axOf t a).sm.st = .enabled then setSt t a .moving else t) s

/-- The first group entry becomes active (R293); a halt entry keeps the path it stops (R289). -/
def grpActivate (s : State) (g : Nat) (rs : List (Nat × Int × Int × Int)) : State :=
  match (grpOf s g).queue with
  | [] => s
  | e :: _ =>
    if e.mem = [] then grpItem (modGrp s g (fun r => { r with act := true, ovsTgt := 0 })) g
    else
      let p := grpPath s rs e
      let lead := p.2.2.getD 0
      let sh := shapeList s lead
      let vmax := (mkShape sh).vmax
      grpMoving (grpItem (modGrp s g (fun r =>
        { r with act := true, q := 0, v := 0, a := 0, mem := p.1, l := p.2.1, lead := p.2.2, shape := sh,
                 vm := if e.vmax = 0 then vmax else imin e.vmax vmax, ovsTgt := 0 })) g) g

/-- The active group entry completes (R298). -/
def grpDone (s : State) (g : Nat) : State :=
  match (grpOf s g).queue with
  | [] => s
  | e :: es => grpItem (modGrp (moveDone s g e.tag 0 (grpOf s g).ovsTgt) g (fun r => { r with queue := es, act := false, ovsTgt := 0 })) g

/-- Activate group entries until one is active that is not zero-length (R282, R285, R293). -/
def grpNext (g : Nat) (rs : List (Nat × Int × Int × Int)) : Nat → State → State
  | 0, s => s
  | n + 1, s =>
    let r := grpOf s g
    if r.act = true ∨ r.queue = [] then s
    else
      let s1 := grpActivate s g rs
      let r1 := grpOf s1 g
      match r1.queue with
      | e :: _ => if e.mem ≠ [] ∧ r1.l = 0 then grpNext g rs n (grpDone s1 g) else s1
      | [] => s1

/-- The path comes to rest with no entry left: its members return to ENABLED (R298). -/
def grpRest (s : State) (g : Nat) : State :=
  let r := grpOf s g
  if r.v = 0 ∧ r.queue = [] then
    forEach (grpMembers s g) (fun t a => if (axOf t a).sm.st = .moving ∧ homing (axOf t a) = false then setSt t a .enabled else t) s
  else s

/-- The path record after a step (R275 for a_s). -/
def grpOut (amax r : Int) (p : PStep) (x : Grp) : Grp :=
  { x with q := p.q, v := p.v, a := clamp (-amax) amax (tdiv (p.v - x.v) r) }

/-- The path step of a group record: the state after it, and whether the active entry completes (R277, R279, R296, R297). -/
def grpMove (s0 : State) (g : Nat) (r : Int) : State × Bool :=
  let x := grpOf s0 g
  let h := mkShape x.shape
  match x.qdec with
  | some d =>
    let st := stopStep d r x.q x.v
    (when (st.v = 0) (fun t => grpItem t g) (modGrp s0 g (fun y => { grpOut d r st y with qdec := if st.v = 0 then none else some d })), false)
  | none =>
    match x.act, x.queue with
    | true, e :: _ =>
      if e.mem = [] then
        let st := velStep h r x.q x.v 0
        (modGrp s0 g (grpOut h.amax r st), st.v = 0)
      else if x.hold then (modGrp s0 g (grpOut h.amax r (velStep h r x.q x.v 0)), false)
      else
        let st := posStep h r x.q x.v x.l x.vm h.vstop false
        (modGrp s0 g (fun y => { grpOut h.amax r st y with ovsTgt := imax y.ovsTgt (asr (st.q - 2 * x.l) 1) }), st.done)
    | _, _ =>
      if x.v = 0 then (modGrp s0 g (fun y => { y with mem := [], a := 0, lead := none }), false)
      else (modGrp s0 g (grpOut h.amax r (velStep h r x.q x.v 0)), false)

/-- One step of a group path (R293, R296, R297): the members' references are formed from it (R294), and where the active entry completes,
the next one becomes active in the same step (R282). -/
def grpStep (s : State) (g : Nat) (r : Int) : State :=
  let p := grpMove (grpNext g [] 33 s) g r
  let rs := grpRefs (grpOf p.1 g)
  let t := modGrp p.1 g (fun y => { y with refs := rs })
  grpRest (if p.2 then grpNext g rs 33 (grpDone t g) else t) g

/-- The first member profile job of a pick advances the path and marks the group record (R295). -/
def grpAdvance (s : State) (g : Nat) (rate : Nat) : State :=
  if (grpOf s g).mark = some (ps s) then s
  else
    let r := stepPicks s rate (grpOf s g).catchUp
    grpStep (modGrp s g (fun x => { x with mark := some (ps s), catchUp := none })) g r

/-- A member takes its references (R294, R295). -/
def grpTake (s : State) (a g : Nat) : State :=
  match (grpOf s g).refs.find? (fun m => m.1 = a) with
  | some m => modProf s a (fun p => { p with posRef := m.2.1, q := 2 * m.2.1, vRef := m.2.2.1, v := m.2.2.1, aRef := m.2.2.2 })
  | none => modProf s a (fun p => { p with vRef := 0, aRef := 0, v := 0 })

/-! ### The profile job -/

/-- A member moves with its group's path, or stands: not so one that a homing sequence has set in motion and that brakes by itself, under a
quick stop or a halt (R289, R291, R311). -/
def ownPath (s : State) (a : Nat) : Bool :=
  let g := grpOf s (axGroup s a)
  let x := axOf s a
  (g.refs.any (fun m => m.1 = a) && (g.v != 0 || !g.queue.isEmpty || g.qdec.isSome)) || (x.prof.v = 0 && x.prof.queue.isEmpty)
/-- The profile step of an axis (R271): group member, quick stop or limit stop, homing, or its own queue. An axis whose
profile is idle makes no step (R291). -/
def profStep (s : State) (a : Nat) : State :=
  let x := axOf s a
  if x.prof.live = false then s
  else
    let r := stepPicks s (profRate s a) x.prof.catchUp
    let s0 := if x.prof.vRef ≠ 0 then modLp s a (fun l => { l with vNzPs := some (ps s) }) else s
    let s1 := modProf s0 a (fun p => { p with catchUp := none })
    if homing x then hmStep s1 a r
    else if inGroup s a then
      let s2 := grpAdvance s1 (axGroup s a) (profRate s a)
      if ownPath s2 a then grpTake s2 a (axGroup s a) else if (axOf s2 a).sm.st = .fault then haltStep s2 a r else entryStep s2 a r
    else if x.sm.st = .fault ∨ x.prof.limStop = true then haltStep s1 a r
    else entryStep s1 a r

/-! ### The interpolation job (R296) -/

/-- The path correction c of a group from the positions decoded in the pick (R296). -/
def grpLag (s : State) (g : Nat) : Nat :=
  let r := grpOf s g
  nmax (r.mem.map (fun m =>
    if m.2.1 = 0 then 0
    else let x := axOf s m.1; (tdiv (iabs (x.prof.posRef - x.fb.pos) * r.l) (iabs m.2.1)).toNat))

/-- The interpolation job: the correction and the path hold (R296). -/
def interpJob (s : State) (g : Nat) : State :=
  let c := grpLag s g
  let tol := pnat s 0x0610 g
  let r := grpOf s g
  let set := tol ≠ 0 && decide (tol < c) && !r.hold
  let hold := if set then true else if c ≤ tol / 2 then false else r.hold
  let s1 := modGrp s g (fun x => { x with c := c, hold := hold })
  let s2 := when (hold != r.hold) (fun t => grpItem t g) s1
  if set then raise s2 0x9104 g (le 8 c) else s2

/-! ### PRF_STATUS (R300) -/

/-- PRF_STATUS of an axis. -/
def prfStatus (s : State) (a : Nat) : Nat :=
  let p := (axOf s a).prof
  if inGroup s a then
    let g := grpOf s (axGroup s a)
    let e := g.queue.head?
    let tag := if g.act then (e.map (·.tag)).getD 0 else 0
    let rest := p.v = 0 && !g.act
    tag * 65536 + g.queue.length * 1024 + (if g.act then 5 * 16 else 0) + b2n g.hold * 8 + b2n p.turn * 4 +
      b2n (g.act && g.lead = some a) * 2 + b2n rest
  else
    let e := p.queue.head?
    let tag := if p.act then (e.map (·.tag)).getD 0 else 0
    let kind := if p.act then (e.map (·.kind)).getD 0 else 0
    tag * 65536 + p.queue.length * 1024 + kind * 16 + b2n p.turn * 4 + b2n (p.v = 0 && !p.act)

end Sys2Proof.Machine
end

