-- ==== Sys2Proof/Machine/Loops.lean ====
section
/-! DEFINITION. The loops of an axis (R188 to R201): position, speed, current (FOC and block) and stepper. Each answers the
new loop record and the faults it detects with their reactions (R210). -/
namespace Sys2Proof.Machine

/-- A sample is a measurement (R195, R162). -/
def isMeas (x : Samp) : Bool := x.tag ≤ 7
/-- The bound of a measurement (R195). -/
def boundOf (x : Samp) : Int := if x.tag = 0 then 0 else (2 ^ (x.tag - 1) : Nat)

/-! ### Position and speed loop -/

/-- The reference the position loop uses: bounded by the soft limits in linear and hybrid mode (R253). -/
def posRefUsed (s : State) (a : Nat) (p : Int) : Int :=
  if pnat s 0x0500 a = 1 then p else imin (imax p (pget s 0x0504 a)) (pget s 0x0503 a)

/-- The axis searches a hard stop: its following-error check is suspended and its current limited (R317). -/
def hardSearch (x : Axis) : Bool := x.hm.mode = 5 && x.hm.phase = 2

/-- The position loop (R188). -/
def posLoop (s : State) (a : Nat) (x : Axis) : AxLoop × List (Nat × Nat) :=
  let e := posRefUsed s a x.prof.posRef - x.fb.pos
  ({ x.lp with vFb := sat32 (rshr (sat32 e * pget s 0x0300 a) 24) },
   if pget s 0x0303 a < iabs e ∧ hardSearch x = false then [(0x6102, if nbit (pnat s 0x0348 a) 0 then 2 else 1)] else [])

/-- One biquad (R191): coefficients B0, B1, B2, A1, A2 from their parameter number. -/
def biquad (s : State) (a num : Nat) (x : Int) (q : Biq) : Int × Biq :=
  let c := fun (i : Nat) => pget s (num + i) a
  let acc := c 0 * x + c 1 * q.x1 + c 2 * q.x2 - c 3 * q.y1 - c 4 * q.y2
  let y := clamp (-8388608) 8388607 (rshr acc 30)
  (y, { x2 := q.x1, x1 := x, y2 := q.y1, y1 := y })

/-- The number of biquads of an axis (R42). -/
def axBiquads (s : State) (a : Nat) : Nat := pnat s 0x0108 a

/-- The speed loop (R190); `k` is its rate code. An axis without a position loop has v_fb = 0 (R189). -/
def spdLoop (s : State) (a k : Nat) (x : Axis) : AxLoop :=
  let l := x.lp
  let vFb := if axLoop s a 2 then l.vFb else 0
  let ev := sat32 (sat32 (vFb + rshr (x.prof.vRef * pget s 0x0301 a) 15) - x.fb.vAct)
  let iqm := if hardSearch x then imin (pget s 0x0312 a) (x.hm.par.getD 5 0) else pget s 0x0312 a
  let lim := shl iqm 24
  let inc0 := shl (clamp (-lim) lim (ev * pget s 0x0311 a)) k
  let inc := if (l.shi = true ∧ 0 < inc0) ∨ (l.slo = true ∧ inc0 < 0) then 0 else inc0
  let iv := clamp (-lim) lim (l.iv + inc)
  let u0 := clamp (-8388608) 8388607 (rshr (ev * pget s 0x0310 a) 16 + rshr iv 16)
  let nb := axBiquads s a
  let r1 := if 1 ≤ nb then biquad s a 0x0314 u0 l.bq0 else (u0, l.bq0)
  let r2 := if nb = 2 then biquad s a 0x0319 r1.1 l.bq1 else (r1.1, l.bq1)
  let u := r2.1 + rshr (x.prof.aRef * pget s 0x0302 a) 8
  let m := shl iqm 8
  { l with vFb := vFb, iv := iv, shi := decide (m < u), slo := decide (u < -m), bq0 := r1.2, bq1 := r2.2,
           iqRef := rshr (clamp (-m) m u) 8 }

/-- The target of an axis under PRF_VSET: 0 in a quick stop and while it points toward an active limit (R272, R309). -/
def vsetTarget (s : State) (a : Nat) (x : Axis) : Int :=
  let t := pget s 0x0608 a
  if x.sm.st = .fault ∨ limTowardNow s a x.inp t = true then 0 else t

/-- The step of v_ref toward PRF_VSET in a speed-loop execution of an axis without a position loop (R272). -/
def vsetStep (s : State) (a k : Nat) (x : Axis) : AxProf :=
  let h0 := shapeOf s a
  let h := if x.sm.st = .fault then { h0 with d1 := pget s 0x0345 a, d2 := pget s 0x0345 a } else h0
  let st := velStep h (2 ^ k : Nat) 0 x.prof.vRef (vsetTarget s a x)
  { x.prof with vRef := st.v, v := st.v, aRef := 0 }

/-- The current reference of the current loop: iq_ref of the speed loop, or LP_IREF without one (R189). -/
def curRef (s : State) (a : Nat) (l : AxLoop) : Int := if axLoop s a 1 then l.iqRef else pget s 0x0349 a

/-! ### Bus voltage and current checks -/

/-- R197 for one execution: the held value and the runs. -/
def busStep (s : State) (a : Nat) (u : Samp) (l : AxLoop) : AxLoop × List (Nat × Nat) :=
  let l1 := if isMeas u then { l with ubus := u.v, bu := boundOf u, ubMiss := 0 } else { l with ubMiss := min (l.ubMiss + 1) 9 }
  let uv := if l1.ubus + l1.bu < pget s 0x0342 a then min (l.uvRun + 1) 4 else 0
  let ov := if pget s 0x0343 a < l1.ubus - l1.bu then min (l.ovRun + 1) 4 else 0
  ({ l1 with uvRun := uv, ovRun := ov },
   (if l1.ubMiss = 9 then [(0x6107, 2)] else []) ++ (if uv = 4 then [(0x6105, 2)] else []) ++ (if ov = 4 then [(0x6106, 2)] else []))

/-- A certain overcurrent among currents with bounds, or a sample at the end of its range with tag 0 (R198). -/
def ocCertain (trip : Int) (samples : List Samp) (is : List (Int × Int)) : Bool :=
  samples.any (fun x => x.tag = 0 && (x.v = 32767 || x.v = -32768)) || is.any (fun p => decide (trip < iabs p.1 - p.2))
/-- An uncertain overcurrent (R198). -/
def ocUncertain (trip : Int) (is : List (Int × Int)) : Bool := is.any (fun p => decide (trip < iabs p.1 + p.2))

/-- R198 for one execution, with the selected currents and the samples among them. An execution without selected currents, a
current gap, is not an uncertain one, and so ends a run of them (DESIGN CHOICE, log 14). -/
def ocStep (s : State) (a : Nat) (vAct : Int) (samples : List Samp) (is : List (Int × Int)) (l : AxLoop) : AxLoop × List (Nat × Nat) :=
  let trip := pget s 0x0340 a
  let cer := ocCertain trip samples is
  let run := if cer = false ∧ ocUncertain trip is = true then min (l.ocRun + 1) 4 else 0
  ({ l with ocRun := run },
   (if cer = true ∨ run = 4 then [(0x6103, 2)] else []) ++ (if pget s 0x0341 a < iabs vAct then [(0x6104, 2)] else []))

/-- R199 for one execution. -/
def gapStep (s : State) (a : Nat) (gap : Bool) (l : AxLoop) : AxLoop × List (Nat × Nat) :=
  let n := if gap then min (l.gaps + 1) 7 else 0
  ({ l with gaps := n }, if pnat s 0x0344 a ≤ n then [(0x6108, 2)] else [])

/-- The selection of R195: the three currents with their bounds, and b_max; none is a gap. -/
def selCurrents (r : RawIn) : Option (List (Int × Int) × Int) :=
  let ps := [r.ia, r.ib, r.ic]
  let bs := (ps.filter isMeas).map boundOf
  match ps.map isMeas with
  | [true, true, true] => some (ps.map (fun x => (x.v, boundOf x)), bs.foldl imax 0)
  | [true, true, false] => some ([(r.ia.v, boundOf r.ia), (r.ib.v, boundOf r.ib), (sat16 (-(r.ia.v + r.ib.v)), isum bs)], isum bs)
  | [true, false, true] => some ([(r.ia.v, boundOf r.ia), (sat16 (-(r.ia.v + r.ic.v)), isum bs), (r.ic.v, boundOf r.ic)], isum bs)
  | [false, true, true] => some ([(sat16 (-(r.ib.v + r.ic.v)), isum bs), (r.ib.v, boundOf r.ib), (r.ic.v, boundOf r.ic)], isum bs)
  | _ => none

/-! ### Current loop of a servo axis -/

/-- θ_e and w_e, of which the low 32 bits are kept (R15, R186, R192). -/
def elecAngle (s : State) (a : Nat) (pos vAct : Int) : Nat × Int :=
  let p := pnat s 0x0332 a
  let cpr := pnat s 0x0501 a * 65536
  let r : Int × Int :=
    if p = 0 then
      let pp := pget s 0x0330 a
      (tdiv ((nmod pos cpr : Int) * pp * 4294967296) cpr, tdiv (vAct * pp * 4294967296) cpr)
    else (tdiv ((nmod pos p : Int) * 4294967296) p, tdiv (vAct * 4294967296) p)
  (nmod (r.1 + pget s 0x0331 a) 4294967296, wrapS 32 r.2)

/-- θ_out: θ_e led by 1.5 picks (R196). -/
def thetaOut (th : Nat) (we : Int) : Nat := nmod (th + rshr (3 * we) 1) 4294967296

/-- The inverse Park transform of vd and vq (R196). -/
def invPark (th : Nat) (vd vq : Int) : Int × Int :=
  let cs := sincos th
  (rshr (vd * cs.1 - vq * cs.2) 30, rshr (vd * cs.2 + vq * cs.1) 30)

/-- One PI of R196: the integrator and the output before decoupling. -/
def focPi (kp ki lv e i sg : Int) (frz : Bool) (k : Nat) : Int × Int :=
  let inc0 := shl (clamp (-lv) lv (e * ki)) k
  let inc := if frz = true ∨ (0 < sg ∧ 0 < inc0) ∨ (sg < 0 ∧ inc0 < 0) then 0 else inc0
  let i1 := clamp (-lv) lv (i + inc)
  (i1, sat32 (rshr (e * kp) 24 + rshr i1 24))

/-- The currents id and iq in Q16.16 from the phase currents (R196). -/
def focCurrents (th : Nat) (ia ib ic : Int) : Int × Int :=
  let al := sat32 (rshr ((2 * ia - ib - ic) * 1431655765) 16)
  let be := sat32 (rshr ((ib - ic) * 2479700525) 16)
  let cs := sincos th
  (rshr (al * cs.1 + be * cs.2) 30, rshr (be * cs.1 - al * cs.2) 30)

/-- The voltage limit vl (R196). -/
def focVl (s : State) (a : Nat) (l : AxLoop) : Int := shl (rshr (imax 0 (l.ubus - l.bu) * pget s 0x0323 a) 15) 16

/-- The controllers of R196 from id and iq; `bmax` is the bound of the currents. -/
def focCore (s : State) (a k : Nat) (th : Nat) (we id iq bmax : Int) (l : AxLoop) : AxLoop :=
  let ed := sat32 (pget s 0x0322 a * 65536 - id)
  let eq := sat32 (curRef s a l * 65536 - iq)
  let vl := focVl s a l
  let lv := shl vl 24
  let frz := decide (pget s 0x0326 a < bmax)
  let rd := focPi (pget s 0x0320 a) (pget s 0x0321 a) lv ed l.id l.sd frz k
  let rq := focPi (pget s 0x0320 a) (pget s 0x0321 a) lv eq l.iq l.sq frz k
  let ud := sat32 (rd.2 - rshr (rshr (we * iq) 32 * pget s 0x0324 a) 16)
  let uq := sat32 (rq.2 + rshr (rshr (we * id) 32 * pget s 0x0324 a) 16 + rshr (we * pget s 0x0325 a) 24)
  let vd := clamp (-vl) vl ud
  let ql : Int := isqrt (vl * vl - vd * vd).toNat
  let vq := clamp (-ql) ql uq
  let v := invPark (thetaOut th we) vd vq
  { l with id := rd.1, iq := rq.1, sd := sgn (ud - vd), sq := sgn (uq - vq), vd := vd, vq := vq, idm := id, iqm := iq,
           vAl := v.1, vBe := v.2 }

/-- The current loop of a servo axis (R196 to R199). A gap ends a run of uncertain overcurrents (DESIGN CHOICE, log 14). -/
def focLoop (s : State) (a k : Nat) (x : Axis) (r : RawIn) : AxLoop × List (Nat × Nat) :=
  let ang := elecAngle s a x.fb.pos x.fb.vAct
  let b := busStep s a r.ubus { x.lp with theta := ang.1 }
  match selCurrents r with
  | some (is, bmax) =>
    let o := ocStep s a x.fb.vAct ([r.ia, r.ib, r.ic].filter isMeas) is b.1
    let g := gapStep s a false o.1
    let c := focCurrents ang.1 ((is.map (·.1)).getD 0 0) ((is.map (·.1)).getD 1 0) ((is.map (·.1)).getD 2 0)
    (focCore s a k ang.1 ang.2 c.1 c.2 bmax g.1, b.2 ++ o.2 ++ g.2)
  | none =>
    let o := ocStep s a x.fb.vAct [] [] b.1
    let g := gapStep s a true o.1
    let v := invPark (thetaOut ang.1 ang.2) g.1.vd g.1.vq
    ({ g.1 with vAl := v.1, vBe := v.2 }, b.2 ++ o.2 ++ g.2)

/-! ### Current loop of a block axis -/

/-- The commutation step from the sign of the reference and the Hall sector; none is off (R200). -/
def blkStep (s : State) (a : Nat) (r : Int) (sector : Option Nat) : Option Nat :=
  match sector with
  | none => none
  | some h => if r = 0 then none else some ((h + (if 0 < r then 1 else 4) + pnat s 0x032B a) % 6)

/-- The PI of R200 for a reference r ≠ 0. -/
def blkPi (s : State) (a k : Nat) (r idc : Int) (l : AxLoop) : AxLoop :=
  let e := iabs r - idc
  let dm := pget s 0x032A a
  let lb := shl dm 24
  let inc0 := shl (clamp (-lb) lb (e * pget s 0x0329 a)) k
  let inc := if l.sb = true ∧ 0 < inc0 then 0 else inc0
  let ib := clamp 0 lb (l.ib + inc)
  let u := rshr (e * pget s 0x0328 a) 24 + rshr ib 24
  { l with ib := ib, duty := clamp 0 dm u, sb := decide (dm < u) }

/-- The current loop of a block axis (R197 to R200). A current gap skips the current checks of R198. -/
def blkLoop (s : State) (a k : Nat) (x : Axis) (raw : RawIn) : AxLoop × List (Nat × Nat) :=
  let b := busStep s a raw.ubus x.lp
  let r := curRef s a x.lp
  let meas := isMeas raw.idc
  let is := if meas then [(raw.idc.v, boundOf raw.idc)] else []
  let o := if r ≠ 0 ∧ meas = false then (b.1, []) else ocStep s a x.fb.vAct (if meas then [raw.idc] else []) is b.1
  let g := gapStep s a (!meas) o.1
  let l1 := if r = 0 then { g.1 with duty := 0, ib := 0 } else if meas then blkPi s a k r raw.idc.v g.1 else g.1
  ({ l1 with step := blkStep s a r x.fb.sector }, b.2 ++ o.2 ++ g.2)

/-! ### Stepper axis -/

/-- Microstep address from pos_ref (R201). -/
def stpAddr (posRef k : Int) : Nat := nmod (asr (posRef * k) 32) 1024

/-- The stepper execution (R201). -/
def stpLoop (s : State) (a : Nat) (x : Axis) : AxLoop × List (Nat × Nat) :=
  let nz := if x.prof.vRef ≠ 0 then some (ps s) else x.lp.vNzPs
  let run := match nz with | some p => decide (x.prof.vRef ≠ 0) || decide (psDiff (ps s) p < pnat s 0x033B a) | none => false
  ({ x.lp with maddr := stpAddr x.prof.posRef (pget s 0x0338 a), vNzPs := nz,
               amp := if run then pnat s 0x0339 a else pnat s 0x033A a },
   if axEnc s a ≠ 0 ∧ pget s 0x0303 a < iabs (x.prof.posRef - x.fb.pos) then [(0x610B, 2)] else [])

/-! ### All loops of one pick -/

/-- The loops of an axis that execute in pick `i`, outermost first, with the channels of the pick. -/
def loopsRun (s : State) (a i : Nat) (raw : RawIn) (x : Axis) : Axis × List (Nat × Nat) :=
  let c := axClass s a
  if c = 3 then
    if loopDue s a 0 i then let r := stpLoop s a x; ({ x with lp := r.1 }, r.2) else (x, [])
  else if c = 4 then (x, [])
  else
    let r1 := if loopDue s a 2 i then posLoop s a x else (x.lp, [])
    let x1 := { x with lp := r1.1 }
    let x2 := if loopDue s a 1 i then
        let y := if axLoop s a 2 then x1 else { x1 with prof := vsetStep s a (axRate s a 1) x1 }
        { y with lp := spdLoop s a (axRate s a 1) y }
      else x1
    let r3 := if loopDue s a 0 i then (if c = 1 then focLoop s a (axRate s a 0) x2 raw else blkLoop s a (axRate s a 0) x2 raw)
              else (x2.lp, [])
    ({ x2 with lp := r3.1 }, r1.2 ++ r3.2)

end Sys2Proof.Machine
end

