-- ==== Sys2Proof/Machine/Modulation.lean ====
section
/-! DEFINITION. Modulation (R215 to R229): on-times from loop outputs, kindling, the interlock, and the records of the down
frame (R115, R177, R206). -/
namespace Sys2Proof.Machine

/-! ### From loop output to a body -/

/-- The on-time that stands for a phase that is off (R219). -/
def offOn : Int := 0x7FFF

/-- The high-side on-times of R223 from v_α, v_β in Q16.16, the held bus value with its bound, and T_pwm. -/
def svm (vAl vBe ubus bu : Int) (tp : Nat) : Int × Int × Int :=
  let h := rshr (vBe * 56756) 16
  let pb := rshr (-vAl) 1 + h
  let pc := rshr (-vAl) 1 - h
  let z := rshr (imax (imax vAl pb) pc + imin (imin vAl pb) pc) 1
  let ub := shl (imax (ubus - bu) 1) 16
  let f := fun (p : Int) => clamp 0 tp (tdiv tp 2 + tdiv ((p - z) * tp) ub)
  (f vAl, f pb, f pc)

/-- CSTATE of a step of R200 (R221). -/
def cstateOf (step : Option Nat) : Nat :=
  match step with
  | none => 0
  | some n => [1, 3, 2, 6, 4, 5].getD n 0

/-- AX_CMD_FMT of an axis (R41). -/
def axFmt (s : State) (a : Nat) : Nat := pnat s 0x0109 a

/-- The body of the loop outputs of an axis (R223, R224). -/
def bodyOf (s : State) (a : Nat) (x : Axis) : Body :=
  let tp := tPwm s (axNode s a)
  if axClass s a = 1 then
    let h := svm x.lp.vAl x.lp.vBe x.lp.ubus x.lp.bu tp
    if axFmt s a = 1 then .edge h.1 h.2.1 h.2.2 none else .duty h.1 h.2.1 h.2.2
  else if axClass s a = 2 then .comm (asr (x.lp.duty * tp) 15) (cstateOf x.lp.step) 0
  else if axClass s a = 3 then .step x.lp.maddr x.lp.amp false
  else .none

/-- The last body of an axis (R225); an axis that has no body yet since its entry to ENABLED shows the outputs of R208,
all 0 (log 15). -/
def lastBody (s : State) (a : Nat) (x : Axis) : Body :=
  match x.md.body with
  | .none => if axClass s a = 3 then .step 0 0 false else bodyOf s a x
  | b => b

/-! ### Kindling (R226 to R228) -/

/-- Periods a record covers; 0 for a record that starts no period at half rate (R217, R227). -/
def periods (s : State) (a : Nat) : Nat :=
  let r := pnat s 0x0400 (axNode s a)
  if r = 2 then 2 else if r = 1 ∧ (ps s).toNat % 2 = 0 then 0 else 1

/-- The low-side on-time a node or the modulator derives for a high-side on-time (R219, R223). -/
def lowOf (tp dead : Nat) (h : Int) : Int := imax 0 ((tp : Int) - h - 2 * dead)
/-- The record must kindle the phase (R227). -/
def mustKindle (c n p : Nat) : Bool := decide (n ≤ c + p)
/-- A high-side on-time under the cap, if the record must kindle. -/
def capOn (must : Bool) (hcap h : Int) : Int := if must then imin h hcap else h
/-- The same in the duty format, in which a phase that is off stays off (R219). -/
def capDuty (must : Bool) (hcap h : Int) : Int := if h = offOn then h else capOn must hcap h
/-- The count after the record (R227). -/
def countAfter (kindles : Bool) (c p : Nat) : Nat := if kindles then 0 else min (c + p) 31

/-- The kindling step of R227 for one record. For direct edge the low sides are derived behind it, whatever body was demanded (R225). -/
def kindle (s : State) (a : Nat) (b : Body) (m : AxMod) : Body × AxMod :=
  let p := periods s a
  let tp := tPwm s (axNode s a)
  let dead := pnat s 0x0401 a
  let te := tEff s a
  let n := nEff s a
  let hcap : Int := (tp : Int) - 2 * dead - te
  if p = 0 then (b, m)
  else
    match b with
    | .duty x y z =>
      let x1 := capDuty (mustKindle m.cA n p) hcap x
      let y1 := capDuty (mustKindle m.cB n p) hcap y
      let z1 := capDuty (mustKindle m.cC n p) hcap z
      (.duty x1 y1 z1, { m with cA := countAfter (x1 ≤ hcap) m.cA p, cB := countAfter (y1 ≤ hcap) m.cB p, cC := countAfter (z1 ≤ hcap) m.cC p })
    | .edge x y z _ =>
      let x1 := capOn (mustKindle m.cA n p) hcap x
      let y1 := capOn (mustKindle m.cB n p) hcap y
      let z1 := capOn (mustKindle m.cC n p) hcap z
      let l := (lowOf tp dead x1, lowOf tp dead y1, lowOf tp dead z1)
      (.edge x1 y1 z1 none,
       { m with cA := countAfter ((te : Int) ≤ l.1) m.cA p, cB := countAfter ((te : Int) ≤ l.2.1) m.cB p, cC := countAfter ((te : Int) ≤ l.2.2) m.cC p })
    | .comm d cs _ =>
      let must := mustKindle m.cA n p
      let d1 := if must then imin d hcap else d
      let k := if must then cdiv te 4 else 0
      (.comm d1 cs k, { m with cA := countAfter (cs != 0 && cs != 7 && k != 0 && decide (d1 ≤ hcap)) m.cA p })
    | b => (b, m)
/-- A body as it is demanded: for direct edge the high sides, from which R225 derives the low sides. -/
def demanded (b : Body) : Body := match b with | .edge x y z _ => .edge x y z none | b => b

/-! ### Interlock (R229) and encoding -/

/-- The interlock: the body sent and the number of phases sent as off. A commutation-step record that fails, by which the whole axis goes off,
counts 1 (DESIGN CHOICE, log 123). -/
def interlock (tp dead : Nat) (b : Body) : Body × Nat :=
  match b with
  | .duty x y z =>
    let bad := fun (h : Int) => decide (h ≠ offOn ∧ (tp : Int) < h)
    let fix := fun (h : Int) => if bad h then offOn else h
    (.duty (fix x) (fix y) (fix z), b2n (bad x) + b2n (bad y) + b2n (bad z))
  | .edge x y z low =>
    let l := match low with | some l => l | none => (lowOf tp dead x, lowOf tp dead y, lowOf tp dead z)
    let bad := fun (h lo : Int) => decide ((tp : Int) < h + lo + 2 * dead)
    let fix := fun (h lo : Int) => if bad h lo then ((0 : Int), (0 : Int)) else (h, lo)
    let fa := fix x l.1
    let fb := fix y l.2.1
    let fc := fix z l.2.2
    (.edge fa.1 fb.1 fc.1 (some (fa.2, fb.2, fc.2)), b2n (bad x l.1) + b2n (bad y l.2.1) + b2n (bad z l.2.2))
  | .comm d cs k => if (tp : Int) < d ∨ cs = 7 then (.comm 0 0 k, 1) else (.comm d cs k, 0)
  | b => (b, 0)

/-- The bytes of a body with its KREQ (R218 to R222). -/
def bodyBytes (fmt kreq : Nat) (boost : Bool) (b : Body) : Bytes :=
  let u := fun (x : Int) => wrapU 15 x
  match b with
  | .duty x y z => le 6 (u x + u y * 2 ^ 15 + u z * 2 ^ 30 + kreq * 2 ^ 46)
  | .edge x y z low =>
    let l := low.getD (0, 0, 0)
    le 12 (u x + u l.1 * 2 ^ 15 + u y * 2 ^ 30 + u l.2.1 * 2 ^ 45 + u z * 2 ^ 60 + u l.2.2 * 2 ^ 75 + kreq * 2 ^ 94)
  | .comm d cs k => le 6 (cs % 8 + u d * 8 + k % 1024 * 2 ^ 36 + kreq * 2 ^ 46)
  | .step ma amp kb => le 6 (ma % 1024 + amp % 32768 * 1024 + b2n (boost || kb) * 2 ^ 45 + kreq * 2 ^ 46)
  | .none => if fmt = 1 then le 12 (kreq * 2 ^ 94) else le 6 (kreq * 2 ^ 46)

/-- The record header (R115). -/
def recHeader (node lax fmt : Nat) (hold pen : Bool) : Bytes :=
  le 2 (node * 1024 + lax * 128 + fmt * 32 + b2n hold * 16 + b2n pen * 8)

/-! ### The assignment a node follows (R128) -/

/-- A bolt count has been reached: it lies in the half of the circle up to the present bolt (R25). -/
def boltReached (s : State) (b : Nat) : Bool := decide ((psBolt (ps s) + 2 ^ 27 - b) % 2 ^ 27 < 2 ^ 26)
/-- The place of a transfer in the order of R127. -/
def xferRank (k : XferKind) : Nat :=
  match k with
  | .desc _ => 1 | .classMap => 2 | .assign => 2 | .exceptions _ => 2 | .timing _ => 3 | .parRate => 4 | .parAxis _ _ _ => 4
  | .tableCrc => 4 | .table _ _ => 5
/-- A transfer of a microstep image: its entries or its CRC (R236). -/
def xferImage (k : XferKind) : Bool := match k with | .table _ _ => true | .tableCrc => true | _ => false
/-- Transfers of an assignment of a node are still on their way (R128). -/
def asgUnsent (s : State) (n : Nat) : Bool :=
  let b := brOf s (n / 4)
  (b.retry.toList ++ b.xfers).any (fun x => x.node = n && xferRank x.kind = 2)
/-- The assignment a node follows in a bolt: the one sent last from its FROM_BOLT on, before that the one before. One whose
transfers have not ended by then is sent again with a later bolt (R128). -/
def asgOf (s : State) (n : Nat) : Option SlotAsg :=
  let nd := ndOf s n
  match nd.asg with
  | some g => if nd.asgBegun || (boltReached s g.fromBolt && !asgUnsent s n) then some g else nd.asgPrev
  | none => none

/-- KREQ of the records of an axis, which is coded if the assignment its node follows says so (R160). -/
def kreqOf (s : State) (a : Nat) : Nat :=
  match asgOf s (axNode s a) with
  | some g =>
    if g.codes.getD (axLax s a) 0 = 0 then 0
    else match (ndOf s (axNode s a)).sync with
      | .sync => 0
      | .wait rk _ => if rk then 2 else 1
  | none => 0

/-- On-times of a body for the traces (R327). -/
def onTimes (b : Body) : List Int :=
  match b with
  | .duty x y z => [x, y, z]
  | .edge x y z _ => [x, y, z]
  | _ => [0, 0, 0]
/-- CMD_AUX of a body (R327). -/
def auxOf (b : Body) : Int :=
  match b with
  | .comm d cs _ => d + cs * 65536
  | .step ma amp _ => ma + amp * 65536
  | _ => 0

/-! ### The record of an axis at the build deadline -/

/-- Read the body of an output override (R395, R219 to R222); none if a field is not valid for the format: a reserved
field or KREQ that is not 0, a reserved CSTATE, or bytes beyond the body. -/
def parseBody (fmt : Nat) (bs : Bytes) : Option Body :=
  let n := rdLe bs 0 12
  let g := fun (lo w : Nat) => (nbits n lo w : Int)
  if fmt = 1 then
    if nbits n 90 6 = 0 then some (.edge (g 0 15) (g 30 15) (g 60 15) (some (g 15 15, g 45 15, g 75 15))) else none
  else if nbits n 48 48 ≠ 0 ∨ nbits n 46 2 ≠ 0 then none
  else if fmt = 0 then (if nbits n 45 1 = 0 then some (.duty (g 0 15) (g 15 15) (g 30 15)) else none)
  else if fmt = 2 then (if nbits n 18 18 = 0 then some (.comm (g 3 15) (nbits n 0 3) (nbits n 36 10)) else none)
  else if nbits n 25 20 = 0 then some (.step (nbits n 0 10) (nbits n 10 15) (nbit n 45)) else none

/-- The profile of an axis stands: no active entry, no homing, at rest (R205). -/
def profStands (x : Axis) : Bool := x.prof.queue = [] && x.hm.phase = 0 && x.prof.v = 0 && x.prof.vRef = 0
/-- The path of the axis's group is at rest and empty, or it has none. -/
def grpStands (s : State) (a : Nat) : Bool :=
  if inGroup s a then (let g := grpOf s (axGroup s a); g.queue = [] && g.v = 0) else true
/-- The state an axis in HOLD returns to (R205). -/
def holdBack (s : State) (a : Nat) : AxSt := if !hasProfile s a || (profStands (axOf s a) && grpStands s a) then .enabled else .moving

/-- What the record of an axis is to be (R177, R206): power on, hold. -/
def recWant (s : State) (a : Nat) : Bool × Bool :=
  let x := axOf s a
  let missing := x.sm.jobDue && !x.sm.jobDone
  let muted := (ndOf s (axNode s a)).muted
  if axClosed x then (true, missing || muted) else (false, false)

/-- The state of an axis after its record is settled: HOLD entered or left (R205, R206). -/
def recState (s : State) (a : Nat) (pen hold : Bool) : State :=
  match (axOf s a).sm.st with
  | .enabled => if pen && hold then setSt s a .hold else s
  | .moving => if pen && hold then setSt s a .hold else s
  | .hold => if pen && !hold then setSt s a (holdBack s a) else s
  | _ => s

/-- Send a record without a body: HOLD = 1 or PEN = 0 (R218). -/
def recPlain (s : State) (a : Nat) (pen hold : Bool) : State :=
  let fmt := axFmt s a
  modMd s a (fun m => { m with recB := recHeader (axNode s a) (axLax s a) fmt hold pen ++ bodyBytes fmt (kreqOf s a) false .none,
                               hold := hold, sent := [0, 0, 0], aux := 0 })

/-- Send a record with a body through kindling, interlock and encoding (R225). -/
def recBody (s : State) (a : Nat) (b : Body) : State :=
  let m := (axOf s a).md
  let k := kindle s a (demanded b) m
  let i := interlock (tPwm s (axNode s a)) (pnat s 0x0401 a) k.1
  let fmt := axFmt s a
  let s1 := modMd s a (fun _ =>
    { k.2 with body := b, hold := false, sent := onTimes i.1, aux := auxOf i.1,
               recB := recHeader (axNode s a) (axLax s a) fmt false true ++ bodyBytes fmt (kreqOf s a) (boostOn s m) i.1 })
  let s2 := when (k.1 != demanded b) (fun t => modCnt t a (fun c => { c with cap := satInc 32 c.cap })) s1
  if i.2 = 0 then s2
  else
    let s3 := modCnt s2 a (fun c => { c with st := satAdd 32 c.st i.2 })
    if (axOf s3 a).sm.once.contains 0x7107 then s3
    else raise (modSm s3 a (onceAdd 0x7107)) 0x7107 a []

/-- The override of an axis starts or goes on in this pick (R395): its picks left go down, the waiting command completes. -/
def ovrTick (s : State) (a : Nat) : State :=
  match (axOf s a).md.ovr with
  | some (n + 1, b) => completeWaits (modMd s a (fun m => { m with ovr := some (n, b) })) (fun w => w = .override a) 0 []
  | _ => s

/-- An override whose picks have been sent ends: the loops resume from the state of R208 (R395). -/
def ovrFinish (s : State) (a : Nat) : State :=
  match (axOf s a).md.ovr with
  | some (0, _) => enableReset (modMd s a (fun m => { m with ovr := none })) a
  | _ => s

/-- Build the record of one axis at the build deadline (R177, R206, R225, R395). -/
def recBuild (s : State) (a : Nat) : State :=
  let s0 := ovrFinish s a
  let w := recWant s0 a
  let s1 := recState s0 a w.1 w.2
  let x := axOf s1 a
  if w.1 = false ∨ w.2 = true then recPlain s1 a w.1 w.2
  else
    match x.md.ovr with
    | some (_ + 1, b) => recBody (ovrTick s1 a) a b
    | _ => recBody s1 a (lastBody s1 a x)

/-- OUTPUT_OVERRIDE_END: the override ends at the last of its picks (R395). -/
def execOutputOverrideEnd (a : AxisNo) (s : State) : Host.Outcome State Fault Refusal := finishD s (ovrFinish s a)

/-- BOOST_EXPIRY: a boost ends 64 picks after the pick that started it last (R238). -/
def execBoostExpiry (a : AxisNo) (s : State) : Host.Outcome State Fault Refusal :=
  finishD s (when (!boostOn s (axOf s a).md) (fun t => modMd t a (fun m => { m with boost := none })) s)

/-- STEPPER_HOLD_TIMER: LP_STP_HOLD_T picks after v_ref was last non-zero, the amplitude falls to LP_STP_IHOLD (R201); the
body shows it from the next execution. -/
def execStepperHoldTimer (a : AxisNo) (s : State) : Host.Outcome State Fault Refusal :=
  finishD s
    (match (axOf s a).lp.vNzPs with
     | some p =>
       if (axOf s a).prof.vRef = 0 ∧ pnat s 0x033B a ≤ psDiff (ps s) p then modLp s a (fun l => { l with vNzPs := none, amp := pnat s 0x033A a }) else s
     | none => s)

end Sys2Proof.Machine
end

