-- ==== Sys2Proof/Machine/Motion.lean ====
section
/-! DEFINITION. The axis and motion commands (R394): enable, disable, fault reset, output override, moves, halt and home. -/
namespace Sys2Proof.Machine

/-! ### Axis commands

Of the triggers of R205 that fall in one pick, commands come last (R207): the enable, disable and fault reset commands that the Heddle has
taken wait for the end of the pick, and one whose axis has changed its state by then is rejected. -/

/-- Every check of an axis command up to its own conditions (R378): length, reserved bits of W0, rights on the axis target. -/
def axisChecks (s : State) (m : Nat) (pl : Bytes) (len mask rights : Nat) : List (Bool × Nat) :=
  [(pl.length = len, 0x2002), (onlyBits mask (word pl 0), 0x2003), (hasRights s m (axTarget (word pl 0 % 128)) rights, 0x2005)]

/-- Writes of R233 for an axis are pending or abandoned. -/
def wrOpen (s : State) (a : Nat) : Bool :=
  let n := ndOf s (axNode s a)
  (n.wrPend ++ n.wrBad).any (fun l => l = 8 || l = axLax s a)

/-- What an enable command does at the end of its pick (R202, R205, R233). -/
def axisEnableEnd (s : State) (a : Nat) : State × CmdRes :=
  let x := axOf s a
  let meas := axClass s a = 4
  if x.sm.changed then (s, .fin 0x6001 [])
  else match x.sm.st with
    | .disabled =>
      if x.sm.disCmd = true ∧ placed s a = true ∧ (ndOf s (axNode s a)).integrated = true ∧ (meas ∨ enaCond s a = true) then
        if wrOpen s a then (s, .fin 0x6002 [])
        else (axItem (modAx s a (fun y => { y with sm := { y.sm with disCmd := false, enaDue := true }, fb := { y.fb with valid := false, rebase := false } })) a,
              .wait (.enable a))
      else (s, .fin 0x6001 [])
    | .ready =>
      if enaCond s a then (if wrOpen s a then (s, .fin 0x6002 []) else (modMd (setSt (enableReset s a) a .enabled) a (fun q => { q with body := .none }), .fin 0 []))
      else (s, .fin 0x6001 [])
    | _ => (s, .fin 0x6001 [])
/-- AXIS_ENABLE (R205, R207). -/
def axisEnableRun (s : State) (m : Nat) (pl : Bytes) : State × CmdRes :=
  checked s (axisChecks s m pl 4 0x7F rMOVE) (s, .wait (.axis 0x0601 (word pl 0 % 128)))

/-- What a disable command does at the end of its pick (R205). -/
def axisDisableEnd (s : State) (a : Nat) : State × CmdRes :=
  let x := axOf s a
  let ok := match x.sm.st with | .ready => true | .enabled => true | .fault => true | .safeOff => true | _ => false
  if x.sm.changed = false ∧ ok = true then (enterDisabled (modSm s a (fun q => { q with disCmd := true })) a, .fin 0 [])
  else (s, .fin 0x6001 [])
/-- AXIS_DISABLE (R205, R207). -/
def axisDisableRun (s : State) (m : Nat) (pl : Bytes) : State × CmdRes :=
  checked s (axisChecks s m pl 4 0x7F rMOVE) (s, .wait (.axis 0x0602 (word pl 0 % 128)))

/-- The cause of the fault in FCODE is no longer present (R550). Of OVERCURRENT the selected currents are judged: where fewer than two phase
currents are measurements none is selected, and the cause counts as gone (DESIGN CHOICE, log 121). -/
def causeGone (s : State) (a code : Nat) : Bool :=
  let x := axOf s a
  let r := x.sm.last
  let n := ndOf s (axNode s a)
  let trip := pget s 0x0340 a
  if code = 0x6101 then n.integrated && !n.muted && x.sm.jobSince
  else if code = 0x6103 then
    if axClass s a = 2 then
      !(isMeas r.idc && (ocCertain trip [r.idc] [(r.idc.v, boundOf r.idc)] || ocUncertain trip [(r.idc.v, boundOf r.idc)]))
    else match selCurrents r with
      | some (is, _) => !(ocCertain trip ([r.ia, r.ib, r.ic].filter isMeas) is || ocUncertain trip is)
      | none => true
  else if code = 0x6104 then decide (iabs x.fb.vAct ≤ pget s 0x0341 a)
  else if code = 0x6105 ∨ code = 0x6106 ∨ code = 0x6107 then
    isMeas r.ubus && decide (pget s 0x0342 a ≤ r.ubus.v + boundOf r.ubus) && decide (r.ubus.v - boundOf r.ubus ≤ pget s 0x0343 a)
  else if code = 0x6108 then (if axClass s a = 2 then isMeas r.idc else (selCurrents r).isSome)
  else if code = 0x610F then (hallSector (r.edge / 8192)).isSome
  else if code = 0x6110 then r.edge / 32768 = 0
  else if code = 0x6111 then decide (iabs x.fb.pos < 2 ^ 62)
  else if code = 0x7101 then !nbit x.sm.lastInp.toNat 4
  else if code = 0x7102 then !nbit x.sm.lastInp.toNat 5
  else if code = 0x7103 then !nbit x.sm.lastInp.toNat 6
  else if code = 0x7104 then !nbit x.sm.lastInp.toNat 7
  else if code = 0x4104 then (match axLane s a with | some l => !(laneOf s l).dead && !(laneOf s l).stopped | none => true)
  else true

/-- The further effects of a fault reset (R550). -/
def resetMore (s : State) (a code : Nat) : State :=
  if code = 0x7101 then modMd s a (fun m => { m with buvRun := 0 })
  else if code = 0x610F ∨ code = 0x6110 then modFb s a (fun f => { f with rebase := true })
  else s

/-- What a fault reset command does at the end of its pick (R205, R550). -/
def faultResetEnd (s : State) (a : Nat) : State × CmdRes :=
  let x := axOf s a
  let code := x.sm.fcode
  let ok := match x.sm.st with
    | .fault => x.sm.react = 2
    | .disabled => code != 0
    | .ready => code != 0
    | _ => false
  if x.sm.changed = false ∧ ok = true ∧ causeGone s a code = true then
    let s1 := resetMore (modSm s a (fun q => { q with fcode := 0, react := if q.st = .fault then 0 else q.react })) a code
    (axItem (if x.sm.st = .fault then profIdle (setSt s1 a .ready) a else s1) a, .fin 0 [])
  else (s, .fin 0x6001 [])
/-- FAULT_RESET (R205, R207, R550). -/
def faultResetRun (s : State) (m : Nat) (pl : Bytes) : State × CmdRes :=
  checked s (axisChecks s m pl 4 0x7F rMOVE) (s, .wait (.axis 0x0603 (word pl 0 % 128)))

/-- The axis command of an opcode at the end of its pick. -/
def axisCmdEnd (op a : Nat) (s : State) : State × CmdRes :=
  if op = 0x0601 then axisEnableEnd s a else if op = 0x0602 then axisDisableEnd s a else faultResetEnd s a
/-- The axis that a command in flight waits to act on, with its opcode. -/
def axisWait (f : Flight) : Option (Nat × Nat) := match f.wait with | some (.axis op a) => some (op, a) | _ => none
/-- The axis commands of the pick act, behind its faults and HOLD (R207), masters and entries in order. -/
def axisCmds (s : State) : State :=
  forEach (List.range 12) (fun t m =>
    forEach ((mbOf t m).flights.filter (fun f => (axisWait f).isSome)) (fun u f =>
      match axisWait f with
      | some q => settle m f u.pair.iseqSent (axisCmdEnd q.1 q.2 u)
      | none => u) t) s

/-- OUTPUT_OVERRIDE (R394, R395). -/
def overrideRun (s : State) (m : Nat) (pl : Bytes) : State × CmdRes :=
  let w0 := word pl 0
  let a := w0 % 128
  let n := w0 / 65536
  let x := axOf s a
  let b := parseBody (axFmt s a) (pl.drop 4)
  checked s
    [(pl.length = 16, 0x2002), (onlyBits 0xFFFF007F w0 && b.isSome, 0x2003), (hasRights s m (axTarget a) (rMOVE + rWRITE), 0x2005),
     (1 ≤ n && n ≤ 32000, 0x2004)]
    (if x.sm.changed = false ∧ x.sm.st = .enabled ∧ x.prof.queue = [] ∧ (inGroup s a = false ∨ (grpOf s (axGroup s a)).queue = []) then
       (modMd s a (fun q => { q with ovr := some (n, b.getD .none) }), .wait (.override a))
     else (s, .fin 0x6001 []))

/-! ### Moves -/

/-- A move descriptor (R280). -/
structure Desc where
  kind : Nat
  rdir : Nat
  replace : Bool
  noBlend : Bool
  tag : Nat
  vmax : Nat
  target : Int
  resOk : Bool
deriving DecidableEq, Repr

/-- Read a descriptor from its 20 bytes (R280). -/
def descOf (bs : Bytes) : Desc :=
  let w0 := word bs 0
  { kind := w0 % 16, rdir := w0 / 16 % 4, replace := nbit w0 8, noBlend := nbit w0 10, tag := word bs 1 / 65536, vmax := word bs 2,
    target := rdLeS bs 12 8, resOk := onlyBits 0x53F w0 && word bs 1 % 65536 = 0 }

/-- The base of a new entry: none is deferred (R281). -/
def descBase (s : State) (a : Nat) (d : Desc) : Option Int :=
  let p := (axOf s a).prof
  if d.replace then some p.posRef
  else match p.queue.getLast? with
    | none => some p.posRef
    | some e => entT s a e

/-- The queue entry of a descriptor (R281). -/
def descEntry (d : Desc) (base : Option Int) : MoveEntry :=
  { kind := d.kind, target := if d.kind = 2 then d.target + base.getD 0 else d.target, base := base, raw := d.target, vmax := d.vmax,
    tag := d.tag, noBlend := d.noBlend, rdir := d.rdir }

/-- The descriptor is valid for the axis (R282): reserved fields, KIND, RDIR, sign extension, range, mode and speed limit. -/
def descOk (s : State) (a : Nat) (d : Desc) (base t : Option Int) : Bool :=
  let h := shapeOf s a
  let vm := if d.vmax = 0 then h.vmax else imin d.vmax h.vmax
  d.resOk && 1 ≤ d.kind && d.kind ≤ 4 && (d.kind = 4 || d.rdir = 0) && d.rdir != 3 && hasProfile s a &&
    (d.kind != 3 || (decide (-2147483648 ≤ d.target) && decide (d.target ≤ 2147483647))) &&
    (d.kind != 2 || base.isSome) &&
    (d.kind != 4 || (pnat s 0x0500 a = 1 && decide (0 ≤ d.target) && decide (d.target < pget s 0x0501 a * 65536))) &&
    (match t with | some t => d.kind = 3 || decide (iabs t < 2 ^ 62) | none => true) &&
    decide (imax (imax h.vstart h.vstop) 1 ≤ vm)

/-- The direction of a command (R308); 0 while its target is not resolved. -/
def descDir (s : State) (a : Nat) (d : Desc) (t : Option Int) : Int :=
  if d.kind = 3 then sgn d.target else match t with | some t => sgn (t - (axOf s a).prof.posRef) | none => 0

/-- MOVE_LIMIT (R282, R308, R310): outside the soft limits, or toward an active limit. -/
def descLimit (s : State) (a : Nat) (d : Desc) (t : Option Int) : Bool :=
  let soft := pnat s 0x0500 a != 1 && (d.kind = 1 || d.kind = 2) &&
    (match t with | some t => decide (t < pget s 0x0504 a) || decide (pget s 0x0503 a < t) | none => false)
  soft || limToward (axOf s a).inp (descDir s a d t)

/-- The axis accepts moves in its state (R282), which has not changed in this pick (R207). -/
def moveState (s : State) (a : Nat) : Bool :=
  let x := axOf s a
  !x.sm.changed && (match x.sm.st with | .enabled => true | .moving => true | .hold => true | _ => false) && !homing x

/-- The status of a move descriptor for one axis in the table order of R282; `held` is the number of entries held, `grp`
that the axis must not be a group member. -/
def descStatus (s : State) (a : Nat) (d : Desc) (base : Option Int) (held : Nat) (grp : Bool) : Nat :=
  let e := descEntry d base
  let t := entT s a e
  let valid := descOk s a d base t
  if !moveState s a then 0x9001
  else if d.replace = false ∧ 32 ≤ held then 0x9002
  else if valid = true ∧ descLimit s a d t = true then 0x9003
  else if grp = true ∧ inGroup s a = true then 0x9004
  else if !valid then 0x9005
  else 0

/-- End an override for a move or homing command (R395). -/
def ovrLeave (s : State) (a : Nat) : State := ovrStop s a true

/-- Put an entry on the queue of an axis, or make it the only one (R287). A new entry ends a limit stop. -/
def moveAdd (s : State) (a : Nat) (e : MoveEntry) (replace : Bool) : State :=
  let s1 := if replace then queueDrop s a else s
  queueItem (modProf s1 a (fun p => { p with queue := p.queue ++ [e], limStop := false })) a

/-- MOVE (R280 to R282, R287). -/
def moveRun (s : State) (m : Nat) (pl : Bytes) : State × CmdRes :=
  let a := word pl 0 % 128
  let d := descOf (pl.drop 4)
  checked s (axisChecks s m pl 24 0x7F rMOVE)
    (let s1 := ovrLeave s a
     let base := descBase s1 a d
     let st := descStatus s1 a d base (axOf s1 a).prof.queue.length true
     if st = 0 then (moveAdd s1 a (descEntry d base) d.replace, .fin 0 []) else (s, .fin st []))

/-! ### Group moves -/

/-- The base of a member for a new group entry: none is deferred (R281). -/
def grpBase (s : State) (g a : Nat) (d : Desc) : Option Int :=
  if d.replace then some (axOf s a).prof.posRef
  else match (grpOf s g).queue.getLast? with
    | none => some (axOf s a).prof.posRef
    | some e => if e.mem = [] then none else (e.mem.find? (fun p => p.1 = a)).map (·.2.1)

/-- The descriptors of a group move with their members. -/
def grpDescs (s : State) (g : Nat) (pl : Bytes) : List (Nat × Desc) :=
  (grpMembers s g).mapIdx (fun i a => (a, descOf (pl.drop (4 + 20 * i))))

/-- The first status that is not 0. -/
def firstBad : List Nat → Nat
  | [] => 0
  | x :: xs => if x = 0 then firstBad xs else x

/-- The status of a group move (R292, R282). -/
def grpStatus (s : State) (g : Nat) (ds : List (Nat × Desc)) : Nat :=
  match ds with
  | [] => 0x9004
  | (_, d0) :: _ =>
    if ds.any (fun p => !(p.2.kind = 1 || p.2.kind = 2)) then 0x9004
    else if ds.any (fun p => p.2.vmax != d0.vmax || p.2.tag != d0.tag || p.2.replace != d0.replace) then 0x9004
    else firstBad (ds.map (fun p => descStatus s p.1 p.2 (grpBase s g p.1 p.2) (grpOf s g).queue.length false))

/-- Append a group entry, or make it the only one (R292); a stop of the path ends. -/
def grpAdd (s : State) (g : Nat) (ds : List (Nat × Desc)) : State :=
  let d0 := (ds.head?.map (·.2)).getD (descOf [])
  let bases := ds.map (fun p => (p.1, p.2, grpBase s g p.1 p.2))
  let e : GEntry :=
    { vmax := d0.vmax, defer := bases.any (fun p => p.2.2.isNone), tag := d0.tag,
      mem := bases.map (fun p => (p.1, (descEntry p.2.1 p.2.2).target, p.2.2.getD 0)) }
  let s1 := if d0.replace then grpDrop s g else s
  grpItem (modGrp s1 g (fun r => { r with queue := r.queue ++ [e], qdec := none })) g

/-- GROUP_MOVE (R292, R394). -/
def groupMoveRun (s : State) (m : Nat) (pl : Bytes) : State × CmdRes :=
  let w0 := word pl 0
  let g := w0 % 16
  let n := w0 / 256 % 256
  let mem := grpMembers s g
  checked s
    [(4 ≤ pl.length && pl.length = 4 + 20 * n, 0x2002), (onlyBits 0xFF0F w0, 0x2003), (mem.all (fun a => hasRights s m (axTarget a) rMOVE), 0x2005)]
    (if n ≠ mem.length ∨ n = 0 then (s, .fin 0x9004 [])
     else
       let s1 := forEach mem (fun t a => ovrLeave t a) s
       let ds := grpDescs s1 g pl
       let st := grpStatus s1 g ds
       if st = 0 then (grpAdd s1 g ds, .fin 0 []) else (s, .fin st []))

/-! ### Halt and home -/

/-- The entry of a halt (R289). -/
def haltEntry : MoveEntry := { kind := 3, target := 0, base := none, raw := 0, vmax := 0, tag := 0, noBlend := false, rdir := 0 }

/-- HALT of an axis (R289, R320). -/
def haltAxis (s : State) (a : Nat) : State × CmdRes :=
  let x := axOf s a
  let ok := match x.sm.st with | .enabled => !x.sm.changed | .moving => !x.sm.changed | .hold => !x.sm.changed | _ => false
  if !ok then (s, .fin 0x9001 [])
  else if homing x then (moveAdd (homeAbort s a) a haltEntry true, .fin 0 [])
  else if inGroup s a then (s, .fin 0x9004 [])
  else if !hasProfile s a then (s, .fin 0x9005 [])
  else (moveAdd (ovrLeave s a) a haltEntry true, .fin 0 [])

/-- HALT of a group (R289, R298). -/
def haltGroup (s : State) (g : Nat) : State × CmdRes :=
  let mem := grpMembers s g
  if mem = [] then (s, .fin 0x9004 [])
  else if mem.any (fun a => !moveState s a) then (s, .fin 0x9001 [])
  else
    let s1 := grpDrop (forEach mem (fun t a => ovrLeave t a) s) g
    (grpItem (modGrp s1 g (fun r => { r with queue := [{ vmax := 0, defer := false, tag := 0, mem := [] }] })) g, .fin 0 [])

/-- HALT (R289, R394). -/
def haltRun (s : State) (m : Nat) (pl : Bytes) : State × CmdRes :=
  let w0 := word pl 0
  let n := w0 % 128
  let isG := nbit w0 8
  checked s
    [(pl.length = 4, 0x2002), (onlyBits 0x17F w0, 0x2003), (!isG || n < 16, 0x2004),
     ((if isG then grpMembers s n else [n]).all (fun a => hasRights s m (axTarget a) rMOVE), 0x2005)]
    (if isG then haltGroup s n else haltAxis s n)

/-- The mode of the next homing sequence (R322). -/
def hmModeOf (s : State) (a : Nat) : Nat := pnat s 0x0630 a % 16
/-- The search direction (R312). -/
def hmDirOf (s : State) (a : Nat) : Int := if nbit (pnat s 0x0630 a) 4 then -1 else 1

/-- The status of a homing command (R311). -/
def homeStatus (s : State) (a : Nat) : Nat :=
  let x := axOf s a
  let mode := hmModeOf s a
  let cfg := pnat s 0x0540 a
  if x.sm.st ≠ .enabled ∨ x.sm.changed = true ∨ (inGroup s a = true ∧ grpStands s a = false) then 0x9001
  else if (mode = 1 ∨ mode = 3) ∧ nbit cfg 2 = false then 0x9005
  else if mode = 4 ∧ nbit cfg (if 0 < hmDirOf s a then 0 else 1) = false then 0x9005
  else if (mode = 2 ∨ mode = 3) ∧ axEnc s a ≠ 1 then 0x9005
  else if mode = 5 ∧ (axClass s a = 3 ∨ axLoop s a 1 = false) then 0x9005
  else if (tabFind s.par.stages (16 * 256 + a)).isSome ∨ hasProfile s a = false then 0x9005
  else 0

/-- The record of a sequence that starts (R311 to R315). -/
def hmStart (s : State) (a : Nat) (x : Axis) : AxHome :=
  let mode := hmModeOf s a
  let d := hmDirOf s a
  let back := if mode = 1 ∨ mode = 3 then x.inp.home.lvl else if mode = 4 then limToward x.inp d else false
  let both := limEff x.inp.limP && limEff x.inp.limN
  { phase := if both then 6 else if back then 1 else 2, result := x.hm.result, mode := mode, s := d, dir := if back then -d else d,
    par := (List.range 7).map (fun i => pget s (0x0631 + i) a), leg0 := x.fb.cExt, reversed := false, cH := 0, cHome := 0,
    next := if both then 0x9011 else 0, stallPs := none, trip := none, idx := none }

/-- HOME (R311, R394). -/
def homeRun (s : State) (m : Nat) (pl : Bytes) : State × CmdRes :=
  let a := word pl 0 % 128
  checked s (axisChecks s m pl 4 0x7F rMOVE)
    (let st := homeStatus s a
     if st = 0 then
       let s1 := queueDrop (ovrLeave s a) a
       let s2 := modHm s1 a (fun _ => hmStart s1 a (axOf s1 a))
       let s3 := modFb s2 a (fun f => { f with refd := if axEnc s a = 1 ∨ axEnc s a = 2 then false else f.refd })
       (setSt (sendItem s3 (offsBody a .flags (axOf s3 a).fb 0)) a .moving, .fin 0 [])
     else (s, .fin st []))

/-- AXIS_ENABLE. -/
def execAxisEnable (e : CmdEntry) (s : State) : Host.Outcome State Fault Refusal := finishD s (command s e 0x0601 axisEnableRun)
/-- AXIS_DISABLE. -/
def execAxisDisable (e : CmdEntry) (s : State) : Host.Outcome State Fault Refusal := finishD s (command s e 0x0602 axisDisableRun)
/-- FAULT_RESET. -/
def execFaultReset (e : CmdEntry) (s : State) : Host.Outcome State Fault Refusal := finishD s (command s e 0x0603 faultResetRun)
/-- OUTPUT_OVERRIDE. -/
def execOutputOverride (e : CmdEntry) (s : State) : Host.Outcome State Fault Refusal := finishD s (command s e 0x0604 overrideRun)
/-- MOVE. -/
def execMove (e : CmdEntry) (s : State) : Host.Outcome State Fault Refusal := finishD s (command s e 0x0701 moveRun)
/-- GROUP_MOVE. -/
def execGroupMove (e : CmdEntry) (s : State) : Host.Outcome State Fault Refusal := finishD s (command s e 0x0702 groupMoveRun)
/-- HALT. -/
def execHalt (e : CmdEntry) (s : State) : Host.Outcome State Fault Refusal := finishD s (command s e 0x0703 haltRun)
/-- HOME. -/
def execHome (e : CmdEntry) (s : State) : Host.Outcome State Fault Refusal := finishD s (command s e 0x0704 homeRun)

end Sys2Proof.Machine
end

