-- ==== Sys2Proof/Machine/Loom.lean ====
section
/-! DEFINITION. The Loom (R165 to R185): jobs, ready lists, selection, the parser, the axis job, and the axis faults and
reports that rest on the jobs (R209, R210, R237, R238). -/
namespace Sys2Proof.Machine

/-! ### Charges (R51) -/

/-- Lane cycles of the pre-deadline tasks of an axis in pick `i` (R51), from the loops that execute. -/
def jobCycles (cls bq : Nat) (cur spd pos : Bool) : Nat :=
  if cls = 3 then (if cur then 110 else 0)
  else if cls = 4 then (if cur then 40 else 0)
  else if cur || spd || pos then
    40 + (if pos then 50 else 0) + (if spd then 60 + 30 * bq else 0) + (if cur then (if cls = 1 then 320 else 90) else 0)
  else 0

/-- The charge of a job (R51, R167). -/
def jobCharge (s : State) (j : Job) : Nat :=
  let i := psPick (ps s)
  if j.kind = 1 then jobCycles (axClass s j.id) (axBiquads s j.id) (loopDue s j.id 0 i) (loopDue s j.id 1 i) (loopDue s j.id 2 i)
  else if j.kind = 2 then 40 * (grpMembers s j.id).length
  else 80

/-! ### Lists and selection (R171, R172) -/

/-- Ready list p of a lane. -/
def lnList (l : Lane) (p : Nat) : List Job :=
  if p = 0 then l.list0 else if p = 1 then l.list1 else if p = 2 then l.list2 else l.list3
/-- Replace ready list p of a lane. -/
def lnSet (l : Lane) (p : Nat) (js : List Job) : Lane :=
  if p = 0 then { l with list0 := js } else if p = 1 then { l with list1 := js }
  else if p = 2 then { l with list2 := js } else { l with list3 := js }
/-- Every list of a lane in order of priority. -/
def lnAll (l : Lane) : List Job := l.list0 ++ l.list1 ++ l.list2 ++ l.list3
/-- The lane without any waiting job. -/
def lnClear (l : Lane) : Lane := { l with list0 := [], list1 := [], list2 := [], list3 := [], pre := none, run := none }

/-- Take the head of the lowest-numbered non-empty list into the prefetch slot (R172). -/
def lnSelect (l : Lane) : Lane :=
  match l.pre with
  | some _ => l
  | none =>
    match l.list0, l.list1, l.list2, l.list3 with
    | j :: js, _, _, _ => { l with pre := some j, list0 := js }
    | [], j :: js, _, _ => { l with pre := some j, list1 := js }
    | [], [], j :: js, _ => { l with pre := some j, list2 := js }
    | [], [], [], j :: js => { l with pre := some j, list3 := js }
    | [], [], [], [] => l

/-- A lane that runs nothing starts the job of its prefetch slot and selects the next one (R172). A stopped lane does
nothing (R181). -/
def lnGo (l : Lane) : Lane :=
  if l.stopped = true ∨ l.run ≠ none then l
  else
    let l1 := lnSelect l
    match l1.pre with
    | none => l1
    | some j => lnSelect { l1 with run := some j, pre := none }

/-- One job enters a list before another: created earlier, or in the same time unit with the lower job code, then the lower number (R171). -/
def jobBefore (x y : Job) : Bool :=
  decide (x.made < y.made) || (x.made = y.made && (decide (x.kind < y.kind) || (x.kind = y.kind && decide (x.id < y.id))))
/-- A list with one more job in its place (R171). -/
def jobInsert (j : Job) : List Job → List Job
  | [] => [j]
  | x :: xs => if jobBefore j x then j :: x :: xs else x :: jobInsert j xs
/-- Put a job into its list and note the most entries seen (R171, R183). -/
def jobPush (s : State) (ln : Nat) (j : Job) : State :=
  let s1 := modLane s ln (fun l => lnSet l j.prio (jobInsert j (lnList l j.prio)))
  let n := (lnList (laneOf s1 ln) j.prio).length
  modLnc s1 ln (fun c => { c with hwm := tabMod 0 c.hwm j.prio (max n) })

/-- Let every idle lane go on. -/
def lanesGo (s : State) : State := { s with lanes := s.lanes.map (fun p => (p.1, lnGo p.2)) }
/-- Time goes on to `t` time units from pick start: the lanes first select among what has entered until then, so that jobs created in
one time unit enter together, in their order (R171, R172). -/
def loomTo (s : State) (t : Nat) : State :=
  let k := s.clk.pickT0 + t
  if s.clk.loomT < k then { lanesGo s with clk := { s.clk with loomT := k, now := max s.clk.now k } } else { s with clk.now := max s.clk.now k }

/-- The ready list of an axis (R41, R171). -/
def axPrio (s : State) (a : Nat) : Nat := pnat s 0x0106 a
/-- The lane of a job: the home lane of its axis, or of the group's members (R64, R170). -/
def jobLane (s : State) (j : Job) : Option Nat :=
  if j.kind = 2 then (grpMembers s j.id).findSome? (axLane s) else axLane s j.id
/-- Held jobs of every branch that are bound for a list of a lane (R174). -/
def heldFor (s : State) (ln p : Nat) : Nat :=
  nsum ((List.range 16).map (fun b => ((brOf s b).held.filter (fun k => k.prio = p && jobLane s k = some ln)).length))
/-- A job created now has room: the free entries of its list exceed the jobs held for it, which enter first (R174). -/
def newRoom (s : State) (ln : Nat) (j : Job) : Bool := decide ((lnList (laneOf s ln) j.prio).length + heldFor s ln j.prio < 128)
/-- The ready list of a group's job: the smallest AX_PRIO of its members (R170). -/
def grpPrio (s : State) (g : Nat) : Nat := ((grpMembers s g).map (axPrio s)).foldl min 3

/-! ### Overruns (R180, R184, R185) -/

/-- An axis is affected by a happening of R180 in the pick `p`: counted, a pick with causes 0x1 and 0x5 once (R184), and raised unless it is
held back by R185. -/
def overrun (s : State) (a cause : Nat) (p : BitVec 32) : State :=
  let was := (axOf s a).cnt.ovrRaised.contains cause
  let s1 := modCnt s a (fun c =>
    { c with ovrRaised := if c.ovrRaised.contains cause then c.ovrRaised else cause :: c.ovrRaised,
             ovrNow := if c.ovrNow.contains cause then c.ovrNow else cause :: c.ovrNow,
             ovrPost := if cause = 4 then satInc 16 c.ovrPost else c.ovrPost,
             ovrDrop := if cause = 3 then satInc 16 c.ovrDrop else c.ovrDrop,
             ovrNofb := if cause = 2 then satInc 16 c.ovrNofb else c.ovrNofb,
             ovrLane := if (cause = 1 ∨ cause = 5) ∧ c.ovrAt ≠ some p then satInc 16 c.ovrLane else c.ovrLane,
             ovrAt := if cause = 1 ∨ cause = 5 then some p else c.ovrAt })
  if was then s1 else raiseAt s1 0x4101 a [BitVec.ofNat 8 cause] p

/-- The bolt ends for the rate limit of R185: a cause re-arms after a complete bolt without it. -/
def overrunBolt (c : AxCnt) : AxCnt := { c with ovrRaised := c.ovrRaised.filter (fun k => c.ovrNow.contains k), ovrNow := [] }

/-! ### The parser (R171, R173, R174, R237, R230) -/

/-- The node sends an up frame in this pick (R48, R153). -/
def nodeDue (s : State) (n : Nat) : Bool :=
  (ndOf s n).admitted && (npOf s n).isSome && (match asgOf s n with | some g => dueIn (psPick (ps s)) g.rcode g.phase | none => false)

/-- The BUV bit of an accepted transmission (R238): boost and run count. -/
def buvStep (s : State) (a : Nat) (buv : Bool) : State :=
  if buv then
    let n := min ((axOf s a).md.buvRun + 1) 15
    let k := satInc 16 (axOf s a).md.buvLong
    modCnt (modMd (boostStart s a) a (fun m => { m with buvRun := n, buvLong := k })) a (fun c => { c with buvMax := max c.buvMax k })
  else modMd s a (fun m => { m with buvRun := 0, buvLong := 0 })

/-- The OTW bit of an accepted transmission (R237): the run and the report at its first transmission. -/
def otwStep (s : State) (a : Nat) (otw : Bool) : State :=
  if otw then
    match (axOf s a).md.otwPs with
    | some _ => modMd s a (fun m => { m with otwLast := ps s })
    | none => raise (modMd s a (fun m => { m with otwPs := some (ps s), otwLast := ps s })) 0x7105 a []
  else modMd s a (fun m => { m with otwPs := none })

/-- CREJ of an accepted transmission (R230). -/
def crejStep (s : State) (a : Nat) (crej : Bool) : State :=
  if crej then
    let s1 := modCnt s a (fun c => { c with crej := satInc 32 c.crej })
    if (axOf s1 a).sm.once.contains 0x7106 then s1 else raise (modSm s1 a (onceAdd 0x7106)) 0x7106 a []
  else s

/-- The inputs and status channel of an accepted frame (R120): gate-driver reports for classes with outputs unless the
coded section was discarded, and CREJ. -/
def statusWord (s : State) (a : Nat) (discarded : Bool) (w : BitVec 16) : State :=
  let b := fun (i : Nat) => w.toNat.testBit i
  let s1 := crejStep (modSm s a (fun m => { m with lastInp := w })) a (b 3)
  if discarded = true ∨ axClass s a = 0 ∨ axClass s a = 4 then s1
  else takeFaults (otwStep (buvStep s1 a (b 4)) a (b 6)) a ((if b 5 then [(0x7102, 2)] else []) ++ (if b 7 then [(0x7104, 2)] else []))

/-- Raise READY_LIST_FULL once per lane and list in a bolt (R174, R185). -/
def listFull (s : State) (ln p : Nat) : State :=
  if (laneOf s ln).fullRaised.contains p then s
  else raise (modLane s ln (fun l => { l with fullRaised := p :: l.fullRaised })) 0x4102 ln [BitVec.ofNat 8 p]

/-- A job of an axis enters its list: what may keep it from completing from now on is its lane, and the axis is not missing (R180,
R210). -/
def axEnter (s : State) (ln : Nat) (j : Job) : State := modSm (jobPush s ln j) j.id (fun m => { m with jobCause := 1, missRun := 0 })
/-- Enter one job created by the parser of branch b, or hold it (R174). -/
def parseJob (b : Nat) (s : State) (a : Nat) (raw : RawIn) : State :=
  match axLane s a with
  | none => s
  | some ln =>
    let j : Job := { kind := 1, id := a, prio := axPrio s a, made := s.clk.now }
    let s0 := modSm s a (fun m => { m with raw := raw })
    if newRoom s0 ln j then axEnter s0 ln j
    else
      let s1 := listFull (modLnc s0 ln (fun c => { c with bpHolds := satInc 32 c.bpHolds })) ln j.prio
      modBr (modSm s1 a (fun m => { m with jobCause := 3 })) b (fun x => { x with held := x.held ++ [j] })

/-- The axis of a local axis of a node. -/
def axAt (s : State) (n lax : Nat) : Option Nat := (nodeAxes s n).find? (fun a => axLax s a == lax)

/-- Parse the oldest frame of the branch's buffer (R171, R173). Nothing is parsed while held jobs wait (R174), by a standby
(R182), or from a muted node (R139). -/
def frameParse (s : State) (b : Nat) : State :=
  let br := brOf s b
  match br.held, br.rxBuf with
  | [], f :: _ =>
    let drop := fun (t : State) => modBr t b (fun x => if x.held = [] then { x with rxBuf := x.rxBuf.drop 1 } else x)
    if (ndOf s f.node).muted = true then drop s
    else
      let axs := f.axes.filterMap (fun p => (axAt s f.node p.1).map (fun a => (a, p.2)))
      let s1 := forEach axs (fun t p => statusWord t p.1 f.discarded p.2.inp) s
      let due := sortBy (fun (x y : Nat × RawIn) => x.1 < y.1) (axs.filter (fun p => (axOf s p.1).sm.jobDue))
      drop (forEach due (fun t p => parseJob b t p.1 p.2) s1)
  | _, _ => s

/-- FRAME_PARSE: the parser of a branch works on the oldest frame of its buffer and creates its jobs at the time given
(R171). -/
def execFrameParse (p : ParseAt) (s : State) : Host.Outcome State Fault Refusal :=
  finishD s (when (!parsesOnly s && !s.clk.afterDl) (fun u => frameParse (loomTo u p.t) p.branch) s)

/-- Held jobs of every branch that are bound for the list of a job and were created before it (R174). -/
def heldBefore (s : State) (ln : Nat) (j : Job) : Nat :=
  nsum ((List.range 16).map (fun b => ((brOf s b).held.filter (fun k => k.prio = j.prio && jobLane s k = some ln && jobBefore k j)).length))
/-- The first held job of a branch whose list has room enters it, behind the jobs that were created and held before it for that list
(R174). -/
def heldEnter (s : State) (b : Nat) : State :=
  let br := brOf s b
  match br.held.find? (fun j => match jobLane s j with
      | some ln => decide ((lnList (laneOf s ln) j.prio).length + heldBefore s ln j < 128)
      | none => false) with
  | none => s
  | some j =>
    match jobLane s j with
    | none => s
    | some ln =>
      let rest := br.held.filter (fun k => k != j)
      modBr (axEnter s ln j) b (fun x => { x with held := rest, rxBuf := if rest = [] then x.rxBuf.drop 1 else x.rxBuf })

/-- HELD_JOB_ENTER: the lanes have selected, which frees entries, and a held job enters its list (R174). -/
def execHeldJobEnter (b : BranchNo) (s : State) : Host.Outcome State Fault Refusal := finishD s (heldEnter (lanesGo s) b)

/-! ### Completion of a job on a lane -/

/-- The lane on which a job runs. -/
def laneRunning (s : State) (kind id : Nat) : Option Nat :=
  (List.range 8).find? (fun l => !(laneOf s l).stopped && (match (laneOf s l).run with | some j => j.kind = kind && j.id = id | none => false))

/-- The running job of a lane ends or is stopped: the lane cycles it took are bounded by its charge and free below it (R167, R183;
log 2). -/
def laneBusy (s : State) (ln : Nat) : State :=
  match (laneOf s ln).run with
  | none => s
  | some j =>
    let d := drawNat s
    modLane d.1 ln (fun l => { l with busyNow := satAdd 32 l.busyNow (d.2 % (jobCharge s j + 1)) })
/-- A job completes on a lane at `t` time units from pick start: statistics (R183). The lane selects when time goes on (R172). -/
def laneDone (s0 : State) (ln t : Nat) : State :=
  let s := laneBusy s0 ln
  let post := match (laneOf s ln).run with | some j => j.kind = 3 | none => false
  let s1 := modLnc s ln (fun c => { c with jobsRun := satInc 32 c.jobsRun, fMax := if post then c.fMax else max c.fMax t })
  modLane s1 ln (fun l =>
         { l with run := none,
                  fPick := if post then l.fPick else max l.fPick t,
                  fNow := if post = false ∧ l.fNow.1 < t then (t, psPick (ps s)) else l.fNow,
                  postNow := if post then max l.postNow t else l.postNow })

/-! ### The axis job (R169) -/

/-- Shift the position an echo output has seen of an axis (R264: taken before any rebase of the pick). -/
def echoShift (s : State) (a : Nat) (d : Int) : State :=
  { s with echo := s.echo.map (fun p => if pnat s 0x0520 p.1 = a then (p.1, { p.2 with pos := p.2.pos + d }) else p) }

/-- Raise the events of a decode; ABS_WARN at most once per bolt (R255). -/
def decEvents (a : Nat) (evs : List (Nat × Bytes)) (s : State) : State :=
  forEach evs (fun t e =>
    if e.1 = 0x8104 then (if (axOf t a).sm.once.contains 0x8104 then t else raise (modSm t a (onceAdd 0x8104)) 0x8104 a e.2)
    else raise t e.1 a e.2) s

/-- The feedback decode task (R247 to R263), the samples of the switch inputs (R303), the rebase (R252) and the checks of a
homing leg (R313 to R316). Answers the state and the faults detected. -/
def jobDecode (s : State) (a : Nat) : State × List (Nat × Nat) :=
  let x := axOf s a
  let raw := x.sm.raw
  let d := fbRun s a (idxCheck x) raw
  let s1 := modAx s a (fun y => { y with fb := d.fb, sm := { y.sm with decoded := d.done, last := if d.done then raw else y.sm.last } })
  let s2 := decItem (decEvents a d.evs s1) a x.fb d
  if d.done = false then
    (when d.fb.valid (fun t => limBoth (modAx t a (fun y => { y with inp := inSample t a false y.fb.cExt raw.inp y.inp })) a) s2, d.faults)
  else
    let s5 := echoShift (turnRebase s2 a d.turns) a (-(d.turns * pget s 0x0501 a * 65536))
    let s6 := limBoth (modAx s5 a (fun y => { y with inp := inSample s5 a d.first y.fb.cExt raw.inp y.inp })) a
    let s7 := if homing (axOf s6 a) then
        hmDecode (match d.idx with | some ci => hmIndex s6 a ci | none => s6) a
      else s6
    (s7, d.faults)

/-- DISABLED to READY, and on to ENABLED in the same pick for an enable command that cleared DIS_CMD (R205). -/
def jobReady (s : State) (a : Nat) : State :=
  let x := axOf s a
  if x.sm.st = .disabled ∧ x.sm.disCmd = false ∧ placed s a = true ∧ (ndOf s (axNode s a)).integrated = true ∧ x.fb.valid = true then
    let s1 := setSt s a .ready
    if x.sm.enaDue then
      if axClass s a = 4 then completeWaits (modSm s1 a (fun m => { m with enaDue := false })) (fun w => w = .enable a) 0 []
      else if enaCond s1 a then enterEnabled s1 a
      else completeWaits (modSm s1 a (fun m => { m with enaDue := false })) (fun w => w = .enable a) 0x6001 []
    else s1
  else s

/-- The rest of a quick stop as the job sees it: the pick from which the axis has been at rest (R209). -/
def jobRest (s : State) (a : Nat) : State :=
  modSm s a (fun m =>
    if m.st = .fault ∧ m.react = 1 then
      let x := axOf s a
      { m with qsRest := if x.prof.vRef = 0 ∧ iabs x.fb.vAct ≤ pget s 0x0347 a then (match m.qsRest with | some p => some p | none => some (ps s)) else none }
    else { m with qsRest := none })

/-- The tasks of an axis job in the order of R169, and what they lead to. The faults of loops that were closed until an OFF of
the same pick combine with it (R211). -/
def axisJob (s : State) (a : Nat) : State :=
  let d := jobDecode s a
  let s1 := jobReady d.1 a
  let i := psPick (ps s1)
  let x := axOf s1 a
  let spd := loopDue s1 a 1 i
  let q := if axClosed x ∨ x.sm.offPs = some (ps s1) then loopsRun s1 a i x.sm.raw x else (x, [])
  let r := if axClosed x then q else (x, q.2)
  let s2 := modAx s1 a (fun _ =>
    { r.1 with hm := if spd = true ∧ axClosed x = true then hmStall s1 a r.1 else r.1.hm,
               sm := { r.1.sm with jobDone := true, jobSince := true },
               md := { r.1.md with body := if axClosed x then bodyOf s1 a r.1 else r.1.md.body } })
  let s3 := modLp s2 a (fun l =>
    let m := fun (o : Int) (q : Samp) => if isMeas q then q.v else o
    let w := x.sm.raw
    { l with meas := [m (l.meas.getD 0 0) w.ia, m (l.meas.getD 1 0) w.ib, m (l.meas.getD 2 0) w.ic, m (l.meas.getD 3 0) w.idc,
                      m (l.meas.getD 4 0) w.ubus] })
  jobRest (takeFaults s3 a (d.2 ++ r.2)) a

/-- A member's feedback decode task completes `td` time units after pick start: the interpolation job of its group is created with the last
one, in a pick in which the position loop of the members executes (R168, R170). A list without room leaves it uncreated. -/
def interpCreate (s : State) (a td : Nat) : State :=
  if inGroup s a ∧ loopDue s a 2 (psPick (ps s)) = true then
    let g := axGroup s a
    let s1 := modGrp s g (fun x => { x with decoded := if x.decoded.contains a then x.decoded else a :: x.decoded })
    if (grpMembers s1 g).all (fun m => (grpOf s1 g).decoded.contains m) then
      match axLane s1 a with
      | some ln =>
        let j : Job := { kind := 2, id := g, prio := grpPrio s1 g, made := s1.clk.pickT0 + td }
        let s2 := modGrp s1 g (fun x => { x with jobOpen := true })
        if newRoom s2 ln j then jobPush s2 ln j else s2
      | none => s1
    else s1
  else s

/-- An axis job has run: its tasks, and what the completion of its decode task at `td` creates, be it that a baseline still waits. -/
def axisJobRun (s : State) (a td : Nat) : State := interpCreate (axisJob s a) a td
/-- AXIS_JOB_COMPLETE: the running axis job of a lane, ends its tasks at the time given and writes its record back; its feedback decode
task ended before (R166, R168, R169). -/
def execAxisJobComplete (a : AxisNo) (t : JobTimes) (s : State) : Host.Outcome State Fault Refusal :=
  finishD s
    (let u := loomTo s t.done
     match laneRunning u 1 a.val with
     | some ln => laneDone (axisJobRun u a.val (min t.decode t.done)) ln t.done
     | none => s)

/-- INTERPOLATION_JOB_COMPLETE: the running interpolation job of a group ends (R170, R296). -/
def execInterpolationJobComplete (g : GroupNo) (t : Nat) (s : State) : Host.Outcome State Fault Refusal :=
  finishD s
    (let u := loomTo s t
     match laneRunning u 2 g.val with
     | some ln => laneDone (modGrp (interpJob u g.val) g.val (fun x => { x with jobOpen := false })) ln t
     | none => s)

/-- PROFILE_JOB_COMPLETE: the running profile job of an axis ends (R168, R277). -/
def execProfileJobComplete (a : AxisNo) (t : Nat) (s : State) : Host.Outcome State Fault Refusal :=
  finishD s
    (let u := loomTo s t
     match laneRunning u 3 a.val with
     | some ln => laneDone (modSm (profStep u a.val) a.val (fun m => { m with profDone := true })) ln t
     | none => s)

/-! ### Deadline and pick end (R176, R178) -/

/-- Jobs of a lane that the build deadline removes or stops: axis and interpolation jobs. -/
def lnCut (l : Lane) : List Job := (l.run.toList ++ l.pre.toList ++ lnAll l).filter (fun j => j.kind != 3)

/-- Remove the pre-deadline jobs of a lane (R176); a job stopped while it runs has spent lane cycles. -/
def laneCut (s : State) (ln : Nat) : State :=
  let js := lnCut (laneOf s ln)
  let s1 := modLnc (laneBusy s ln) ln (fun c => { c with jobsCut := satAdd 32 c.jobsCut js.length })
  modLane s1 ln lnClear
/-- The members of a group whose interpolation job was created and has not completed at the deadline (R180). -/
def interpMissing (s : State) (g : Nat) : State :=
  if (grpOf s g).jobOpen then forEach (grpMembers s g) (fun u a => overrun u a 5 (ps u)) (modGrp s g (fun x => { x with jobOpen := false })) else s

/-- The frame of a due pick is not accepted (R160). -/
def notAccepted (p : BitVec 32) (n : Node) : Node :=
  match n.lastAcc, n.sync with
  | some _, .sync => { n with sync := .wait false p }
  | _, _ => n

/-- Discard what a branch's parser has not finished (R175): held jobs, and frames still in the buffer. The coded channels of
the nodes restart (R180). -/
def parserDiscard (s : State) (b : Nat) : State :=
  let br := brOf s b
  forEach br.rxBuf (fun t f =>
    modNd t f.node (notAccepted (ps t)))
    (modBr s b (fun x => { x with rxBuf := [], held := [] }))

/-- The overrun of an axis whose due job has not completed at the deadline (R180), and the count of missing jobs (R210). -/
def axMissing (s : State) (a : Nat) : State :=
  let m := (axOf s a).sm
  let nd := ndOf s (axNode s a)
  if m.jobDue = true ∧ m.jobDone = false ∧ nd.admitted = true ∧ nd.muted = false then
    let s1 := overrun s a m.jobCause (ps s)
    if m.jobCause = 2 ∨ m.jobCause = 3 then modSm s1 a (fun x => { x with missRun := min (x.missRun + 1) 255 }) else s1
  else s

/-- The profile jobs of the pick enter the lists (R168, R171, R176). -/
def profJobs (s : State) : State :=
  forEach ((List.range 128).filter (fun a => axClass s a != 0 && profDue s a (psPick (ps s))))
    (fun t a =>
      match axLane t a with
      | some ln => jobPush (modSm t a (fun m => { m with profDone := false })) ln { kind := 3, id := a, prio := axPrio t a, made := s.clk.now }
      | none => t) s

/-- What the Loom does at the build deadline before the records are built (R175, R176, R180). `decoded` are axes whose running job has
ended its feedback decode task (R168). -/
def loomDeadline (s : State) (decoded : List Nat) : State :=
  let s0 := forEach (decoded.filter (fun a => (laneRunning s 1 a).isSome)) (fun t a => interpCreate t a (tDl s.clk.plen)) s
  let s1 := forEach (List.range 16) parserDiscard s0
  let s2 := forEach (List.range 16) interpMissing (forEach (List.range 8) laneCut s1)
  forEach ((List.range 128).filter (fun a => axClass s a != 0)) axMissing s2

/-- At the end of a bolt the cycles of the job that a lane still runs belong to it (R183); the job is discarded with the pick. -/
def laneLast (s : State) (ln : Nat) : State :=
  match (laneOf s ln).run with
  | some j => modLane (laneBusy s ln) ln (fun l => { l with run := none, list0 := j :: l.list0 })
  | none => s
/-- Discard the unfinished profile jobs of the pick that ends (R178), and empty every list, slot and buffer; the lanes whose
microcode has been reloaded resume (R181). The pick stamp is already that of the new pick. -/
def loomPickEnd (s : State) : State :=
  let s1 := forEach (List.range 8) (fun t ln =>
    let l := laneOf t ln
    let js := (l.run.toList ++ l.pre.toList ++ lnAll l).filter (fun j => j.kind = 3)
    let t1 := modLane (laneBusy t ln) ln (fun x => { lnClear x with stopped := x.dead, fPick := 0 })
    let t2 := modLnc t1 ln (fun c => { c with jobsLate := satAdd 32 c.jobsLate js.length })
    forEach js (fun u j => overrun u j.id 4 (ps u)) t2) s
  forEach (List.range 16) (fun t b => modBr t b (fun x => { x with rxBuf := [], held := [] })) s1

/-- What the axes and groups forget at the start of a pick, and which axis jobs are due in it (R168, R207). -/
def loomPickStart (s : State) : State :=
  let i := psPick (ps s)
  let s1 := forEach (List.range 128) (fun t a =>
    if axClass t a = 0 then t
    else modSm t a (fun m =>
      { m with changed := false, jobDone := false, decoded := false, jobCause := 2,
               jobDue := axDue s a i && (asgOf s (axNode s a)).isSome && !parsesOnly s })) s
  { s1 with grps := s1.grps.map (fun p => (p.1, { p.2 with decoded := [] })) }

/-! ### Faults that rest on the jobs -/

/-- FB_LOST holds for an axis (R210), with the frame of this pick counted once its gate has refused it. -/
def fbLostHolds (s : State) (a : Nat) : Bool :=
  let x := axOf s a
  let nd := ndOf s (axNode s a)
  let now := !s.clk.afterDl && x.sm.jobDue && !x.sm.jobDone && nd.gateNow && !nd.accNow
  placed s a && x.sm.jobSince && (decide (pnat s 0x0344 a ≤ x.sm.missRun + b2n now) || nd.muted || nd.lost || (brOf s (axNode s a / 4)).cut)
/-- Take FB_LOST if it holds: OFF, and the next decode takes a new baseline (R210, R250). -/
def fbLostTake (s : State) (a : Nat) : State :=
  when (fbLostHolds s a) (fun t =>
    takeFaults (modAx t a (fun x => { x with sm := { x.sm with jobSince := false }, fb := { x.fb with rebase := x.fb.valid } })) a [(0x6101, 2)]) s
/-- FB_LOST. What holds at the build deadline is taken there at the latest, since the record of the pick carries it. -/
def execFbLost (a : AxisNo) (s : State) : Host.Outcome State Fault Refusal := finishD s (fbLostTake s a)

/-- A quick stop ends with the power stage off (R209): the profile idles. -/
def qstopOff (s : State) (a : Nat) : State := axItem (profIdle (modSm s a (fun m => { m with react := 2, qsRest := none })) a) a

/-- QSTOP_END: v_ref = 0 and |v_act| ≤ LP_STANDSTILL_V have held for 32 consecutive picks (R209). -/
def execQstopEnd (a : AxisNo) (s : State) : Host.Outcome State Fault Refusal :=
  let m := (axOf s a).sm
  finishD s
    (match m.qsRest with
     | some p => if m.st = .fault ∧ m.react = 1 ∧ 31 ≤ psDiff (ps s) p then qstopOff s a else s
     | none => s)

/-- QSTOP_TIMEOUT: the quick stop has not ended LP_QSTOP_TMAX picks after it began (R209). -/
def execQstopTimeout (a : AxisNo) (s : State) : Host.Outcome State Fault Refusal :=
  let m := (axOf s a).sm
  finishD s
    (if m.st = .fault ∧ m.react = 1 ∧ pnat s 0x0346 a ≤ psDiff (ps s) m.qsT then qstopOff (raise s 0x610D a []) a else s)

/-- BOOT_UV: the BUV run count has reached 8, so the axis takes OFF (R238). -/
def execBootUv (a : AxisNo) (s : State) : Host.Outcome State Fault Refusal :=
  finishD s (when (decide (8 ≤ (axOf s a).md.buvRun)) (fun t => takeFaults t a [(0x7101, 2)]) s)

/-- OVERTEMP: the OTW run has reached MOD_OTW_T picks, so the axis takes QSTOP (R237). -/
def execOvertemp (a : AxisNo) (s : State) : Host.Outcome State Fault Refusal :=
  let m := (axOf s a).md
  finishD s
    (match m.otwPs with
     | some p => if pnat s 0x0405 a ≠ 0 ∧ pnat s 0x0405 a ≤ psDiff m.otwLast p + 1 then takeFaults s a [(0x7103, 1)] else s
     | none => s)

/-! ### Lane and store faults (R181) -/

/-- A job that a lane loses with its microcode (R180, R181): the members of an interpolation job and the axis of a profile job are affected
now, an axis job at the deadline. -/
def jobLose (s : State) (j : Job) : State :=
  if j.kind = 2 then forEach (grpMembers s j.id) (fun u a => overrun u a 1 (ps u)) (modGrp s j.id (fun x => { x with jobOpen := false }))
  else if j.kind = 3 then overrun s j.id 1 (ps s) else s
/-- The running axis job of a lane has ended its feedback decode task before it is stopped: the interpolation job may be created (R168). -/
def jobDecoded (s : State) (ln : Nat) : State :=
  match (laneOf s ln).run with
  | some j => if j.kind = 1 ∧ (laneOf s ln).stopped = false then interpCreate s j.id (s.clk.loomT - s.clk.pickT0) else s
  | none => s
/-- A microcode parity error of a lane: it stops, its jobs are removed with cause 0x1, and it is reloaded or stays stopped (R181). The jobs
removed count in JOBS_CUT, as those of the build deadline do, profile jobs among them (DESIGN CHOICE, log 120). -/
def laneParity (s0 : State) (ln : Nat) (decoded : Bool) : State :=
  let s := when decoded (fun t => jobDecoded t ln) (lanesGo s0)
  let l := laneOf s ln
  if l.dead then s
  else
    let second := match l.parityT with | some t => decide (s.clk.now - t < second) | none => false
    let js := l.run.toList ++ l.pre.toList ++ lnAll l
    let s1 := modLane (laneBusy s ln) ln (fun x => { lnClear x with stopped := true, dead := second, parityT := some s.clk.now })
    let s2 := modLnc s1 ln (fun c => { c with jobsCut := satAdd 32 c.jobsCut js.length })
    let s3 := raise (forEach js jobLose s2) 0x4104 ln [BitVec.ofNat 8 (b2n (!second))]
    if second then forEach ((List.range 128).filter (fun a => axLane s3 a = some ln)) (fun t a => takeFaults t a [(0x4104, 2)]) s3 else s3

/-- LANE_MICROCODE_PARITY_ERROR (R181). -/
def execLaneMicrocodeParityError (e : ParityErr) (s : State) : Host.Outcome State Fault Refusal := finishD s (laneParity s e.lane e.decoded)

/-- Stop the running or waiting job of a record without write-back; the lane goes on, and one whose prefetched job is stopped selects again
(R172). The job is on no list at the end of the pick, so a
profile job stopped here raises no cause 0x4 (DESIGN CHOICE, log 122). -/
def jobKill (s0 : State) (p : Job → Bool) : State :=
  let s := forEach ((List.range 8).filter (fun l => (laneOf s0 l).run.any p)) laneBusy (lanesGo s0)
  { s with lanes := s.lanes.map (fun q =>
      let l := q.2
      let keep := fun (js : List Job) => js.filter (fun j => !p j)
      let m : Lane := { l with list0 := keep l.list0, list1 := keep l.list1, list2 := keep l.list2, list3 := keep l.list3,
                               pre := l.pre.filter (fun j => !p j), run := l.run.filter (fun j => !p j) }
      (q.1, if l.pre.any p && m.run.isSome && !l.stopped then lnSelect m else m)) }

/-- STATE_ECC: an uncorrectable error in a record of a state store stops the jobs that load it, for a group also its members' profile jobs
(R295); the axis, or every member of the group,
takes OFF; a corrected one is counted (R181). -/
def execStateEcc (e : StoreErr) (s : State) : Host.Outcome State Fault Refusal :=
  finishD s
    (if e.corrected then { s with storeCorr := s.storeCorr + 1 } else match e.item with
     | .axis a =>
       let s1 := when e.decoded (fun t => match laneRunning t 1 a.val with | some ln => jobDecoded t ln | none => t) (lanesGo s)
       takeFaults (jobKill s1 (fun j => j.kind != 2 && j.id = a.val)) a [(0x4103, 2)]
     | .group g =>
       let mem := grpMembers s g
       forEach mem (fun t a => takeFaults t a [(0x4103, 2)]) (jobKill s (fun j => (j.kind = 2 && j.id = g.val) || (j.kind = 3 && mem.contains j.id))))

/-! ### Echo outputs -/

/-- The source of an echo output drives its steps: it is placed and not DISABLED (R266). -/
def echoLive (s : State) (e : Nat) : Bool :=
  let a := pnat s 0x0520 e
  a < 128 && placed s a && (axOf s a).sm.st != .disabled

/-- ECHO_STEP: one quadrature step of an output (R265). -/
def execEchoStep (e : EchoNo) (s : State) : Host.Outcome State Fault Refusal :=
  finishD s (when (echoLive s e && !isStandby s) (fun t => modEc t e echoStep1) s)

/-- The echo outputs at the start of a pick: dp of the pick just ended is accumulated, and the steps of the new pick are
taken from the backlog (R264, R265). Run before the marks of the pick just ended are cleared. -/
def echoPick (s : State) : State :=
  forEach (List.range 4) (fun t e =>
    let a := pnat t 0x0520 e
    if a < 128 then
      let x := axOf t a
      let dp := if x.sm.decoded then x.fb.pos - (ecOf t e).pos else 0
      let r := echoAcc (pnat t 0x0521 e) (pnat t 0x0522 e) (pnat t 0x0524 e = 1) dp (ecOf t e)
      modEc t e (fun _ => { echoSteps (tPick t) r.1 with pos := if x.sm.decoded then x.fb.pos else r.1.pos, dropped := r.1.dropped + r.2 })
    else t) s

end Sys2Proof.Machine
end

