-- ==== Sys2Proof/Machine/Coding.lean ====
section
/-! DEFINITION. Up frames and residual coding (R118, R119, R148 to R164): the channels of a node, the decoder, the sync
state, and the statistics of coding. -/
namespace Sys2Proof.Machine

/-! ### Channels (R47, R119, R148) -/

/-- Current and voltage channels of a class (R47): i_a 0, i_b 1, i_c 2, i_dc 3, u_bus 4. -/
def codedOf (cls : Nat) : List Nat :=
  if cls = 1 then [0, 1, 2, 4] else if cls = 2 then [3, 4] else if cls = 3 then [0, 1] else []
/-- The class carries a position count and an edge time stamp (R47). -/
def hasCount (cls : Nat) (enc : Bool) : Bool := cls = 1 || cls = 2 || cls = 4 || (cls = 3 && enc)

/-- What the decoder needs to know of one declared local axis: its index, class, encoder and mode. -/
structure LaxInfo where
  lax : Nat
  cls : Nat
  enc : Bool
  mode : Nat
deriving DecidableEq, Repr

/-- The local axes that an assignment's class map declares, in ascending order (R119). -/
def laxInfos (desc : Bytes) (g : SlotAsg) : List LaxInfo :=
  (List.range 8).filterMap (fun l =>
    let c := g.classes.getD l 0
    if c = 0 then none else some { lax := l, cls := c, enc := descAx desc l / 256 % 8 != 0, mode := g.codes.getD l 0 })

/-- The coded channels of a node in section order: local axis, channel and mode (R150). -/
def codedList (ls : List LaxInfo) : List (Nat × Nat × Nat) :=
  (ls.map (fun l => if l.mode = 0 then [] else (codedOf l.cls).map (fun c => (l.lax, c, l.mode)))).flatten
/-- X of R150: the escapes a frame may hold. -/
def escMax (cs : List (Nat × Nat × Nat)) : Nat := cdiv (cs.filter (fun c => c.2.2 = 1)).length 2

/-! ### The raw section (R119) -/

/-- Read the raw section: byte offset after it, and the channels of each axis. -/
def rawSection (pl : Bytes) : List LaxInfo → Nat → List (Nat × RawIn) × Nat
  | [], off => ([], off)
  | l :: ls, off =>
    let w := fun (i : Nat) => rdLe pl (off + 2 * i) 2
    let n0 := if hasCount l.cls l.enc then 2 else 0
    let r0 : RawIn := if hasCount l.cls l.enc then { cnt := w 0, edge := w 1 } else {}
    let r1 := { r0 with inp := BitVec.ofNat 16 (w n0) }
    let cs := if l.mode = 0 then codedOf l.cls else []
    let sv := fun (c : Nat) =>
      match cs.idxOf? c with
      | some i => ({ v := wrapS 16 (w (n0 + 1 + i)), tag := 0 } : Samp)
      | none => ({} : Samp)
    let r2 := { r1 with ia := sv 0, ib := sv 1, ic := sv 2, idc := sv 3, ubus := sv 4 }
    let rest := rawSection pl ls (off + 2 * (n0 + 1 + cs.length))
    ((l.lax, r2) :: rest.1, rest.2)

/-! ### The decoder (R152 to R157) -/

/-- The prediction of a channel (R152). -/
def predict (c : Chan) : Int := match c.st with | .live => sat16 (c.x1 + rshr (3 * (c.x1 - c.x2)) 2) | _ => 0
/-- The channel after a reconstruction y (R154). -/
def chanNext (c : Chan) (y : Int) : Chan :=
  match c.st with
  | .fresh => { st := .live, x1 := y, x2 := y }
  | _ => { c with x2 := c.x1, x1 := y }

/-- What one channel's fields say: bits used, escapes used, whether they are well formed, the channel, the sample and the
exponent received. -/
structure ChanOut where
  bits : Nat
  esc : Nat
  ok : Bool
  ch : Chan
  smp : Samp
  exp : Nat
deriving DecidableEq, Repr

/-- Read one channel at a bit position of the section (R154, R155). A channel that a standby has lost is read past. A lossless residual
that leaves the 16-bit range, which no conforming coder sends, saturates (DESIGN CHOICE, log 106). -/
def chanRead (sec : Nat) (pos : Nat) (key : Bool) (mode : Nat) (c : Chan) : ChanOut :=
  let g := fun (lo w : Nat) => nbits sec (pos + lo) w
  if key then
    if mode = 2 then
      let x := wrapS 16 (g 3 16)
      { bits := 19, esc := 0, ok := g 0 3 = 0, ch := { st := .live, x1 := x, x2 := x }, smp := { v := x, tag := 0 }, exp := 0 }
    else
      let x := wrapS 16 (g 0 16)
      { bits := 16, esc := 0, ok := true, ch := { st := .live, x1 := x, x2 := x }, smp := { v := x, tag := 0 }, exp := 0 }
  else if c.st = .unkeyed then
    if c.lost then
      let esc := mode != 2 && g 0 6 = 32
      { bits := if mode = 2 then 11 else if esc then 22 else 6, esc := b2n esc, ok := true, ch := c, smp := {}, exp := 0 }
    else { bits := 0, esc := 0, ok := true, ch := c, smp := {}, exp := 0 }
  else
    let p := predict c
    if mode = 1 then
      let r := wrapS 6 (g 0 6)
      if r = -32 then
        let y := wrapS 16 (g 6 16)
        { bits := 22, esc := 1, ok := true, ch := chanNext c y, smp := { v := y, tag := 0 }, exp := 0 }
      else if r = 31 then { bits := 6, esc := 0, ok := true, ch := chanNext c p, smp := { v := p, tag := 8 }, exp := 0 }
      else
        let y := sat16 (p + r)
        { bits := 6, esc := 0, ok := true, ch := chanNext c y, smp := { v := y, tag := 0 }, exp := 0 }
    else
      let e := g 0 3
      let q := wrapS 8 (g 3 8)
      if q = -128 then { bits := 11, esc := 0, ok := true, ch := chanNext c p, smp := { v := p, tag := 8 }, exp := e }
      else
        let y := sat16 (p + shl q e)
        { bits := 11, esc := 0, ok := true, ch := chanNext c y, smp := { v := y, tag := e }, exp := e }

/-- Read the channels of a section from index j and bit position pos on; u is the transmission index. -/
def sectionRead (sec u : Nat) : List (Nat × Nat × Nat) → List Chan → Nat → Nat → List ChanOut × Nat
  | [], _, _, pos => ([], pos)
  | c :: cs, chs, j, pos =>
    let o := chanRead sec pos (u % 8 = j % 8) c.2.2 (chs.headD {})
    let r := sectionRead sec u cs (chs.drop 1) (j + 1) (pos + o.bits)
    (o :: r.1, r.2)

/-- What a coded section says. -/
structure SecOut where
  ok : Bool
  outs : List ChanOut
deriving DecidableEq, Repr

/-- Decode a coded section of n bytes (R154, R157): fields within it, at most X escapes, key exponents 0, padding 0. -/
def sectionDecode (bs : Bytes) (u : Nat) (cs : List (Nat × Nat × Nat)) (chs : List Chan) : SecOut :=
  let sec := ofLe bs
  let r := sectionRead sec u cs chs 0 0
  { ok := decide (r.2 ≤ 8 * bs.length) && decide (nsum (r.1.map (·.esc)) ≤ escMax cs) && r.1.all (·.ok) && sec / 2 ^ r.2 = 0,
    outs := r.1 }

/-- Put a decoded sample into the channels of its axis. -/
def putSamp (r : RawIn) (c : Nat) (x : Samp) : RawIn :=
  if c = 0 then { r with ia := x } else if c = 1 then { r with ib := x } else if c = 2 then { r with ic := x }
  else if c = 3 then { r with idc := x } else { r with ubus := x }
/-- Put the samples of a section into the axes. -/
def putAll : List (Nat × Nat × Nat) → List ChanOut → List (Nat × RawIn) → List (Nat × RawIn)
  | c :: cs, o :: os, axs => putAll cs os (axs.map (fun p => if p.1 = c.1 then (p.1, putSamp p.2 c.2.1 o.smp) else p))
  | _, _, axs => axs

/-- Apply a request to the channels (R159): rekey makes every one UNKEYED, restart makes every LIVE one FRESH. -/
def applyReq (rekey : Bool) (cs : List Chan) : List Chan :=
  cs.map (fun c => if rekey then { st := .unkeyed } else if c.st = .live then { c with st := .fresh } else c)

/-! ### Requests (R160) -/

/-- A rekey requested for a node (R160). -/
def reqRekey (p : BitVec 32) (n : Node) : Node :=
  match n.lastAcc with
  | none => n
  | some _ =>
    match n.sync with
    | .sync => { n with sync := .wait true p }
    | .wait false _ => { n with sync := .wait true p }
    | .wait true _ => n

/-- A transmission under an assignment begins: the first one sets SYNC and every channel UNKEYED (R151, R160). -/
def asgBegin (desc : Bytes) (g : SlotAsg) (n : Node) : Node :=
  if n.asgBegun ∨ n.asg ≠ some g then n
  else
    { n with asgBegun := true, asgPrev := none, sync := .sync, lastAcc := none, waitTx := 0, stallRaised := false, kreqSeen := none, downMiss := false,
             chans := (codedList (laxInfos desc g)).map (fun _ => {}) }

/-- Count a transmission that leaves the node in WAIT (R164; the one that brought it there counts, log 44). -/
def waitCount (n : Node) : Node :=
  match n.sync with
  | .wait _ _ => { n with waitTx := min (n.waitTx + 1) 65535 }
  | .sync => { n with waitTx := 0, stallRaised := false }

/-- CODE_RESYNC_STALL: a node has stayed in WAIT for 8 consecutive transmissions (R164). -/
def execCodeResyncStall (n : NodeNo) (s : State) : Host.Outcome State Fault Refusal :=
  let nd := ndOf s n
  finishD s
    (if nd.sync ≠ .sync ∧ 8 ≤ nd.waitTx ∧ nd.stallRaised = false then
      raise (modNd s n (fun x => { x with stallRaised := true })) 0x310D n [BitVec.ofNat 8 (n.val / 4)]
     else s)

/-! ### What a frame leads to -/

/-- What the decoder makes of the payload of a frame: not well formed, or the channels of its axes with what changes. -/
structure FrameOut where
  ok : Bool
  discarded : Bool
  applied : Option Bool
  chans : List Chan
  axes : List (Nat × RawIn)
  outs : List (Nat × ChanOut)
deriving DecidableEq, Repr

/-- Decode the payload of a frame with given channel states. -/
def payloadDecode (pl : Bytes) (ls : List LaxInfo) (u : Nat) (applied : Option Bool) (chs : List Chan) : FrameOut :=
  let cs := codedList ls
  let raw := rawSection pl ls 0
  if cs = [] then { ok := true, discarded := false, applied := applied, chans := [], axes := raw.1, outs := [] }
  else
    let d := sectionDecode (pl.drop raw.2) u cs chs
    { ok := d.ok, discarded := false, applied := applied, chans := d.outs.map (·.ch), axes := putAll cs d.outs raw.1,
      outs := (cs.zip d.outs).map (fun p => (p.1.1, p.2)) }

/-- The test of R160 for a request pending since n0. Before a frame has been accepted under the assignment it takes the first one as
passing (a node put in WAIT at a takeover; DESIGN CHOICE, log 119). -/
def reqTest (p n0 : BitVec 32) (downBad : Nat) (acc : Option (BitVec 32 × Nat)) : Bool :=
  match acc with
  | some (a, d0) => decide (psDiff p a ≤ 255) && decide ((downBad + 256 - d0) % 256 < psDiff p n0)
  | none => true

/-- The active controller's decoding of an up frame that passes the guardian's other checks (R160). -/
def frameDecode (s : State) (nd : Node) (ls : List LaxInfo) (u downBad : Nat) (pl : Bytes) : FrameOut :=
  match nd.sync with
  | .sync => payloadDecode pl ls u none nd.chans
  | .wait rk n0 =>
    if reqTest (ps s) n0 downBad nd.lastAcc then payloadDecode pl ls u (some rk) (applyReq rk nd.chans)
    else
      let raw := rawSection pl ls 0
      { ok := true, discarded := (codedList ls) != [], applied := none, chans := nd.chans, axes := raw.1, outs := [] }

/-- The node after an accepted frame (R160). -/
def accNode (s : State) (o : FrameOut) (downBad : Nat) (nd : Node) : Node :=
  { nd with lastAcc := some (ps s, downBad), chans := o.chans,
            sync := match nd.sync with
              | .sync => .sync
              | .wait rk _ => match o.applied with | some _ => .sync | none => .wait rk (ps s) }

/-- The channels of a standby's decoder from index j on are lost until their next key (R161). One that is UNKEYED at the node stays so,
unless the node has sent its key in a transmission of index u that the standby did not take. -/
def chansLoseFrom (u : Option Nat) : Nat → List Chan → List Chan
  | _, [] => []
  | j, c :: cs =>
    let keyed := match u with | some v => v % 8 = j % 8 | none => false
    (if c.st = .unkeyed && !c.lost && !keyed then c else { st := .unkeyed, lost := true }) :: chansLoseFrom u (j + 1) cs
/-- A standby loses a node's coding state (R161). -/
def chansLose (u : Option Nat) (nd : Node) : Node := { nd with chans := chansLoseFrom u 0 nd.chans }

/-- A standby's decoding (R161): a request it has read is applied if the test of R160 holds; what it cannot establish makes
the channels lost. -/
def standbyDecode (s : State) (nd : Node) (ls : List LaxInfo) (u downBad : Nat) (pl : Bytes) : FrameOut :=
  if nd.downMiss then payloadDecode pl ls u none (chansLose none nd).chans
  else
    match nd.kreqSeen with
    | none => payloadDecode pl ls u none nd.chans
    | some (k, n0) =>
      if nd.lastAcc.isSome ∧ reqTest (ps s) n0 downBad nd.lastAcc = true then payloadDecode pl ls u (some (2 ≤ k)) (applyReq (2 ≤ k) nd.chans)
      else payloadDecode pl ls u none (chansLose none nd).chans

/-- Statistics and CODE_ERASURE of the coded samples of a frame (R163, R164). A standby keeps the statistics and raises nothing. -/
def codeStats (n : Nat) (o : FrameOut) (ls : List LaxInfo) (s : State) : State :=
  forEach (ls.filter (fun l => l.mode != 0)) (fun t l =>
    match axAt t n l.lax with
    | none => t
    | some a =>
      let mine := (o.outs.filter (fun p => p.1 = l.lax)).map (·.2)
      let er := (mine.filter (fun x => x.smp.tag = 8)).length
      let t1 := modCnt t a (fun c =>
        { c with esc := satAdd 32 c.esc (nsum (mine.map (·.esc))), erase := satAdd 32 c.erase er,
                 discard := if o.discarded then satInc 16 c.discard else c.discard,
                 restart := if o.applied = some false then satInc 16 c.restart else c.restart,
                 rekey := if o.applied = some true then satInc 16 c.rekey else c.rekey,
                 smaxNow := nmax (c.smaxNow :: (mine.map (·.exp))) })
      if er = 0 ∨ (axOf t1 a).sm.once.contains 0x310C = true ∨ isStandby t1 = true then t1
      else raise (modSm t1 a (onceAdd 0x310C)) 0x310C a [BitVec.ofNat 8 (n / 4), BitVec.ofNat 8 n]) s

end Sys2Proof.Machine
end

