-- ==== Sys2Proof/Machine/Warper.lean ====
section
/-! DEFINITION. The Warper (R40 to R76): capacity formulas, the steps of a full and of an incremental run, the Draft, the
report. A run works on the state with the values it applies already in place of those in force. -/
namespace Sys2Proof.Machine

/-! ### Capacities by pick length (R29, R49, R50, R54, R55) -/

/-- Byte-times of the up region (R49). -/
def airCap (c : Nat) : Nat := if c = 0 then 275 else if c = 1 then 360 else if c = 2 then 600 else 750
/-- Bytes of the longest down frame (R50). -/
def downCap (c : Nat) : Nat := if c = 0 then 243 else if c = 1 then 312 else if c = 2 then 518 else 668
/-- Whole byte-times of the compute tail (R54). -/
def tailCap (c : Nat) : Nat := if c = 0 then 60 else if c = 1 then 62 else if c = 2 then 85 else 97
/-- Picks in a second (R58). -/
def pickRate (c : Nat) : Nat := if c = 0 then 40000 else if c = 1 then 32000 else if c = 2 then 20000 else 16000

/-! ### Declarations and descriptors (R42, R44, R45) -/

/-- A branch is enabled (R45). -/
def brEnabled (s : State) (b : Nat) : Bool := nbit (pnat s 0x0200 0) b
/-- The enabled branches. -/
def brList (s : State) : List Nat := (List.range 16).filter (brEnabled s)
/-- The declared axes. -/
def declAxes (s : State) : List Nat := (List.range 128).filter (fun a => axClass s a != 0)
/-- A pinned phase of a loop: AX_PIN_PHASE with its enable (R41). -/
def pinPhase (s : State) (a k : Nat) : Option Nat :=
  let p := pnat s 0x010D a
  if nbit p 15 then some (p / 32 ^ k % 32) else none
/-- The loops of an axis that have a phase, fastest first: 0 current, 1 speed, 2 position. -/
def phasedLoops (s : State) (a : Nat) : List Nat :=
  if axClass s a ≤ 2 then [0, 1, 2].filter (axLoop s a) else [0]

/-- The pinned phases of an axis are below their rate classes and congruent (R42, R27). -/
def pinOk (s : State) (a : Nat) : Bool :=
  match pinPhase s a 0 with
  | none => true
  | some _ =>
    let ls := phasedLoops s a
    let ph := fun k => (pinPhase s a k).getD 0
    ls.all (fun k => decide (ph k < 2 ^ axRate s a k)) &&
      ls.all (fun j => ls.all (fun k => decide (k ≤ j) || decide (ph k % 2 ^ axRate s a j = ph j)))

/-- The declaration of one axis meets R42 on its own. -/
def declOk1 (s : State) (a : Nat) : Bool :=
  let c := axClass s a
  let l := fun k => axLoop s a k
  let r := fun k => axRate s a k
  if c = 0 then true
  else if c ≤ 2 then
    l 0 && (!(l 2) || l 1) && (!(l 1) || decide (r 0 ≤ r 1)) && (!(l 2) || decide (r 1 ≤ r 2)) &&
      (if c = 1 then axFmt s a ≤ 1 else axFmt s a = 2) && (!inGroup s a || l 2) && pinOk s a
  else decide (pnat s 0x0103 a = 0) && (c = 4 || axFmt s a = 3) && !inGroup s a && pinOk s a

/-- Every declaration meets R42. -/
def declOk (s : State) : Bool :=
  let as := declAxes s
  as.all (declOk1 s) &&
    (List.range 16).all (fun g =>
      let ms := grpMembers s g
      decide (ms.length ≤ 8) && ms.all (fun a => axRate s a 2 = axRate s (ms.headD 0) 2)) &&
    as.all (fun a => as.all (fun b => a = b || axNode s a != axNode s b || axLax s a != axLax s b))

/-- The network settings meet R45 and R126: a disabled branch, or windows below 45 byte-times, carry no declared axis; the
window count fits R54 at placement. R42 lists neither case for a commit of AX_DECL, so it is accepted and its run fails
(DESIGN CHOICE, log 95). -/
def netOk (s : State) : Bool :=
  (declAxes s).all (fun a => brEnabled s (axNode s a / 4) && decide (45 ≤ pnat s 0x0204 (axNode s a / 4)))

/-- The node's descriptor counts: it is integrated, or lost while its placement is kept (R69). -/
def nodeKnown (s : State) (n : Nat) : Bool := (ndOf s n).integrated || (ndOf s n).lost

/-- An encoder type serves an axis class (R243). -/
def encServes (c e : Nat) : Bool :=
  if c = 1 then e = 1 || e = 3 || e = 4 else if c = 2 then e = 2 else if c = 3 then e = 0 || e = 1 || e = 3 || e = 4
  else e = 1 || e = 2 || e = 3 || e = 4
/-- The descriptor of an integrated node offers the declared index, class, format and a fitting encoder of an axis (R44, R243). -/
def descAgrees (s : State) (a : Nat) : Bool :=
  let nd := ndOf s (axNode s a)
  if nodeKnown s (axNode s a) = false then true
  else
    let e := descAx nd.desc (axLax s a)
    decide (axLax s a < rdLe nd.desc 2 1 / 16) && nbit e (axClass s a - 1) && (axClass s a = 4 || nbit e (4 + axFmt s a)) &&
      encServes (axClass s a) (e / 256 % 8)

/-! ### Up air time (R47, R48, R150) -/

/-- A stepper counts as having an encoder (R44, R47). -/
def wEnc (s : State) (a : Nat) : Bool := !(ndOf s (axNode s a)).integrated || axEnc s a != 0
/-- Channels of an axis that are always raw (R47). -/
def rawChans (s : State) (a : Nat) : Nat := if hasCount (axClass s a) (wEnc s a) then 3 else 1
/-- Current and voltage channels of an axis (R47). -/
def curChans (s : State) (a : Nat) : Nat := (codedOf (axClass s a)).length
/-- The mode of an axis in step m of R62: 0 all raw, 1 lossless, 2 bounded. -/
def modeIn (s : State) (m a : Nat) : Nat := min m (pnat s 0x0105 a)
/-- Slot length of a node in byte-times, its axes coded by step m of R62 (R48, R150). -/
def slotLen (s : State) (m : Nat) (as : List Nat) : Nat :=
  let of := fun k => nsum ((as.filter (fun a => modeIn s m a = k)).map (curChans s))
  let nL := of 1
  let nB := of 2
  let nRaw := nsum (as.map (rawChans s)) + of 0
  let h := if 0 < nL then 10 else 8
  20 + cdiv (16 * nRaw + 6 * nL + 11 * nB + h * cdiv (nL + nB) 8 + 16 * cdiv nL 2) 8
/-- Rate code of a node: the smallest among the fastest loops of its axes (R48). -/
def nodeRate (s : State) (as : List Nat) : Nat := (as.map (fun a => axRate s a 0)).foldl min 5

/-- Effective spare slots of a branch (R45). -/
def spareEff (s : State) (b : Nat) : Nat :=
  min (pnat s 0x0201 b) ((List.range 4).filter (fun t => nodeAxes s (4 * b + t) = [])).length
/-- Taps of a branch with no integrated node (R49). -/
def joinTaps (s : State) (b : Nat) : List Nat := (List.range 4).filter (fun t => !nodeKnown s (4 * b + t))

/-! ### Failure and records -/

/-- A failed step: outcome, resource, instance, amounts and pick, with the records of the uses checked so far (R72, R73; log 24). -/
structure WFail where
  outcome : Nat
  res : Nat
  inst : Nat
  need : Nat
  avail : Nat
  pick : Nat
  recs : List ResRec := []
deriving DecidableEq, Repr

/-- The worst pick of a quantity: the largest value and its lowest pick. -/
def worst (f : Nat → Nat) : Nat × Nat :=
  (List.range 32).foldl (fun b i => if b.1 < f i then (f i, i) else b) (f 0, 0)

/-- Check a use against a capacity: the resource record, or the failure. -/
def wCheck (outcome res inst need cap pick : Nat) : Except WFail ResRec :=
  if need ≤ cap then .ok { res := res, pick := pick, inst := inst, used := need, cap := cap }
  else .error { outcome := outcome, res := res, inst := inst, need := need, avail := cap, pick := pick,
                recs := [{ res := res, pick := pick, inst := inst, used := need, cap := cap }] }

/-- Put the records of earlier checks before those of a failure. -/
def withRecs {α : Type} (rs : List ResRec) (x : Except WFail α) : Except WFail α :=
  match x with | .ok a => .ok a | .error e => .error { e with recs := rs ++ e.recs }

/-- Run checks in order and collect their records. -/
def wAll : List (Except WFail ResRec) → Except WFail (List ResRec)
  | [] => .ok []
  | .error e :: _ => .error e
  | .ok r :: rs => match wAll rs with | .ok l => .ok (r :: l) | .error e => .error { e with recs := r :: e.recs }

/-- Run a partial function over a list in order. -/
def wFold {α β : Type} (f : β → α → Except WFail β) : List α → β → Except WFail β
  | [], b => .ok b
  | x :: xs, b => match f b x with | .ok c => wFold f xs c | .error e => .error e

/-! ### Node phases (R61) -/

/-- A node as the run forms it. -/
structure WNode where
  node : Nat
  axs : List Nat
  rcode : Nat
  phase : Nat
  slen : Nat
deriving DecidableEq, Repr

/-- Air time of a branch in a pick: the slots of the nodes, spare slots and join slots (R49). -/
def airOf (s : State) (b : Nat) (ns : List WNode) (i : Nat) : Nat :=
  nsum ((ns.filter (fun n => n.node / 4 = b && dueIn i n.rcode n.phase)).map (·.slen)) + spareEff s b * pnat s 0x0202 b +
    (if i = 31 then 32 * (joinTaps s b).length else 0)

/-- The phases a node may take: those its pinned axes allow (R61, R65; log 20). -/
def nodePhases (s : State) (as : List Nat) (k : Nat) : List Nat :=
  (List.range (2 ^ k)).filter (fun p => as.all (fun a => match pinPhase s a 0 with | some q => q % 2 ^ k = p | none => true))

/-- Choose the phase of the next node (R61): the least largest air time of its branch, the lowest phase of equals. -/
def phaseNode (s : State) (done : List WNode) (n : Nat) (as : List Nat) : Except WFail (List WNode) :=
  let k := nodeRate s as
  let mk := fun p => ({ node := n, axs := as, rcode := k, phase := p, slen := slotLen s 0 as } : WNode)
  match argMin (fun p => ((worst (airOf s (n / 4) (done ++ [mk p]))).1 : Int)) (nodePhases s as k) with
  | some p => .ok (done ++ [mk p])
  | none => .error { outcome := 0x5002, res := 1, inst := n / 4, need := 0, avail := 0, pick := 0xFF }

/-! ### Coding and slots of a full run (R62, R63) -/

/-- Give the nodes of a branch the slot lengths of step m of R62. -/
def codeBranch (s : State) (b m : Nat) (ns : List WNode) : List WNode :=
  ns.map (fun n => if n.node / 4 = b then { n with slen := slotLen s m n.axs } else n)
/-- The phase of an axis is pinned where a pin can matter: some loop of it has a rate class above 1 (R65). -/
def phasePinned (s : State) (a : Nat) : Bool := (pinPhase s a 0).isSome && (phasedLoops s a).any (fun k => axRate s a k != 0)
/-- Choose the coding of one branch (R62): the nodes with their lengths, the step chosen and the record. A branch that fails
with a pinned node phase fails the pin (R65). -/
def chooseCoding (s : State) (b : Nat) (ns : List WNode) : Except WFail (List WNode × Nat × ResRec) :=
  let try1 := fun m =>
    let l := codeBranch s b m ns
    let w := worst (airOf s b l)
    (l, m, w)
  let ok := fun (x : List WNode × Nat × Nat × Nat) => decide (x.2.2.1 ≤ airCap s.clk.plen)
  let x := if ok (try1 0) then try1 0 else if ok (try1 1) then try1 1 else try1 2
  let pin := ns.any (fun n => n.node / 4 = b && n.rcode != 0 && n.axs.any (phasePinned s))
  match wCheck (if pin then 0x5002 else 0x5001) 1 b x.2.2.1 (airCap s.clk.plen) x.2.2.2 with
  | .ok r => .ok (x.1, x.2.1, r)
  | .error e => .error e

/-- Slot positions of the nodes of a branch (R63): pinned ones, then the free positions in ascending tap. -/
def slotPos (s : State) (b : Nat) (ns : List Nat) : Except WFail (List (Nat × Nat)) :=
  let pin := fun n => pnat s 0x0206 n
  let pinned := ns.filter (fun n => pin n < 4)
  let used := pinned.map pin
  if used.length ≠ (dedup used).length then .error { outcome := 0x5002, res := 1, inst := b, need := 0, avail := 0, pick := 0xFF }
  else
    let free := (List.range 4).filter (fun p => !used.contains p)
    .ok (pinned.map (fun n => (n, pin n)) ++ (ns.filter (fun n => 4 ≤ pin n)).zip free)

/-- The picks of a phase. -/
def picksOf (k ph : Nat) : List Nat := (List.range 32).filter (fun i => dueIn i k ph)

/-- The placement of the nodes of a branch with the starts of their slots and of the spare slots (R49, R63). -/
def slotsBranch (s : State) (b m : Nat) (all : List WNode) : Except WFail (List NodePl × List (Nat × Nat × List Nat)) :=
  let ns := all.filter (fun n => n.node / 4 = b)
  match slotPos s b (ns.map (·.node)) with
  | .error e => .error e
  | .ok ps =>
    let pos := fun n => (tabFind ps n).getD 0
    let before := fun (i p : Nat) => nsum ((ns.filter (fun n => pos n.node < p && dueIn i n.rcode n.phase)).map (·.slen))
    .ok
      (ns.map (fun n =>
        { node := n.node, rcode := n.rcode, phase := n.phase, slen := n.slen, pos := pos n.node, spare := none,
          starts := (picksOf n.rcode n.phase).map (fun i => (i, 15 + before i (pos n.node))),
          pinned := pnat s 0x0206 n.node < 4,
          classes := (List.range 8).map (fun l => ((n.axs.find? (fun a => axLax s a = l)).map (axClass s)).getD 0),
          codes := (List.range 8).map (fun l => ((n.axs.find? (fun a => axLax s a = l)).map (modeIn s m)).getD 0) }),
       (List.range (spareEff s b)).map (fun k =>
        (b, k, (List.range 32).map (fun i => 15 + before i 4 + k * pnat s 0x0202 b))))

/-! ### Down frames (R50) -/

/-- Bytes of the record of an axis (R50). -/
def recBytes (s : State) (a : Nat) : Nat := if axClass s a = 4 then 0 else if axFmt s a = 1 then 14 else 8
/-- Length of the down frame of a branch that carries these axes. -/
def downLen (s : State) (b : Nat) (as : List Nat) : Nat := 12 + nsum ((as.filter (fun a => axNode s a / 4 = b)).map (recBytes s))
/-- Check the down frames of the enabled branches. -/
def wDown (s : State) (as : List Nat) : Except WFail (List ResRec) :=
  wAll ((brList s).map (fun b => wCheck 0x5001 2 b (downLen s b as) (downCap s.clk.plen) 0xFF))

/-! ### Loop phases (R61) -/

/-- Cycles that the executions of one loop add, with what executes with them (R51). -/
def loopCycles (s : State) (a k : Nat) : Nat :=
  let c := axClass s a
  if k = 0 then (if c = 1 then 360 else if c = 2 then 130 else if c = 3 then 110 else 40)
  else if k = 1 then 60 + 30 * axBiquads s a
  else 50 + (if inGroup s a then 40 else 0)
/-- Add a loop to the load of the picks. -/
def addLoad (load : List Nat) (r ph w : Nat) : List Nat :=
  (List.range 32).map (fun i => load.getD i 0 + (if dueIn i r ph then w else 0))
/-- Phases of the loops of an axis: current, speed, position. -/
abbrev Phases := Nat × Nat × Nat
/-- The phase of loop k. -/
def phOf (p : Phases) (k : Nat) : Nat := if k = 0 then p.1 else if k = 1 then p.2.1 else p.2.2
/-- Set the phase of loop k. -/
def phSet (p : Phases) (k v : Nat) : Phases := if k = 0 then (v, p.2) else if k = 1 then (p.1, v, p.2.2) else (p.1, p.2.1, v)

/-- The load of a placed axis. -/
def axLoad (s : State) (load : List Nat) (a : Nat) (p : Phases) : List Nat :=
  (phasedLoops s a).foldl (fun l k => addLoad l (axRate s a k) (phOf p k) (loopCycles s a k)) load

/-- The candidates of a loop's phase (R61, R27). The first member of a group fixes its phase among those that it can take itself; one that a
later member cannot take fails the run there (DESIGN CHOICE, log 114). `np` is the node's rate code and phase, `gp` the position phase of the
axis's group, if fixed, `fast` the faster loops with their phases. -/
def phaseCands (s : State) (a k : Nat) (np : Nat × Nat) (gp : Option Nat) (fast : List (Nat × Nat)) : List Nat :=
  let r := axRate s a k
  (List.range (2 ^ r)).filter (fun p =>
    (fast != [] || decide (p % 2 ^ np.1 = np.2 % 2 ^ np.1)) &&
    fast.all (fun f => decide (p % 2 ^ f.1 = f.2)) &&
    (match gp with | some g => if k = 2 then p = g else decide (g % 2 ^ r = p) | none => true) &&
    (match pinPhase s a k with | some q => p = q | none => true))

/-- A pinned phase bears on the phases of an axis: its own, or one of its node or group (R65). -/
def pinNear (s : State) (a : Nat) : Bool :=
  (declAxes s).any (fun b => phasePinned s b && (a = b || axNode s a = axNode s b || (inGroup s a && axGroup s a = axGroup s b)))
/-- Choose the phases of one axis on the load of the picks (R61). -/
def phaseAxis (s : State) (a : Nat) (np : Nat × Nat) (gp : Option Nat) (load : List Nat) : Except WFail (Phases × List Nat) :=
  match wFold (fun (st : Phases × List Nat × List (Nat × Nat)) k =>
      let w := loopCycles s a k
      let r := axRate s a k
      match argMin (fun p => (nmax (addLoad st.2.1 r p w) : Int)) (phaseCands s a k np gp st.2.2) with
      | some p => .ok (phSet st.1 k p, addLoad st.2.1 r p w, st.2.2 ++ [(r, p)])
      | none =>
        .error { outcome := if pinNear s a then 0x5002 else 0x5001, res := 3, inst := 0xFFFF, need := 0, avail := 0, pick := 0xFF })
    (phasedLoops s a) ((0, 0, 0), load, []) with
  | .ok st => .ok (st.1, st.2.1)
  | .error e => .error e

/-- The phases of axes: pairs of an axis and its phases. -/
abbrev PhTab := List (Nat × Phases)
/-- The position phase that the placed members of an axis's group have fixed. -/
def grpPhase (s : State) (t : PhTab) (a : Nat) : Option Nat :=
  if inGroup s a then (t.find? (fun p => axGroup s p.1 = axGroup s a)).map (fun p => p.2.2.2) else none

/-- Axes in the order of R61 and R64: ascending AX_PRIO, then ascending number. -/
def byPrio (s : State) (as : List Nat) : List Nat :=
  sortBy (fun a b => axPrio s a < axPrio s b || (axPrio s a = axPrio s b && decide (a < b))) as

/-- Choose the loop phases of new axes beside kept ones (R61, R67). -/
def phasesAll (s : State) (nodes : List NodePl) (kept : PhTab) (new : List Nat) : Except WFail PhTab :=
  let load0 := kept.foldl (fun l p => axLoad s l p.1 p.2) (List.replicate 32 0)
  match wFold (fun (st : PhTab × List Nat) a =>
      let np := match nodes.find? (fun n => n.node = axNode s a) with | some n => (n.rcode, n.phase) | none => (0, 0)
      match phaseAxis s a np (grpPhase s st.1 a) st.2 with
      | .ok r => .ok (st.1 ++ [(a, r.1)], r.2)
      | .error e => .error e) (byPrio s new) (kept, load0) with
  | .ok st => .ok st.1
  | .error e => .error e

/-! ### Lanes (R52, R53, R64) -/

/-- Pre-deadline cycles of an axis's job in pick i from its phases, without interpolation (R51). -/
def cycIn (s : State) (t : PhTab) (a i : Nat) : Nat :=
  match tabFind t a with
  | some p =>
    let d := fun k => (phasedLoops s a).contains k && dueIn i (axRate s a k) (phOf p k)
    jobCycles (axClass s a) (axBiquads s a) (d 0) (d 1) (d 2)
  | none => 0
/-- The position loop of an axis executes in pick i. -/
def posIn (s : State) (t : PhTab) (a i : Nat) : Bool :=
  match tabFind t a with | some p => axLoop s a 2 && dueIn i (axRate s a 2) p.2.2 | none => false
/-- Ready time of a node's batch in pick i, if it sends (R52). -/
def readyOf (nodes : List NodePl) (n i : Nat) : Option Nat :=
  match nodes.find? (fun x => x.node = n) with
  | some x => (x.starts.find? (fun p => p.1 = i)).map (fun p => 16 * (p.2 + x.slen) + 28)
  | none => none

/-- The batches of a lane in pick i: ready time and cycles (R52). -/
def batches (s : State) (nodes : List NodePl) (t : PhTab) (as : List Nat) (i : Nat) : List (Nat × Nat) :=
  let ns := dedup (as.map (axNode s))
  let gs := dedup ((as.filter (fun a => inGroup s a && posIn s t a i)).map (axGroup s))
  let rd := fun n => (readyOf nodes n i).getD 0
  let lastOf := fun g =>
    (as.filter (fun a => inGroup s a && axGroup s a = g)).foldl (fun (b : Nat × Nat) a =>
      if b.1 < rd (axNode s a) then (rd (axNode s a), axNode s a) else b) (0, axNode s ((as.filter (fun a => axGroup s a = g)).headD 0))
  let w := fun n =>
    nsum ((as.filter (fun a => axNode s a = n)).map (fun a => cycIn s t a i)) +
      nsum ((gs.filter (fun g => (lastOf g).2 = n)).map (fun g => 40 * (as.filter (fun a => inGroup s a && axGroup s a = g)).length))
  sortBy (fun x y => x.1 < y.1) ((ns.filterMap (fun n => (readyOf nodes n i).map (fun r => (r, w n)))).filter (fun x => x.2 != 0))

/-- F of a lane in pick i (R52). -/
def laneF (s : State) (nodes : List NodePl) (t : PhTab) (as : List Nat) (i : Nat) : Nat :=
  (batches s nodes t as i).foldl (fun f b => max f b.1 + cdiv b.2 2) 240
/-- P_l of a lane in pick i: cycles of the profile steps (R53). -/
def lanePost (s : State) (t : PhTab) (as : List Nat) (i : Nat) : Nat :=
  80 * (as.filter (fun a =>
    hasProfile s a && (match tabFind t a with
      | some p => dueIn ((i + 1) % 32) (axRate s a (if axClass s a = 3 then 0 else 2)) (if axClass s a = 3 then p.1 else p.2.2)
      | none => false))).length

/-- Axes by lane. -/
abbrev LaneTab := List (Nat × Nat)
/-- The axes on a lane. -/
def onLane (l : LaneTab) (ln : Nat) : List Nat := (l.filter (fun p => p.2 = ln)).map (·.1)

/-- The first batch of an axis (R64): the first pick in which its node sends, with its ready time. -/
def firstBatch (nodes : List NodePl) (n : Nat) : Nat × Nat :=
  match (List.range 32).findSome? (fun i => (readyOf nodes n i).map (fun r => (i, r))) with
  | some x => x
  | none => (32, 0)

/-- A unit of the lane map: axes that go together, and the lane that a member is pinned to (R64). -/
def laneUnits (s : State) (new : List Nat) : List (List Nat × List Nat) :=
  (dedup (new.map (fun a => if inGroup s a then 128 + axGroup s a else a))).map (fun u =>
    let as := if 128 ≤ u then new.filter (fun a => inGroup s a && axGroup s a = u - 128) else [u]
    (as, dedup ((as.map (fun a => pnat s 0x010C a)).filter (· < 8))))

/-- The lane of the kept members of a unit's group. -/
def keptLane (s : State) (have' : LaneTab) (u : List Nat × List Nat) : Option Nat :=
  let a := u.1.headD 0
  if inGroup s a then (have'.find? (fun p => inGroup s p.1 && axGroup s p.1 = axGroup s a)).map (·.2) else none
/-- The lane a unit is bound to: pinned, or the lane its group already has. -/
def unitLane (s : State) (have' : LaneTab) (u : List Nat × List Nat) : Option Nat :=
  match u.2 with
  | p :: _ => some p
  | [] => keptLane s have' u

/-- The key by which a lane is chosen for a unit: largest F, largest post-deadline load, lane (R64). A lane that stays
stopped has no lane time (R181). -/
def laneKey (s : State) (nodes : List NodePl) (t : PhTab) (have' : LaneTab) (as : List Nat) (ln : Nat) : Int :=
  let xs := onLane have' ln ++ as
  let f := if (laneOf s ln).dead then 2 ^ 40 else (worst (laneF s nodes t xs)).1
  ((f * 2 ^ 40 + (worst (lanePost s t xs)).1) * 16 + ln : Nat)

/-- Place one unit on its lane. -/
def placeUnit (s : State) (nodes : List NodePl) (t : PhTab) (have' : LaneTab) (u : List Nat × List Nat) : LaneTab :=
  match unitLane s have' u with
  | some ln => have' ++ u.1.map (fun a => (a, ln))
  | none =>
    match argMin (laneKey s nodes t have' u.1) (List.range 8) with
    | some ln => have' ++ u.1.map (fun a => (a, ln))
    | none => have'

/-- A unit whose pins cannot be honoured together: two lanes, or another lane than the kept members of its group have (R65). -/
def pinSplit (s : State) (have' : LaneTab) (u : List Nat × List Nat) : Bool :=
  decide (2 ≤ u.2.length) || (match keptLane s have' u with | some ln => u.2.any (· != ln) | none => false)

/-- The lane map (R64): bound units first, the rest in order of AX_PRIO, first batch and number. -/
def laneMap (s : State) (nodes : List NodePl) (t : PhTab) (kept : LaneTab) (new : List Nat) : Except WFail LaneTab :=
  let ord := sortBy (fun a b =>
      let fa := firstBatch nodes (axNode s a)
      let fb := firstBatch nodes (axNode s b)
      let ka := (((axPrio s a * 64 + fa.1) * 65536 + fa.2) * 128 + a : Nat)
      let kb := (((axPrio s b * 64 + fb.1) * 65536 + fb.2) * 128 + b : Nat)
      decide (ka < kb)) new
  let us := laneUnits s ord
  let bound := us.filter (fun u => (unitLane s kept u).isSome)
  let rest := us.filter (fun u => (unitLane s kept u).isNone)
  match us.find? (pinSplit s kept) with
  | some u => .error { outcome := 0x5002, res := 3, inst := u.2.headD 0, need := 0, avail := 0, pick := 0xFF }
  | none => .ok (rest.foldl (placeUnit s nodes t) (bound.foldl (placeUnit s nodes t) kept))

/-- Check the lanes before and after the deadline (R52, R53). A lane that fails with an axis of a pinned lane or phase fails the
pin (R65). -/
def wLanes (s : State) (nodes : List NodePl) (t : PhTab) (l : LaneTab) : Except WFail (List ResRec) :=
  let c := s.clk.plen
  let out := fun ln => if (onLane l ln).any (fun a => pnat s 0x010C a = ln || phasePinned s a) then 0x5002 else 0x5001
  wAll ((List.range 8).map (fun ln =>
      let w := worst (laneF s nodes t (onLane l ln))
      wCheck (out ln) 3 ln (if (laneOf s ln).dead && onLane l ln != [] then 2 ^ 16 else w.1) (tDl c) w.2) ++
    (List.range 8).map (fun ln =>
      let w := worst (lanePost s t (onLane l ln))
      wCheck (out ln) 4 ln (tDl c + cdiv w.1 2) (pickUnits c) w.2))

/-! ### Tail, Selvedge, Draft, memory (R54 to R58) -/

/-- Check the compute tail (R54). -/
def wTail (s : State) : Except WFail (List ResRec) :=
  wAll ((brList s).map (fun b => wCheck 0x5001 5 b (pnat s 0x0203 b) (32 * (tailCap s.clk.plen / pnat s 0x0204 b)) 0xFF))

/-- M of R55. -/
def mirrorLoad (s : State) : Nat :=
  32 + nsum ((declAxes s).map (fun a =>
    let c := axClass s a
    if c = 1 then 40 else if c = 2 then 24 else if c = 3 then 20 else 8))
/-- Check the Selvedge (R55). -/
def wSel (s : State) : Except WFail (List ResRec) :=
  if pnat s 0x0B00 0 = 1 then wAll [wCheck 0x5001 6 0xFFFF (mirrorLoad s + pnat s 0x0B05 0) (selCap s.clk.plen * 9 / 10) 0xFF] else .ok []

/-- Pool need of an axis in MiB (R58). -/
def poolNeed (s : State) (a : Nat) : Nat :=
  cdiv (pnat s 0x010A a * 4 * pickRate s.clk.plen * pnat s 0x010B a * 17) (16 * 2 ^ 20)
/-- The lowest base at which n granules are free beside the regions in use (R57). -/
def firstFit (used : List (Nat × Nat)) (n : Nat) : Option Nat :=
  (sortAsc (0 :: used.map (fun u => u.1 + u.2))).find? (fun b =>
    decide (b + n ≤ 3840) && used.all (fun u => u.2 = 0 || decide (b + n ≤ u.1) || decide (u.1 + u.2 ≤ b)))
/-- Allocate needs in order, first-fit. -/
def allocAll : List (Nat × Nat) → List (Nat × Nat) → Option (List (Nat × Nat × Nat))
  | [], _ => some []
  | (x, n) :: xs, used =>
    if n = 0 then (allocAll xs used).map (fun r => (x, 0, 0) :: r)
    else
      match firstFit used n with
      | some b => (allocAll xs ((b, n) :: used)).map (fun r => (x, b, n) :: r)
      | none => none

/-- A Draft entry with the defaults of R133. -/
def dent (kind dir b pick start len : Nat) : DEnt :=
  { kind := kind, dir := dir, branch := b, allbr := false, pick := pick, start := start, len := len, node := 0, coding := 0,
    await := false, late := false, pin := false }

/-- The acyclic windows of a branch in a pick: their number (R54). No more than fit in the compute tail lie in a pick (R29). -/
def acycIn (s : State) (b i : Nat) : Nat :=
  let n := pnat s 0x0203 b
  min (if 32 < n then 2 else if i % (32 / n) = b % (32 / n) then 1 else 0) (tailCap s.clk.plen / pnat s 0x0204 b)

/-- A pick of a spare slot is taken by a late-comer (R67). -/
def spareTaken (pl : Place) (b k i : Nat) : Bool := pl.taken.any (fun x => x.1 = b && x.2.1 = k && dueIn i x.2.2.1 x.2.2.2)

/-- The join slots of a branch: their start in byte-times, behind the last up or spare slot of pick 31 with no space between
(R49). A spare slot keeps its offset, also behind one that a shorter late-comer has taken (DESIGN CHOICE, log 99). -/
def joinBase (s : State) (pl : Place) (b : Nat) : Nat :=
  let ups := (pl.nodes ++ pl.left).filter (fun n => n.node / 4 = b)
  let e1 := nmax (15 :: (ups.map (fun n => ((n.starts.find? (fun p => p.1 = 31)).map (fun p => p.2 + n.slen)).getD 15)))
  let e2 := nmax ((pl.spares.filter (fun x => x.1 = b && !spareTaken pl b x.2.1 31)).map (fun x => x.2.2.getD 31 15 + pnat s 0x0202 b))
  max e1 e2

/-- The Draft of a placement on the enabled branches (R46, R56, R133, R134). `as` are the axes with records. The slots that moved
nodes have left stay as up entries of these nodes and count in E (DESIGN CHOICE, log 96). -/
def draftOf (s : State) (pl : Place) (as : List Nat) : List DEnt :=
  let c := s.clk.plen
  let marks := (List.range 32).map (fun i => { dent 1 0 0 i 0 160 with allbr := true })
  let perBr := fun b =>
    (List.range 32).map (fun i => dent 2 0 b i (downStart c) (16 * downLen s b as)) ++ [dent 6 0 b (2 * b) (downEnd c) 300] ++
      ((List.range 32).map (fun i => (List.range (acycIn s b i)).map (fun k => dent 7 0 b i (upEnd c + 16 * k * pnat s 0x0204 b) (16 * pnat s 0x0204 b)))).flatten ++
      (((pl.nodes ++ pl.left).filter (fun n => n.node / 4 = b)).map (fun n =>
        n.starts.map (fun p => { dent 3 1 b p.1 (16 * p.2) (16 * n.slen) with
          node := n.node, coding := nmax n.codes, await := !nodeKnown s n.node, late := n.spare.isSome, pin := n.pinned }))).flatten ++
      ((pl.spares.filter (fun x => x.1 = b)).map (fun x =>
        ((List.range 32).filter (fun i => !spareTaken pl b x.2.1 i)).map (fun i => dent 5 1 b i (16 * x.2.2.getD i 0) (16 * pnat s 0x0202 b)))).flatten ++
      (let ts := (joinTaps s b).zip (List.range 4)
       ts.map (fun t => { dent 4 1 b 31 (16 * (joinBase s pl b + 32 * t.2)) 512 with node := 4 * b + t.1 }))
  sortBy (fun x y => decide ((x.pick * 2 ^ 15 + x.start) * 16 + x.branch < (y.pick * 2 ^ 15 + y.start) * 16 + y.branch))
    (marks ++ ((brList s).map perBr).flatten)

/-- The Draft before the first run (R97). -/
def draft0 (s : State) : List DEnt := draftOf s {} []

/-! ### The placement from its parts -/

/-- The record of a placed axis (R75). CYC counts the axis's own job, without the interpolation of its group (DESIGN CHOICE, log 98). -/
def axisRec (s : State) (nodes : List NodePl) (t : PhTab) (l : LaneTab) (pool : List (Nat × Nat × Nat)) (order a : Nat) : AxisPl :=
  let n := axNode s a
  let p := (tabFind t a).getD (0, 0, 0)
  let np := nodes.find? (fun x => x.node = n)
  let m := (pool.find? (fun x => x.1 = a)).getD (a, 0, 0)
  { axis := a, node := n, lax := axLax s a, unplaced := false, why := 0, lane := (tabFind l a).getD 15,
    coding := (np.map (fun x => x.codes.getD (axLax s a) 0)).getD 0, phCur := p.1, phSpd := p.2.1, phPos := p.2.2,
    cyc := (worst (cycIn s t a)).1, poolBase := m.2.1, poolSize := m.2.2, late := order != 0, order := order,
    await := !nodeKnown s n, pinSp := pnat s 0x0206 n < 4 || (pinPhase s a 0).isSome, pinLn := pnat s 0x010C a < 8,
    slot := (np.map (·.pos)).getD 0 }
/-- The record of an unplaced axis (R75). -/
def axisUnplaced (s : State) (why a : Nat) : AxisPl :=
  { axis := a, node := axNode s a, lax := axLax s a, unplaced := true, why := why, lane := 15, coding := 0, phCur := 0, phSpd := 0,
    phPos := 0, cyc := 0, poolBase := 0, poolSize := 0, late := false, order := 0, await := !nodeKnown s (axNode s a),
    pinSp := pnat s 0x0206 (axNode s a) < 4 || (pinPhase s a 0).isSome, pinLn := pnat s 0x010C a < 8, slot := 0 }

/-- A record with AWAIT as it stands now (R75). -/
def awaitNow (s : State) (x : AxisPl) : AxisPl := { x with await := !nodeKnown s x.node }
/-- Ascending axis order. -/
def axSort (as : List AxisPl) : List AxisPl := sortBy (fun x y => decide (x.axis < y.axis)) as

/-- What a run answers: the placement with its resource records, or the failure with the axes that move. -/
abbrev WRes := Except (WFail × List Nat) (Place × List ResRec)
/-- A failure without moving axes. -/
def noMove {α : Type} (r : Except WFail α) : Except (WFail × List Nat) α :=
  match r with | .ok x => .ok x | .error e => .error (e, [])
/-- A failure that is no capacity check. -/
def plainFail (outcome : Nat) : WFail := { outcome := outcome, res := 0, inst := 0xFFFF, need := 0, avail := 0, pick := 0xFF }

/-- Memory of a run (R58): kept regions, the needs of new axes, and of the units in a full run. -/
def wMemory (used : List (Nat × Nat)) (needs : List (Nat × Nat)) : Except WFail (List (Nat × Nat × Nat) × ResRec) :=
  let total := nsum (used.map (·.2)) + nsum (needs.map (·.2))
  match wCheck 0x5001 8 0xFFFF total 3840 0xFF with
  | .error e => .error e
  | .ok r =>
    match allocAll needs used with
    | some m => .ok (m, r)
    | none => .error { outcome := 0x5001, res := 8, inst := 0xFFFF, need := total, avail := 3840 - nsum (used.map (·.2)), pick := 0xFF }

/-- The checks and choices from the down frames on (steps 5 to 12 of R60), for new axes beside kept ones. -/
def wRest (s : State) (pl : Place) (kept : List AxisPl) (new : List Nat) (order : Nat → Nat) (bad : List Nat) (units : List (Nat × Nat))
    (recs : List ResRec) : Except WFail (Place × List ResRec) := do
  let as := kept.map (·.axis) ++ new
  let r5 ← withRecs recs (wDown s as)
  let c5 := recs ++ r5
  let t ← withRecs c5 (phasesAll s pl.nodes (kept.map (fun k => (k.axis, (k.phCur, k.phSpd, k.phPos)))) new)
  let l ← withRecs c5 (laneMap s pl.nodes t (kept.map (fun k => (k.axis, k.lane))) new)
  let r7 ← withRecs c5 (wLanes s pl.nodes t l)
  let r9 ← withRecs (c5 ++ r7) (wTail s)
  let r10 ← withRecs (c5 ++ r7 ++ r9) (wSel s)
  let d := draftOf s pl as
  let c10 := c5 ++ r7 ++ r9 ++ r10
  let r11 ← withRecs c10 (wAll [wCheck 0x5001 7 0xFFFF d.length 3072 0xFF])
  let m ← withRecs (c10 ++ r11) (wMemory (kept.map (fun k => (k.poolBase, k.poolSize)) ++ pl.acq.map (fun u => (u.2.1, u.2.2)))
    (new.map (fun a => (a, poolNeed s a)) ++ units.map (fun u => (256 + u.1, u.2))))
  let acq := pl.acq ++ (m.1.filter (fun x => decide (256 ≤ x.1))).map (fun x => (x.1 - 256, x.2.1, x.2.2))
  let recsAx := kept ++ new.map (fun a => axisRec s pl.nodes t l m.1 (order a) a) ++ bad.map (axisUnplaced s 0x5006)
  .ok ({ pl with axes := axSort recsAx, draft := d, acq := acq }, c10 ++ r11 ++ [m.2])

/-! ### The full run (R60, R71) -/

/-- The placement of a full run, before it is compared with the one in force. -/
def fullPlace (s : State) : Except WFail (Place × List ResRec) := do
  if !(declOk s && netOk s) then .error (plainFail 0x5005)
  let bad := (declAxes s).filter (fun a => !descAgrees s a)
  let good := (declAxes s).filter (descAgrees s)
  let nodes := (List.range 64).filter (fun n => good.any (fun a => axNode s a = n))
  let ns ← wFold (fun done n => phaseNode s done n (good.filter (fun a => axNode s a = n))) nodes []
  let cod ← wFold (fun (st : List WNode × List (Nat × Nat) × List ResRec) b =>
      match chooseCoding s b st.1 with
      | .ok x => .ok (x.1, st.2.1 ++ [(b, x.2.1)], st.2.2 ++ [x.2.2])
      | .error e => withRecs st.2.2 (.error e)) (brList s) (ns, [], [])
  let sl ← wFold (fun (st : List NodePl × List (Nat × Nat × List Nat)) b =>
      match slotsBranch s b ((tabFind cod.2.1 b).getD 0) cod.1 with
      | .ok x => .ok (st.1 ++ x.1, st.2 ++ x.2)
      | .error e => .error e) (brList s) ([], [])
  wRest s { nodes := sl.1, spares := sl.2 } [] good (fun _ => 0) bad ((List.range 8).map (fun u => (u, pnat s 0x070B u))) cod.2.2

/-- An axis is affected by a full run: its slot, phase, coding or lane changes (R71). -/
def affected (old new : Place) (a : Nat) : Bool :=
  match old.axes.find? (fun x => x.axis = a && !x.unplaced), new.axes.find? (fun x => x.axis = a && !x.unplaced) with
  | some x, some y =>
    let nd := fun (p : Place) (n : Nat) => (p.nodes.find? (fun z => z.node = n)).map (fun z => (z.starts, z.slen, z.rcode, z.phase))
    x.lane != y.lane || x.coding != y.coding || x.phCur != y.phCur || x.phSpd != y.phSpd || x.phPos != y.phPos || x.node != y.node ||
      x.lax != y.lax || nd old x.node != nd new y.node
  | some _, none => true
  | none, _ => false

/-- The full run (R71). -/
def fullRun (s : State) : WRes :=
  match fullPlace s with
  | .error e => .error (e, [])
  | .ok r =>
    let mov := (List.range 128).filter (fun a => affected s.warp.place r.1 a &&
      (match (axOf s a).sm.st with | .moving => true | .hold => true | .fault => true | .safeOff => true | _ => false))
    if mov = [] then .ok r else .error (plainFail 0x5003, mov)

/-! ### The incremental run (R66, R67, R70) -/

/-- The classes of these axes by local axis. -/
def slotClasses (s : State) (as : List Nat) : List Nat := (List.range 8).map (fun l => ((as.find? (fun a => axLax s a = l)).map (axClass s)).getD 0)

/-- The phases that a late-comer may take in a spare slot: all their picks are free. A node that moves keeps its phase (R66, R67). -/
def spareRoom (s : State) (pl : Place) (b k r : Nat) (old : Option NodePl) (as : List Nat) : List Nat :=
  (match old with | some p => [p.phase % 2 ^ r] | none => nodePhases s as r).filter (fun ph =>
    (picksOf r ph).all (fun i => !spareTaken pl b k i))

/-- Up air time of a branch in a pick under a placement: its up, spare and join slots (R49). -/
def airPl (s : State) (pl : Place) (b i : Nat) : Nat :=
  let due := fun (n : NodePl) => n.node / 4 = b && dueIn i n.rcode n.phase
  nsum (((pl.nodes ++ pl.left).filter due).map (·.slen)) +
    pnat s 0x0202 b * (pl.spares.filter (fun x => x.1 = b && !spareTaken pl b x.2.1 i)).length + (if i = 31 then 32 * (joinTaps s b).length else 0)

/-- Raw up air time of a branch in a pick under a placement, every axis counted raw (R61). -/
def airRaw (s : State) (pl : Place) (b i : Nat) : Nat :=
  let due := fun (n : NodePl) => n.node / 4 = b && dueIn i n.rcode n.phase
  let raw := fun (n : NodePl) => slotLen s 0 ((pl.axes.filter (fun x => x.node = n.node && !x.unplaced)).map (·.axis))
  nsum ((pl.nodes.filter due).map raw) + nsum ((pl.left.filter due).map (·.slen)) +
    pnat s 0x0202 b * (pl.spares.filter (fun x => x.1 = b && !spareTaken pl b x.2.1 i)).length + (if i = 31 then 32 * (joinTaps s b).length else 0)

/-- Place a node in a spare slot of its branch: the lowest one with room, in the phase that leaves the least largest raw air time
(R61, R67, R70). A pinned slot position, which a spare slot is not, and a pinned phase without which a spare slot had room, fail the pin
(R65). -/
def lateNode (s : State) (pl : Place) (n : Nat) (as : List Nat) : Except WFail Place :=
  let b := n / 4
  let cap := pnat s 0x0202 b
  let m := if slotLen s 0 as ≤ cap then 0 else if slotLen s 1 as ≤ cap then 1 else 2
  let len := slotLen s m as
  let r := nodeRate s as
  let old := pl.nodes.find? (fun z => z.node = n)
  let mine := pl.spares.filter (fun x => x.1 = b)
  let free := fun (x : Nat × Nat × List Nat) => (List.range (2 ^ r)).any (fun ph => (picksOf r ph).all (fun i => !spareTaken pl b x.2.1 i))
  if pnat s 0x0206 n < 4 || (old.isNone && nodePhases s as r = []) then .error { outcome := 0x5002, res := 1, inst := b, need := 0, avail := 0, pick := 0xFF }
  else
    match mine.find? (fun x => spareRoom s pl b x.2.1 r old as != []) with
    | none => .error { outcome := if old.isNone && mine.any free then 0x5002 else 0x5001, res := 1, inst := b, need := len, avail := 0, pick := 0xFF }
    | some x =>
      if cap < len then .error { outcome := 0x5001, res := 1, inst := b, need := len, avail := cap, pick := 0xFF }
      else
        let air := (List.range 32).map (airRaw s pl b)
        let raw := slotLen s 0 as
        let key := fun ph => (nmax ((List.range 32).map (fun i => air.getD i 0 + (if dueIn i r ph then raw else cap))) : Int)
        let ph := (argMin key (spareRoom s pl b x.2.1 r old as)).getD 0
        let p : NodePl :=
          { node := n, rcode := r, phase := ph, slen := len, pos := 4 + x.2.1, spare := some x.2.1,
            starts := (picksOf r ph).map (fun i => (i, x.2.2.getD i 0)), pinned := false, classes := slotClasses s as,
            codes := (List.range 8).map (fun l => ((as.find? (fun a => axLax s a = l)).map (modeIn s m)).getD 0) }
        .ok { pl with nodes := pl.nodes.filter (fun z => z.node != n) ++ [p], taken := pl.taken ++ [(b, x.2.1, r, ph)], left := pl.left ++ old.toList }

/-- The axes an incremental run places anew: changed declarations, and axes of the nodes taken that were unplaced and now
agree with their descriptor (R66, R44). -/
def incrNew (s : State) (r : Run) : List Nat :=
  let chg := (r.sets.filter (fun k => k / 256 = 0)).map (· % 256)
  (declAxes s).filter (fun a => descAgrees s a && (chg.contains a || (r.nodes.contains (axNode s a) && !placed s a)))

/-- The order in which an incremental run takes new axes: those of the nodes that have integrated, by address, then the rest
(R68). -/
def newKey (s : State) (r : Run) (a : Nat) : Nat := if r.nodes.contains (axNode s a) then axNode s a * 128 + a else 64 * 128 + a
/-- A placed axis whose declaration changed leaves its node's slot as it is (R66): same node, local axis and class, a coding the
declaration still allows. -/
def slotSame (s : State) (p : NodePl) (a : Nat) : Bool :=
  match s.warp.place.axes.find? (fun x => x.axis = a && !x.unplaced) with
  | some x => x.node = axNode s a && x.lax = axLax s a && p.classes.getD x.lax 0 = axClass s a && decide (p.codes.getD x.lax 0 ≤ pnat s 0x0105 a)
  | none => false
/-- A node keeps its slot in an incremental run (R66, R69, R70): no axis is added to it, and no change of a declaration changes its
rate; that of an axis deleted earlier still counts in the slot. `new` are its axes that are placed anew, `as` all of them, `s0` is the
state before the values of the run. -/
def nodeStays (s0 s : State) (n : Nat) (new as : List Nat) : Bool :=
  match s.warp.place.nodes.find? (fun z => z.node = n) with
  | some p => new.all (slotSame s p) && (nodeRate s as = p.rcode || new.all (fun a => axRate s0 a 0 = axRate s a 0))
  | none => false
/-- The record of an axis whose node has moved: it keeps its phases, lane and pool and takes the slot and coding of the node
(R66, R70). -/
def axisMoved (nodes : List NodePl) (x : AxisPl) : AxisPl :=
  match nodes.find? (fun p => p.node = x.node) with
  | some p => { x with slot := p.pos, coding := p.codes.getD x.lax 0 }
  | none => x

/-- The incremental run (R66) on the state with its values, `s0` being the state without them. -/
def incrRun (s0 s : State) (r : Run) : WRes :=
  if !(declOk s && netOk s) then .error (plainFail 0x5005, [])
  else
    let base := s.warp.place
    let new0 := incrNew s r
    let chg := (r.sets.filter (fun k => k / 256 = 0)).map (· % 256)
    let bad := (declAxes s).filter (fun a => !descAgrees s a && (chg.contains a || r.nodes.contains (axNode s a)))
    let keep0 := base.axes.filter (fun x => !x.unplaced && axClass s x.axis != 0 && !new0.contains x.axis && !bad.contains x.axis)
    let stay := base.axes.filter (fun x => x.unplaced && axClass s x.axis != 0 && !new0.contains x.axis && !bad.contains x.axis)
    let ord := sortBy (fun x y => decide (newKey s r x < newKey s r y)) new0
    let axsOf := fun n => sortAsc ((keep0.filter (fun x => x.node = n)).map (·.axis) ++ new0.filter (fun a => axNode s a = n))
    let nodes := (dedup (ord.map (axNode s))).filter (fun n => !nodeStays s0 s n (new0.filter (fun a => axNode s a = n)) (axsOf n))
    let moved := nodes.filter (fun n => base.nodes.any (fun z => z.node = n))
    let stuck := (List.range 128).filter (fun a => moved.contains (axNode s a) && placed s a &&
      (match (axOf s a).sm.st with | .disabled => false | .ready => false | .enabled => false | _ => true))
    if stuck ≠ [] then .error (plainFail 0x5003, stuck)
    else
      let base1 := { base with nodes := base.nodes.map (fun p =>
        { p with classes := (List.range 8).map (fun l => if bad.any (fun a => axNode s a = p.node && axLax s a = l) then 0 else p.classes.getD l 0) }) }
      match wFold (fun pl n => lateNode s pl n (axsOf n)) nodes base1 with
      | .error e => .error (e, [])
      | .ok pl =>
        let kept := keep0.map (fun x => if moved.contains x.node then axisMoved pl.nodes x else x)
        let o0 := nmax (base.axes.map (·.order))
        let order := fun a =>
          if nodes.contains (axNode s a) then (match ord.idxOf? a with | some i => o0 + 1 + i | none => 0)
          else ((base.axes.find? (fun x => x.axis = a)).map (·.order)).getD 0
        match wAll ((brList s).map (fun b => let w := worst (airPl s pl b); wCheck 0x5001 1 b w.1 (airCap s.clk.plen) w.2)) with
        | .error e => .error (e, [])
        | .ok air =>
          match wRest s { pl with draft := [] } (kept.map (awaitNow s)) (sortAsc new0) order bad [] air with
          | .error e => .error (e, [])
          | .ok x => .ok ({ x.1 with axes := axSort (x.1.axes ++ stay.map (awaitNow s)) }, x.2)

/-! ### Inputs and report (R59, R73 to R76) -/

/-- A parameter as a write item (R383). -/
def parItem (num inst : Nat) (staged : Bool) (v : Int) : Bytes :=
  words [num * 65536 + inst * 256 + b2n staged, praw v % 2 ^ 32, praw v / 2 ^ 32]

/-- The parameter inputs of R59, in ascending number and instance. -/
def wInputs : List Nat :=
  [0x0010, 0x0100, 0x0101, 0x0102, 0x0103, 0x0104, 0x0105, 0x0106, 0x0107, 0x0108, 0x0109, 0x010A, 0x010B, 0x010C, 0x010D,
   0x0200, 0x0201, 0x0202, 0x0203, 0x0204, 0x0206, 0x070B, 0x0B00, 0x0B05]
/-- The CRC over the inputs of a run (R59): the values in force as the report is read, which are those of the run where it succeeds. -/
def inputCrc (s : State) (full : Bool) : Nat :=
  let ps := wInputs.map (fun n => ((List.range ((pspec n).elim 0 (·.cnt))).map (fun i => parItem n i false (pget s n i))).flatten)
  let ds := ((List.range 64).filter (fun n => (ndOf s n).integrated)).map (fun n => padTo 32 (ndOf s n).desc)
  crc32c (ps.flatten ++ ds.flatten ++ (if full then [] else le 4 s.warp.epoch.toNat))

/-- One record of a use for each resource, at its worst instance: a report has room for eight (R74). -/
def worstRecs (rs : List ResRec) : List ResRec :=
  (List.range 9).filterMap (fun k =>
    (rs.filter (fun r => r.res = k)).foldl (fun (b : Option ResRec) r =>
      match b with
      | none => some r
      | some x => if x.used * r.cap < r.used * x.cap then some r else some x) none)

/-- The report of a run (R73). `epoch` is the epoch in force after the run. The axes that keep a full run from taking effect are
flagged by its outcome in WHY (DESIGN CHOICE, log 97). `s0` is the state whose values are in force after the run, `s` the one the run
worked on. -/
def reportOf (s0 s : State) (r : Run) (x : WRes) (epoch : Nat) : Report :=
  let crc := inputCrc s0 r.full
  match x with
  | .ok p => { outcome := 0, epoch := epoch, crc := crc, trig := r.trig, recs := worstRecs p.2, axes := p.1.axes }
  | .error (e, mov) =>
    let chg := (r.sets.filter (fun k => k / 256 = 0)).map (· % 256)
    let un := (declAxes s).filter (fun a => !placed s a && (r.full || chg.contains a || r.nodes.contains (axNode s a)))
    { outcome := e.outcome, epoch := epoch, crc := crc, res := e.res, inst := e.inst, need := e.need, avail := e.avail, pick := e.pick,
      trig := r.trig, recs := worstRecs e.recs, flagged := mov,
      axes := axSort ((s.warp.place.axes.filter (fun y => !un.contains y.axis)).map (fun y => { awaitNow s y with why := if mov.contains y.axis then e.outcome else y.why }) ++
        un.map (axisUnplaced s e.outcome)) }

/-- Bytes of an axis record (R75). -/
def axisRecBytes (x : AxisPl) : Bytes :=
  words [x.axis + x.node * 256 + x.lane * 2 ^ 16 + x.slot * 2 ^ 20 + x.coding * 2 ^ 24 + b2n x.pinLn * 2 ^ 26 + b2n x.pinSp * 2 ^ 27 +
           b2n x.late * 2 ^ 28 + b2n x.await * 2 ^ 29 + b2n x.unplaced * 2 ^ 30,
         x.phCur + x.phSpd * 32 + x.phPos * 1024 + x.cyc * 65536, x.poolBase + x.poolSize * 65536, x.why]
/-- Bytes of a resource record (R74). -/
def resRecBytes (r : ResRec) : Bytes := words [r.res + r.pick * 256 + r.inst * 65536, min r.used 65535 + r.cap * 65536]
/-- Bytes of the report (R73). -/
def reportBytes (r : Report) : Bytes :=
  words [1 + r.outcome * 65536, r.epoch, r.crc, r.res + r.inst * 65536, r.need, r.avail, r.pick + r.trig * 256 + r.axes.length * 65536, r.recs.length] ++
    (r.recs.map resRecBytes).flatten ++ (r.axes.map axisRecBytes).flatten
/-- The 64-bit word of a Draft entry (R133). -/
def dentWord (d : DEnt) : Nat :=
  2 ^ 63 + d.kind * 2 ^ 60 + d.dir * 2 ^ 59 + d.branch * 2 ^ 55 + b2n d.allbr * 2 ^ 54 + d.pick * 2 ^ 49 + d.start * 2 ^ 34 + d.len * 2 ^ 19 +
    d.node * 2 ^ 13 + d.coding * 2 ^ 11 + b2n d.await * 2 ^ 10 + b2n d.late * 2 ^ 9 + b2n d.pin * 2 ^ 8

end Sys2Proof.Machine
end

