-- ==== Sys2Proof/Machine/Frames.lean ====
section
/-! DEFINITION. Frames on a branch (R108 to R125), acyclic windows and transfers (R126 to R129, R549), slot assignments
(R128), node integration (R101, R130, R131, R233, R236), branch cuts (R92, R142) and the down frame (R114, R116). -/
namespace Sys2Proof.Machine

/-! ### Frame bytes (R108 to R111) -/

/-- A frame from the header to the CRC (R108 to R110): TSPEC, BC, ADDR, FTYPE and the payload. -/
def frameBytes (tspec : Nat) (bc : Bool) (addr ftype : Nat) (pl : Bytes) : Bytes :=
  let body := le 6 (tspec * 65536 + b2n bc * 16384 + addr * 256 + ftype * 16 + 1) ++ pl
  body ++ le 4 (crc32c body)

/-- TSPEC of a frame (R110). -/
def frTspec (f : Bytes) : Nat := rdLe f 2 4
/-- The payload of a frame. -/
def frPayload (f : Bytes) : Bytes := (f.drop 6).take (f.length - 10)
/-- A frame passes R109 and the common part of R111, with a given FTYPE, BC = 0 and ADDR. -/
def frameOk (ftype addr : Nat) (f : Bytes) : Bool :=
  decide (10 ≤ f.length) && decide (rdLe f (f.length - 4) 4 = crc32c (f.take (f.length - 4))) &&
    decide (rdLe f 0 2 = addr * 256 + ftype * 16 + 1)

/-! ### Nodes and branches as the controller sees them -/

/-- This controller leads or makes its cold start: it sends on the branches. -/
def sending (s : State) : Bool := s.net.phase = .running || s.net.phase = .coldBolt
/-- The branch carries this controller's markers. -/
def branchOn (s : State) (b : Nat) : Bool := sending s && (brOf s b).markers
/-- NSTATE of a node (R145). Where several codes hold, the earlier of these wins: never joined, branch cut, lost, muted (DESIGN CHOICE,
log 104). -/
def nstate (s : State) (n : Nat) : Nat :=
  let d := ndOf s n
  if !d.joined then 0 else if (brOf s (n / 4)).cut then 5 else if !d.admitted then 4 else if d.muted then 3 else if d.integrated then 2 else 1
/-- BSTATE of a branch (R146). Only this controller's own markers make it 2: a powered branch of a standby reads 1 (DESIGN CHOICE, log
105). -/
def bstate (s : State) (b : Nat) : Nat :=
  let x := brOf s b
  if x.cut then 3 else if !x.brpwr then 0 else if x.markers then 2 else 1
/-- Mirror what R478 mirrors of a node. -/
def ndItem (s : State) (n : Nat) : State :=
  let d := ndOf s n
  sendItem s (.network (Fin.ofNat 64 n) d.admitted (d.muted || d.muteDue) d.integrated d.lost d.tRt d.desc d.asg)
/-- A mask of branches. -/
def brMask (s : State) (p : Branch → Bool) : BitVec 16 :=
  BitVec.ofNat 16 (nsum ((List.range 16).map (fun b => if p (brOf s b) then 2 ^ b else 0)))
/-- Mirror BRPWR and the cuts (R93). -/
def brItem (s : State) : State := sendItem s (.branches (brMask s (·.brpwr)) (brMask s (·.cut)))

/-- The node has a join entry in the Draft (R97, R101). -/
def hasJoinSlot (s : State) (n : Nat) : Bool := s.warp.place.draft.any (fun d => d.kind = 4 && d.node = n)
/-- The lost nodes of a branch that await rejoin, in ascending tap (R106). -/
def lostTaps (s : State) (b : Nat) : List Nat :=
  (List.range 4).filter (fun t => (ndOf s (4 * b + t)).lost && !(ndOf s (4 * b + t)).admitted && !(ndOf s (4 * b + t)).admitDue)

/-! ### Rejoin windows (R106, R549) -/

/-- The first acyclic window of a branch in each bolt: pick and start in byte-times. -/
def acycFirst (s : State) (b : Nat) : Option (Nat × Nat) :=
  ((List.range 32).find? (fun i => acycIn s b i != 0)).map (fun i => (i, upEnd s.clk.plen / 16))
/-- The windows of R106 that exist for a lost node and are long enough, in their order. -/
def rejoinWins (s : State) (n : Nat) : List (Nat × Nat) :=
  let b := n / 4
  let own := match npOf s n with
    | some p => if 32 ≤ p.slen then (p.starts.filter (fun x => x.1 = 31)).take 1 else []
    | none => []
  let spare := if 32 ≤ pnat s 0x0202 b then
      ((sortBy (fun (x y : Nat × Nat × List Nat) => decide (x.2.2.getD 31 0 < y.2.2.getD 31 0))
        (s.warp.place.spares.filter (fun x => x.1 = b && !spareTaken s.warp.place b x.2.1 31))).take 1).map (fun x => (31, x.2.2.getD 31 0))
    else []
  let acyc := if 32 ≤ pnat s 0x0204 b then (acycFirst s b).toList else []
  own ++ spare ++ acyc
/-- The rejoin table of a branch: each lost node takes the first of its windows that no lower tap has (R106). -/
def rejoinTable (s : State) (b : Nat) : Tab (Nat × Nat) :=
  (lostTaps s b).foldl (fun t tap =>
    match (rejoinWins s (4 * b + tap)).find? (fun w => !(t.any (fun p => p.2 == w))) with
    | some w => tabSet t tap w
    | none => t) []
/-- The 8 bytes of a rejoin table (R549). -/
def rejoinBytes (t : Tab (Nat × Nat)) : Bytes :=
  le 8 (nsum (t.map (fun p => (32768 + p.2.1 * 1024 + p.2.2) * 65536 ^ p.1)))
/-- Raise REJOIN_BLOCKED for a lost node without any window (R106). -/
def rejoinBlock (s : State) (n : Nat) : State :=
  if (ndOf s n).lost = true ∧ (ndOf s n).admitted = false ∧ rejoinWins s n = [] ∧ (ndOf s n).blocked = false then
    raise (modNd s n (fun d => { d with blocked := true })) 0x3105 n [BitVec.ofNat 8 (n / 4)]
  else s
/-- Windows of a branch in a bolt. -/
def acycBolt (s : State) (b : Nat) : Nat := nsum ((List.range 32).map (acycIn s b))
/-- The entry of a tap in force has been sent since it changed (R549). -/
def rejoinTold (r : Branch) (tap : Nat) : Bool := tabFind r.rejoinSent tap == tabFind r.rejoin tap
/-- The first acyclic window of the bolt is a rejoin window in this bolt (R549): an entry that has been sent names it, and the only
window of a bolt is one in odd bolts. -/
def rejoinFirst (s : State) (b : Nat) : Bool :=
  let r := brOf s b
  r.rejoin.any (fun p => some p.2 == acycFirst s b && rejoinTold r p.1) && (acycBolt s b != 1 || psBolt (ps s) % 2 = 1)
/-- An acyclic window of the pick is a rejoin window in this bolt (R549). -/
def rejoinWindow (s : State) (b k : Nat) : Bool :=
  k = 0 && acycFirst s b == some (psPick (ps s), upEnd s.clk.plen / 16) && rejoinFirst s b

/-! ### Slot assignments (R128) -/

/-- SOFS of a node's slot: its start in the lowest phase pick (DESIGN CHOICE, log 20). -/
def npSofs (p : NodePl) : Nat := ((sortBy (fun (x y : Nat × Nat) => decide (x.1 < y.1)) p.starts).head?.map (·.2)).getD 0
/-- The assignment that carries a node's placement, with no bolt chosen. -/
def asgWant (p : NodePl) : SlotAsg :=
  { sofs := npSofs p, slen := p.slen, rcode := p.rcode, phase := p.phase, fromBolt := 0, codes := p.codes,
    exc := (sortBy (fun (x y : Nat × Nat) => decide (x.1 < y.1)) p.starts).filter (fun x => x.2 != npSofs p), classes := p.classes }
/-- The node holds, or is being sent, the assignment of its placement. -/
def asgSame (s : State) (p : NodePl) : Bool :=
  match (ndOf s p.node).asg with
  | some g => { g with fromBolt := 0 } == asgWant p
  | none => false
/-- Lists of at most k + 1 members each. -/
def chunks {α : Type} (k : Nat) : Nat → List α → List (List α)
  | _, [] => []
  | 0, xs => [xs]
  | f + 1, xs => xs.take (k + 1) :: chunks k f (xs.drop (k + 1))
/-- Data bytes that a window of a branch has room for (R122). -/
def acycRoom (s : State) (b : Nat) : Nat := pnat s 0x0204 b - 37
/-- The transfers of an assignment: class map, assignment, offset exceptions (R127, R128). -/
def asgXfers (s : State) (n : Nat) (g : SlotAsg) : List Xfer :=
  let x := fun (k : XferKind) => ({ node := n, kind := k, reps := 0 } : Xfer)
  [x .classMap, x .assign] ++ (chunks (acycRoom s (n / 4) / 2 - 1) 32 g.exc).map (fun es => x (.exceptions es))
/-- Parts of descriptors that are still to be read on a branch. -/
def descLeft (s : State) (b : Nat) : Nat :=
  nsum ((List.range 4).map (fun t => let d := ndOf s (4 * b + t); if d.descDue then 4 - d.descPart.length / 8 else 0))
/-- Windows of a bolt that serve transfers: neither rejoin windows nor the one that carries the rejoin table (R549). -/
def acycServe (s : State) (b : Nat) : Nat :=
  let br := brOf s b
  acycBolt s b - (if br.rejoin.any (fun p => some p.2 = acycFirst s b) then 1 else 0) - (if lostTaps s b = [] then 0 else 1)
/-- The rejoin window of this bolt is an acyclic window still to come. -/
def rejoinAhead (s : State) (b : Nat) : Bool :=
  rejoinFirst s b && (match acycFirst s b with | some w => decide (psPick (ps s) < w.1) || (decide (psPick (ps s) = w.1) && (brOf s b).win = 0 && !s.clk.afterDl) | none => false)
/-- Windows of this bolt still to come that serve transfers. -/
def acycLeft (s : State) (b : Nat) : Nat :=
  let i := psPick (ps s)
  let here := if s.clk.afterDl then 0 else acycIn s b i - (brOf s b).win
  let later := nsum (((List.range 32).filter (fun j => i < j)).map (acycIn s b))
  here + later - (if rejoinAhead s b then 1 else 0) - (if lostTaps s b = [] ∨ (brOf s b).tabSent = true then 0 else 1)
/-- FROM_BOLT for `cnt` transfers of a node (R128): the first bolt that begins after the last window they take, counting no
repetitions, behind what R127 and R144 serve before them. -/
def planBolt (s : State) (n cnt : Nat) : Nat :=
  let b := n / 4
  let br := brOf s b
  let ahead := br.retry.toList.length + descLeft s b + nsum ((List.range 4).map (fun t => (ndOf s (4 * b + t)).withdraw)) +
    (br.xfers.filter (fun x => xferRank x.kind = 2 && decide (x.node < n))).length
  let need := cnt + ahead
  let left := acycLeft s b
  let more := if need ≤ left then 0 else cdiv (need - left) (max 1 (acycServe s b))
  (psBolt (ps s) + 1 + more) % 2 ^ 27
/-- The transfers of a branch without those of a node's class map, assignment and exceptions. -/
def dropAsg (n : Nat) (xs : List Xfer) : List Xfer := xs.filter (fun x => x.node != n || xferRank x.kind != 2)
/-- Send a node the assignment of its placement (R101 step 7, R128): planned, with its transfers pending. -/
def asgPlan (s : State) (p : NodePl) : State :=
  let n := p.node
  let s1 := modBr s (n / 4) (fun b => { b with xfers := dropAsg n b.xfers, retry := b.retry.filter (fun x => x.node != n || xferRank x.kind != 2) })
  let g := asgWant p
  let xs := asgXfers s1 n g
  let bolt := planBolt s1 n xs.length
  let s2 := modNd s1 n (fun d =>
    { d with asgPrev := if d.asgBegun then d.asg else d.asgPrev, asg := some { g with fromBolt := bolt }, asgBegun := false })
  ndItem (modBr s2 (n / 4) (fun b => { b with xfers := b.xfers ++ xs })) n
/-- The assignments of the nodes of a branch behind a node that wait for their window are planned again: the transfers of a lower address
go first (R127, R128). -/
def asgLater (s : State) (n : Nat) : State :=
  let wait := fun (m : Nat) => (brOf s (m / 4)).xfers.any (fun x => x.node = m && x.kind = .assign)
  forEach (((List.range 4).map (fun t => 4 * (n / 4) + t)).filter (fun m => decide (n < m) && wait m)) (fun t m =>
    let k := ((brOf t (m / 4)).xfers.filter (fun x => x.node = m && xferRank x.kind = 2)).length
    let bolt := planBolt t m k
    ndItem (modNd t m (fun d => { d with asg := d.asg.map (fun g => { g with fromBolt := bolt }) })) m) s
/-- Send assignments to the nodes of a placement that are integrated and hold another one, the lower address first, as the windows serve
them (R127). -/
def asgAll (s : State) (pl : Place) : State :=
  forEach (sortBy (fun (x y : NodePl) => decide (x.node < y.node)) pl.nodes) (fun t p => when ((ndOf t p.node).integrated && (ndOf t p.node).admitted && !asgSame t p) (fun u => asgLater (asgPlan u p) p.node) t) s

/-! ### Node parameters and microstep tables (R231, R233, R236) -/

/-- The axis at a local axis of a node, if one is declared. -/
def laxAxis (s : State) (n lax : Nat) : Option Nat := axAt s n lax
/-- A MOD_AX value as the node of the axis is to hold it: of a stepper axis one that waits for the acknowledgement (R240). -/
def modWant (s : State) (p a : Nat) : Nat := match tabFind s.par.stepMod (pkey p a) with | some v => v.toNat | none => pnat s p a
/-- Commits that wait for the acknowledgement of nodes complete (R240, R388): their staging areas become empty. -/
def stepAnswer (s : State) (c : Pend → Bool) (st : Nat) : State :=
  forEach (s.par.pends.filter (fun p => p.at' = .ack && c p)) (fun t p =>
    let u : State := { t with par := { t.par with pends := t.par.pends.filter (fun q => !(q.id = p.id && q.at' = .ack)),
                                                  stages := p.sets.foldl (fun x k => tabErase x k) t.par.stages } }
    completeWaits u (fun w => w = .applied p.id) st []) s
/-- The node has acknowledged the MOD_AX values of a stepper axis: they take effect (R240). -/
def stepModDone (s : State) (a : Nat) : State :=
  let mine := s.par.stepMod.filter (fun x => x.1 % 256 = a)
  let t : State := { s with par := { s.par with force := tabMerge s.par.force mine, stepMod := s.par.stepMod.filter (fun x => x.1 % 256 != a) } }
  stepAnswer t (fun p => !p.vals.any (fun x => (tabFind t.par.stepMod x.1).isSome)) 0
/-- The writes for the axes of a node fail: commits that wait for them complete with CMD_ACYC_FAILED, and the values take effect with the next
successful write (DESIGN CHOICE, log 102). -/
def stepModFail (s : State) (n : Nat) : State :=
  if s.par.stepMod = [] then s
  else stepAnswer s (fun p => p.vals.any (fun x => axClass s (x.1 % 256) = 3 && axNode s (x.1 % 256) = n && (tabFind s.par.stepMod x.1).isSome)) 0x2007
/-- The three words of an axis block (R231): the MOD_AX values of the axis, the defaults where none is declared. -/
def axisBlock (s : State) (n lax : Nat) : List Nat :=
  let v := fun (p : Nat) => match laxAxis s n lax with | some a => modWant s p a | none => (pdefault p 0).toNat
  [v 0x0401, v 0x0402 + v 0x0403 * 65536, v 0x0404]
/-- The writes of one axis block, as many words in each as a window has room for. -/
def blockXfers (s : State) (n lax : Nat) : List Xfer :=
  let w := max 1 (min 3 (acycRoom s (n / 4) / 4))
  (List.range (cdiv 3 w)).map (fun i => { node := n, kind := .parAxis lax (i * w) (min w (3 - i * w)), reps := 0 })
/-- The writes of word 0 and of every axis block a node offers (R233). -/
def parXfers (s : State) (n : Nat) : List Xfer :=
  { node := n, kind := .parRate, reps := 0 } :: ((List.range (rdLe (ndOf s n).desc 2 1 / 16)).map (blockXfers s n)).flatten
/-- The local axis a parameter write counts for: 8 for word 0. -/
def parLax (k : XferKind) : Option Nat := match k with | .parRate => some 8 | .parAxis l _ _ => some l | _ => none
/-- Write parameters of a node: earlier writes of the same words that still wait, or wait to be repeated, are replaced. -/
def parSend (s : State) (n : Nat) (xs : List Xfer) : State :=
  let ls := dedup (xs.filterMap (fun x => parLax x.kind))
  let same := fun (x : Xfer) => x.node = n && (match parLax x.kind with | some l => ls.contains l | none => false)
  modNd (modBr s (n / 4) (fun b => { b with xfers := b.xfers.filter (fun x => !same x) ++ xs, retry := b.retry.filter (fun x => !same x) })) n
    (fun d => { d with wrPend := dedup (d.wrPend ++ ls), wrBad := d.wrBad.filter (fun l => !ls.contains l) })
/-- Start the download of a node's microstep image (R236). What waits of an earlier download is dropped, and the reply to a part of it that is
on the line leads to nothing. -/
def imageSend (s : State) (n : Nat) : State :=
  let drop := fun (x : Xfer) => !(x.node = n && xferImage x.kind)
  let s1 := modBr (modNd s n (fun d => { d with imgRetry := false })) (n / 4) (fun b =>
    { b with xfers := b.xfers.filter drop, retry := b.retry.filter drop,
             xfer := b.xfer.map (fun x => if drop x then x else { x with stale := true }) })
  let k := max 1 (acycRoom s (n / 4) / 4)
  modBr s1 (n / 4) (fun b => { b with xfers := b.xfers ++ [{ node := n, kind := .table 0 (min k 256), reps := 0 }] })

/-! ### Transfers on the line (R123, R124, R127) -/

/-- The 7 bytes of a slot assignment (R128). -/
def asgBytes (g : SlotAsg) : Bytes :=
  let codes := nsum ((g.codes.zip (List.range 8)).map (fun p => p.1 * 4 ^ p.2))
  le 7 (codes * 2 ^ 40 + g.fromBolt % 256 * 2 ^ 32 + g.phase * 2 ^ 27 + g.rcode * 2 ^ 24 + g.slen * 1024 + g.sofs)
/-- The 3 bytes of a class map (R128). -/
def classBytes (g : SlotAsg) : Bytes := le 3 (nsum ((g.classes.zip (List.range 8)).map (fun p => p.1 * 8 ^ p.2)))
/-- An assignment without content, for a transfer whose assignment is gone. -/
def asgNone : SlotAsg := { sofs := 0, slen := 0, rcode := 0, phase := 0, fromBolt := 0, codes := [], exc := [], classes := [] }
/-- OP, OFS, XLEN and the data of a transfer (R124). -/
def xferSpec (s : State) (x : Xfer) : Nat × Nat × Nat × Bytes :=
  let g := (ndOf s x.node).asg.getD asgNone
  let wr := fun (op ofs : Nat) (d : Bytes) => (op, ofs, d.length, d)
  match x.kind with
  | .desc p => (1, 2 * p, 8, [])
  | .classMap => wr 0xA 0 (classBytes g)
  | .assign => wr 2 0 (asgBytes g)
  | .exceptions es => wr 3 0 ((es.map (fun e => le 2 (e.1 * 2048 + e.2))).flatten)
  | .timing adj => wr 4 0 (leS 1 adj)
  | .parRate => wr 5 0 (le 4 (pnat s 0x0400 x.node))
  | .parAxis l o c => wr 5 (8 + 4 * l + o) (words (((axisBlock s x.node l).drop o).take c))
  | .table i c => wr 7 i (((ndOf s x.node).image.drop (4 * i)).take (4 * c))
  | .tableCrc => wr 5 1 (le 4 (crc32c (ndOf s x.node).image))
/-- Bytes that the reply to a transfer carries (R124). -/
def replyLen (k : XferKind) : Nat := match k with | .desc _ => 8 | _ => 0

/-- JOFS and JMASK of a branch, from the join entries of the Draft (R123). -/
def joinTab (s : State) (b : Nat) : Nat × Nat :=
  let js := s.warp.place.draft.filter (fun d => d.kind = 4 && d.branch = b)
  (match argMin (fun d => (d.start : Int)) js with | some d => d.start / 16 | none => 0, nsum (dedup (js.map (fun d => 2 ^ (d.node % 4)))))
/-- A controller acyclic frame (R123). -/
def acycFrame (s : State) (b : Nat) (bc : Bool) (addr op ofs xlen : Nat) (d : Bytes) : Bytes :=
  let j := joinTab s b
  frameBytes (j.1 * 2 ^ 22 + j.2 * 2 ^ 18 + op * 2 ^ 14 + ofs * 64 + xlen) bc addr 4 d
/-- The frame of a transfer. -/
def xferFrame (s : State) (x : Xfer) : Bytes :=
  let q := xferSpec s x
  acycFrame s (x.node / 4) false x.node q.1 q.2.1 q.2.2.1 q.2.2.2
/-- The broadcast OP 0x0 (R124, R549): with the rejoin table while a lost node awaits rejoin. -/
def bcastFrame (s : State) (b : Nat) (table : Bool) : Bytes :=
  if table = true ∧ lostTaps s b ≠ [] then acycFrame s b true b 0 0 8 (rejoinBytes (brOf s b).rejoin)
  else acycFrame s b true b 0 0 0 []

/-- The transfer a window serves when none is to be repeated (R127): descriptor reads first, then by rank and node. -/
def nextXfer (s : State) (b : Nat) : Option Xfer :=
  match (List.range 4).find? (fun t => (ndOf s (4 * b + t)).descDue && (ndOf s (4 * b + t)).admitted) with
  | some t => some { node := 4 * b + t, kind := .desc ((ndOf s (4 * b + t)).descPart.length / 8), reps := 0 }
  | none => argMin (fun x => (xferRank x.kind * 64 + x.node : Nat)) ((brOf s b).xfers)

/-- Remove the first member that equals x. -/
def eraseOne (x : Xfer) : List Xfer → List Xfer
  | [] => []
  | y :: ys => if y = x then ys else y :: eraseOne x ys

/-- A transfer as a window with room for `room` data bytes can carry it, and what is left of it for a later window (R122): the window
length may have been lowered since it was made. -/
def xferCut (room : Nat) (k : XferKind) : XferKind × Option XferKind :=
  match k with
  | .exceptions es =>
    let c := max 1 (room / 2)
    if es.length ≤ c then (k, none) else (.exceptions (es.take c), some (.exceptions (es.drop c)))
  | .parAxis l o n =>
    let c := max 1 (room / 4)
    if n ≤ c then (k, none) else (.parAxis l o c, some (.parAxis l (o + c) (n - c)))
  | .table i n => (.table i (min n (max 1 (room / 4))), none)
  | _ => (k, none)
/-- Put a transfer on the line; its reply is awaited. A timing adjustment is counted when it is first sent (R145). -/
def xferStart (s : State) (b : Nat) (x0 : Xfer) : State :=
  let c := xferCut (acycRoom s b) x0.kind
  let x : Xfer := { x0 with kind := c.1 }
  let s1 := modBr s b (fun r =>
    { r with xfer := some x, acycSent := xferFrame s x, xfers := (c.2.map (fun k => { x0 with kind := k, reps := 0 })).toList ++ r.xfers })
  match x.kind with
  | .timing _ => if x.reps = 0 then modNdc s1 x.node (fun c => { c with adj := satInc 16 c.adj }) else s1
  | _ => s1

/-- What an acyclic window carries (R126, R127, R129, R144, R549). Outside the rejoin windows, withdrawals go before the rejoin table, so
that each of the next four windows carries one (log 62). -/
def acycWindow (s : State) (b k : Nat) : State :=
  let s0 := modBr s b (fun r => { r with win := k + 1, xfer := none })
  let br := brOf s0 b
  let short := pnat s0 0x0204 b < 45
  let lost := lostTaps s0 b != []
  let put := fun (t : State) (f : Bytes) => modBr t b (fun r => { r with acycSent := f })
  if rejoinWindow s0 b k then (if short then s0 else put s0 (bcastFrame s0 b false))
  else
    match (List.range 4).find? (fun t => (ndOf s0 (4 * b + t)).withdraw != 0) with
    | some t =>
      modNd (put s0 (acycFrame s0 b false (4 * b + t) 9 0 0 [])) (4 * b + t) (fun d => { d with withdraw := d.withdraw - 1 })
    | none =>
      if short || (lost && !br.tabSent) then
        modBr (put s0 (bcastFrame s0 b true)) b (fun r => { r with tabSent := r.tabSent || lost, rejoinSent := if lost then r.rejoin else r.rejoinSent })
      else
      match br.retry with
      | some x => xferStart (modBr s0 b (fun r => { r with retry := none })) b x
      | none =>
        match nextXfer s0 b with
        | some x => xferStart (modBr s0 b (fun r => { r with xfers := eraseOne x r.xfers })) b x
        | none => put s0 (bcastFrame s0 b true)

/-- ACYCLIC_WINDOW: acyclic window k of a branch opens in this pick (R127). -/
def execAcyclicWindow (b : BranchNo) (k : Nat) (s : State) : Host.Outcome State Fault Refusal :=
  finishD s (when (branchOn s b && decide (k < acycIn s b (psPick (ps s))) && decide ((brOf s b).win ≤ k) && (brOf s b).xfer.isNone)
    (fun t => acycWindow t b k) s)

/-! ### What a reply leads to -/

/-- Complete the microstep load command that waits for a node's download (R393). -/
def loadDone (s : State) (n st : Nat) : State :=
  completeWaits s (fun w => w = .mstab n) st (if st = 0 then words [0] else [])

/-- A transfer is abandoned (R127): counted, and handled by its kind; `ev` is false on a cut branch. -/
def xferAbandon (s : State) (x : Xfer) (ev : Bool) : State :=
  let n := x.node
  let s1 := modNdc s n (fun c => { c with acycFail := satInc 16 c.acycFail })
  let pl := [BitVec.ofNat 8 (n / 4)]
  match x.kind with
  | .desc _ =>
    let s2 := modNd s1 n (fun d => { d with descDue := false, descPart := [], descRetry := if ev then some ((psBolt (ps s) + 32) % 2 ^ 27) else none })
    if ev then raise s2 0x310A n pl else s2
  | k =>
    let s2 := if ev then raise s1 0x310B n pl else s1
    match parLax k with
    | some l => stepModFail (modNd s2 n (fun d => { d with wrPend := d.wrPend.filter (· != l), wrBad := dedup (d.wrBad ++ [l]) })) n
    | none => if xferImage k then loadDone s2 n 0x2007 else s2

/-- A descriptor is invalid (R131). -/
def descBad (d : Bytes) : Bool :=
  let nax := rdLe d 2 1 / 16
  nax = 0 || 8 < nax || rdLe d 1 2 % 4096 = 0 || rdLe d 0 1 / 8 != 0 ||
    (List.range 8).any (fun l =>
      let e := descAx d l
      if nax ≤ l then e != 0
      else e % 16 = 0 || (e / 2048 = 0 && e % 16 != 8) || 5 ≤ e / 256 % 8)

/-- A node integrates (R101 step 6): its parameters are written (R233), then its microstep image (R236); it returns to its
kept placement (R106), or an incremental run follows (R66). -/
def integrate (s : State) (n : Nat) (desc : Bytes) : State :=
  let old := (ndOf s n).desc
  let s1 := modNd s n (fun d => { d with descDue := false, descPart := [], desc := desc, integrated := true, lost := false })
  let s2 := parSend s1 n (parXfers s1 n)
  let s3 := ndItem (when ((ndOf s2 n).image != []) (fun t => imageSend t n) s2) n
  match npOf s3 n with
  | some p =>
    if old = desc ∧ hasJoinSlot s3 n = false then asgLater (asgPlan s3 p) n
    else { s3 with warp.pendNodes := insertAsc n (s3.warp.pendNodes.filter (· != n)) }
  | none => { s3 with warp.pendNodes := insertAsc n (s3.warp.pendNodes.filter (· != n)) }

/-- A descriptor part arrives (R101 step 5, R131). -/
def descPartIn (s : State) (n : Nat) (d : Bytes) : State :=
  let got := (ndOf s n).descPart ++ d
  if got.length < 32 then modNd s n (fun x => { x with descPart := got })
  else if descBad got then
    raise (modNd s n (fun x => { x with descDue := false, descPart := [], desc := got })) 0x310A n [BitVec.ofNat 8 (n / 4)]
  else integrate s n got

/-- The next part of a download after `i` entries (R236). -/
def tableNext (s : State) (n i : Nat) : State :=
  let k := max 1 (acycRoom s (n / 4) / 4)
  let x : XferKind := if i < 256 then .table i (min k (256 - i)) else .tableCrc
  modBr s (n / 4) (fun b => { b with xfers := b.xfers ++ [{ node := n, kind := x, reps := 0 }] })

/-- A transfer has been done (STAT 0x00). A block of which one piece was abandoned stays abandoned (R233). A class map, assignment or exception that ends in or past FROM_BOLT makes the
controller send the assignment again (R128). -/
def xferDone (s : State) (x : Xfer) (data : Bytes) : State :=
  let n := x.node
  match x.kind with
  | .desc _ => descPartIn s n data
  | .timing adj => ndItem (modNd s n (fun d => { d with tRt := d.tRt + adj })) n
  | .table i c => tableNext s n (i + c)
  | .tableCrc => loadDone (modNd s n (fun d => { d with imgRetry := false })) n 0
  | k =>
    match parLax k with
    | some l =>
      if (brOf s (n / 4)).xfers.any (fun y => y.node = n && parLax y.kind = some l) then s
      else
        let s1 := modNd s n (fun d => { d with wrPend := d.wrPend.filter (· != l) })
        match laxAxis s n l with | some a => when (s1.par.stepMod != [] && !(ndOf s n).wrBad.contains l) (fun t => stepModDone t a) s1 | none => s1
    | none =>
      match (ndOf s n).asg, npOf s n with
      | some g, some p => if boltReached s g.fromBolt then asgLater (asgPlan s p) n else s
      | _, _ => s

/-- A transfer without success is repeated in the next window, or abandoned after three repetitions (R127). -/
def xferFail (s : State) (b : Nat) (x : Xfer) : State :=
  if 3 ≤ x.reps then xferAbandon s x true
  else modBr (modNdc s x.node (fun c => { c with acycRetry := satInc 16 c.acycRetry })) b (fun r => { r with retry := some { x with reps := x.reps + 1 } })

/-- MSTAB_CRC for the axes that use a node's table, its stepper axes (R242; DESIGN CHOICE, log 102). -/
def mstabEvent (s : State) (n : Nat) : State := forEach ((nodeAxes s n).filter (fun a => axClass s a = 3)) (fun t a => raise t 0x7109 a []) s
/-- A refusal of MSTAB_CRC raises the event and restarts the download once (R236). The refused transfer is abandoned (R127); the load
command that waits for the download goes on with the restart (R393). -/
def crcRefused (s : State) (x : Xfer) : State :=
  let n := x.node
  let s1 := mstabEvent s n
  if (ndOf s1 n).imgRetry then modNd (xferAbandon s1 x true) n (fun d => { d with imgRetry := false })
  else
    let s2 := raise (modNdc s1 n (fun c => { c with acycFail := satInc 16 c.acycFail })) 0x310B n [BitVec.ofNat 8 (n / 4)]
    modNd (imageSend s2 n) n (fun d => { d with imgRetry := true })

/-- STAT of a reply to a transfer (R125), if it is a well-formed reply to it. -/
def replyStat (s : State) (x : Xfer) (f : Bytes) : Option Nat :=
  let q := xferSpec s x
  let t := frTspec f
  let dr := f.length - 10
  if frameOk 5 x.node f && decide (t / 2 ^ 28 = q.1) && decide (t / 2 ^ 20 % 256 = q.2.1) && decide (t / 2 ^ 14 % 64 = dr) &&
      decide (t / 256 % 64 = 0) then
    let st := t % 256
    if (st = 0 && dr = replyLen x.kind) || (1 ≤ st && st ≤ 4) then some st else none
  else none

/-- The first preamble symbol of a reply lies inside the start band (R135). -/
def replyBand (start : Int) : Bool := decide (-51 ≤ start) && decide (start ≤ 51)
/-- Code violations of a reply gate are counted (R146). -/
def replyViol (s : State) (b viol : Nat) : State := modBrc s b (fun c => { c with codeViol := satAdd 32 c.codeViol viol })
/-- A reply in the gate (R127). One with a code violation is corrupted (R83, R109). -/
def replyIn (s : State) (b : Nat) (x : Xfer) (start : Int) (viol : Nat) (f : Bytes) : State :=
  let s1 := replyViol (modBr s b (fun r => { r with xfer := none })) b viol
  if x.stale then s1
  else
  match (if replyBand start = true ∧ viol = 0 then replyStat s x f else none) with
  | none => xferFail s1 b x
  | some 0 => xferDone s1 x (frPayload f)
  | some 3 => xferFail s1 b x
  | some st => if x.kind = .tableCrc ∧ st = 4 then crcRefused s1 x else xferAbandon s1 x true

/-- ACYCLIC_REPLY_RECEIVE: a node's reply arrives (R127). -/
def execAcyclicReplyReceive (b : BranchNo) (obs : ReplyObs) (frame : Bytes) (s : State) : Host.Outcome State Fault Refusal :=
  finishD s (match (brOf s b).xfer with | some x => replyIn s b x obs.start obs.codeViol frame | none => s)

/-- ACYCLIC_REPLY_GATE_CLOSE: the reply gate closes without a reply (R127). -/
def execAcyclicReplyGateClose (g : ReplyGate) (s : State) : Host.Outcome State Fault Refusal :=
  finishD s
    (match (brOf s g.branch).xfer with
     | some x => when (!x.stale) (fun t => xferFail t g.branch x) (replyViol (modBr s g.branch (fun r => { r with xfer := none })) g.branch g.codeViol)
     | none => s)

/-- DESCRIPTOR_RETRY_EXPIRY: 32 bolts after NODE_UNREADABLE the descriptor read starts again (R127). -/
def execDescriptorRetryExpiry (n : NodeNo) (s : State) : Host.Outcome State Fault Refusal :=
  finishD s
    (match (ndOf s n).descRetry with
     | some k =>
       if boltReached s k ∧ (ndOf s n).admitted = true then modNd s n (fun d => { d with descRetry := none, descDue := true, descPart := [] }) else s
     | none => s)

/-! ### Branch cuts (R92, R142) -/

/-- The nodes of a branch are treated as lost (R69, R142): admission, assignment and reads end; the placement is kept. -/
def nodeDrop (s : State) (n : Nat) : State :=
  if (ndOf s n).joined then
    let keep := (npOf s n).isSome && !hasJoinSlot s n
    ndItem (modNd (stepModFail s n) n (fun d =>
      { d with admitted := false, integrated := false, lost := d.lost || keep, asg := none, asgPrev := none, asgBegun := false,
               descDue := false, descPart := [], descRetry := none, viol := 0, noFrame := 0, withdraw := 0, sumDelta := 0, nDelta := 0,
               admitDue := false, imgRetry := false })) n
  else s

/-- Cut a branch (R92, R142): BRPWR low and no longer waiting to be raised, no markers, the nodes lost, the transfers abandoned without an event (R127), the
counts of R139 and R141 at 0. -/
def branchCut (s : State) (b : Nat) : State :=
  if (brOf s b).cut then s
  else
    let br := brOf s b
    let reads := ((List.range 4).filter (fun t => (ndOf s (4 * b + t)).descDue)).map
      (fun t => ({ node := 4 * b + t, kind := .desc 0, reps := 0 } : Xfer))
    let others := ((br.xfer.toList ++ br.retry.toList).filter (fun x => xferRank x.kind != 1)) ++ br.xfers
    let s1 := forEach (reads ++ others) (fun t x => xferAbandon t x false) s
    let s2 := modBr s1 b (fun r =>
      { r with brpwr := false, markers := false, markFrom := none, resume := false, cut := true, cutT := s.clk.now, readmit := false, xfer := none, retry := none,
               xfers := [], rxBuf := [], held := [], eowNow := false, eowNodes := [], eowPast := [], rejoin := [], joinAck := [],
               rejoinSent := [], runOn := none })
    let s3 := { modBrc s2 b (fun c => { c with cut := satInc 16 c.cut }) with net.toPower := s2.net.toPower.filter (· != b) }
    brItem (forEach (List.range 4) (fun t i => nodeDrop t (4 * b + i)) s3)

/-- Readmit a branch (R92, R142): powered, its nodes unmuted, markers from the next pick on; with the partner in SYNC, from the first
pick behind its acknowledgement (R478). -/
def branchReadmit (s : State) (b : Nat) : State :=
  let s1 := modBr s b (fun r => { r with cut := false, readmit := false, brpwr := brEnabled s b, resume := brEnabled s b, eowNow := false, eowNodes := [], eowPast := [] })
  let s2 := forEach (List.range 4) (fun t i =>
    let d := ndOf t (4 * b + i)
    when (d.joined || d.muted || d.muteDue) (fun u => ndItem (modNd u (4 * b + i) (fun d => { d with muted := false, muteDue := false })) (4 * b + i)) t) s1
  let q := sendWait s2 (.branches (brMask s2 (·.brpwr)) (brMask s2 (·.cut))) false
  modBr q.1 b (fun r => { r with resumeItem := q.2 })

/-- BRANCH_CUT_HOLD_EXPIRY: the 100 ms of a cut end and a waiting re-admission takes effect (R92). A standby powers no branch by itself
(R93). -/
def execBranchCutHoldExpiry (b : BranchNo) (s : State) : Host.Outcome State Fault Refusal :=
  finishD s (when ((brOf s b).cut && (brOf s b).readmit && !isStandby s) (fun t => branchReadmit t b) s)

/-! ### The down frame (R114 to R116, R101) -/

/-- Records in the payload of a down frame (R115). -/
def recCount : Nat → Bytes → Nat
  | 0, _ => 0
  | _, [] => 0
  | f + 1, p => 1 + recCount f (p.drop (if rdLe p 0 2 / 32 % 4 = 1 then 14 else 8))

/-- A node is admitted with the marker after its join acknowledgement (R101 step 4): its descriptor is to be read. Transfers to it that
still wait are dropped without a count or an event (DESIGN CHOICE, log 68). The guardian knows no earlier DOWN_BAD of it, so that its
first accepted frame adds 0 (R145; DESIGN CHOICE, log 103). -/
def nodeAdmit (s : State) (n : Nat) : State :=
  let s1 := modNd s n (fun d =>
    { d with admitted := true, admitDue := false, joined := true, lastDb := none, imgRetry := false, noFrame := 0, withdraw := 0, descDue := true, descPart := [], descRetry := none,
             integrated := false, blocked := false, asg := none, asgPrev := none, asgBegun := false, sync := .sync, lastAcc := none, waitTx := 0,
             stallRaised := false, wrPend := [], wrBad := [] })
  let b := n / 4
  let s2 := modBr s1 b (fun r =>
    { r with xfers := r.xfers.filter (fun x => x.node != n), retry := r.retry.filter (fun x => x.node != n), collRaised := r.collRaised.filter (· != n % 4) })
  let s3 := if pnat s2 0x0204 b < 45 then
      raise (modNd s2 n (fun d => { d with descDue := false })) 0x310A n [BitVec.ofNat 8 b]
    else s2
  ndItem s3 n

/-- The header fields of the down frame of a branch, with its join acknowledgement: the lowest accepted tap (R114, R116). -/
def downTspec (s : State) (b : Nat) : Nat :=
  let br := brOf s b
  let j := match argMin (fun (p : Nat × Int) => (p.1 : Int)) br.joinAck with
    | some p => 2 ^ 27 + p.1 * 2 ^ 25 + wrapU 9 p.2 * 65536
    | none => 0
  j + recCount 32 br.down * 256 + (ps s).toNat % 256

/-- Send the frozen down frame of a branch (R114); an acknowledged node is admitted from the next marker on (R101, R116). -/
def downSend (s : State) (b : Nat) : State :=
  let s1 := modBr s b (fun r => { r with downSent := frameBytes (downTspec s b) true b 1 r.down })
  match argMin (fun (p : Nat × Int) => (p.1 : Int)) (brOf s1 b).joinAck with
  | some p => modNd (modBr s1 b (fun r => { r with joinAck := [] })) (4 * b + p.1) (fun d => { d with admitDue := true })
  | none => s1

/-- DOWN_FRAME_TRANSMIT: the down frame of a branch is sent from the start of the down region (R114). -/
def execDownFrameTransmit (b : BranchNo) (s : State) : Host.Outcome State Fault Refusal :=
  finishD s (when (branchOn s b && s.clk.afterDl) (fun t => downSend t b) s)

end Sys2Proof.Machine
end

