-- ==== Sys2Proof/Machine/Reed.lean ====
section
/-! DEFINITION. The Reed guardian (R135 to R144): up-slot gates, slot violations, muting, loss, energy outside windows, and
join gates (R100, R101, R106). -/
namespace Sys2Proof.Machine

/-! ### Up slots (R135, R136, R119, R138) -/

/-- The classes of an up-slot gate (R136). -/
inductive GateClass where
  | overrun | outOfBand | corrOpen | corrupted | missed | accepted
deriving DecidableEq, Repr

/-- DOWN_BAD of an up frame (R118). -/
def upDownBad (f : Bytes) : Nat := frTspec f / 2 ^ 24
/-- An up frame passes R109, R111 and R119 for the assignment of its node. -/
def upCheck (s : State) (n : Nat) (g : SlotAsg) (o : GateObs) : Bool :=
  let t := frTspec o.frame
  decide (o.codeViol = 0) && frameOk 2 n o.frame && decide (t / 2 ^ 22 % 4 = 0) && decide (t / 256 % 4 = 0) &&
    decide (t / 1024 % 1024 = o.frame.length - 10) && decide (o.frame.length - 10 + 20 = g.slen) && decide (t % 256 = (ps s).toNat % 256)
/-- The first preamble symbol lies inside the start band of an up slot (R135). -/
def inBand51 (o : GateObs) : Bool := match o.start with | some d => decide (-51 ≤ d) && decide (d ≤ 51) | none => false
/-- The class of a gate (R136), from what the checks R109, R111, R119 and R157 say of the frame. -/
def gateClass (o : GateObs) (passes : Bool) : GateClass :=
  if o.energyAtClose then .overrun
  else if o.energy && !inBand51 o then .outOfBand
  else if o.energyAtOpen && !passes then .corrOpen
  else if inBand51 o && !passes then .corrupted
  else if !o.energy then .missed
  else .accepted

/-- The due axes of a node take a cause of R180 until a job of theirs enters a list. -/
def dueCause (s : State) (n c : Nat) : State :=
  forEach ((nodeAxes s n).filter (fun a => (axOf s a).sm.jobDue)) (fun t a => modSm t a (fun m => { m with jobCause := c })) s

/-- What the guardian records of an accepted frame (R138, R145). The first frame after an admission adds nothing to DOWN_BAD (log 103). -/
def gateAccepted (s : State) (n : Nat) (o : GateObs) : State :=
  let d := o.start.getD 0
  let db := upDownBad o.frame
  let inc := match (ndOf s n).lastDb with | some p => (db + 256 - p) % 256 | none => 0
  let s1 := modNdc s n (fun c =>
    { c with framesOk := satInc 32 c.framesOk, ofsLast := d, ofsMax := imax c.ofsMax d, ofsMin := imin c.ofsMin d, downBad := satAdd 32 c.downBad inc })
  modNd s1 n (fun x => { x with noFrame := 0, accNow := true, lastDb := some db, sumDelta := x.sumDelta + d, nDelta := x.nDelta + 1 })

/-- What the guardian records of a gate whose frame is not used (R136, R139, R145). -/
def gateRefused (s : State) (n : Nat) (c : GateClass) : State :=
  let viol := c = .overrun || c = .outOfBand
  let s1 := modNdc s n (fun x =>
    match c with
    | .overrun => { x with violOvr := satInc 32 x.violOvr }
    | .outOfBand => { x with violBand := satInc 32 x.violBand }
    | .corrOpen => { x with corrEopen := satInc 32 x.corrEopen }
    | .corrupted => { x with corr := satInc 32 x.corr }
    | .missed => { x with missed := satInc 32 x.missed }
    | .accepted => x)
  modNd s1 n (fun x => { x with noFrame := x.noFrame + 1, viol := if viol then x.viol + 1 else x.viol })

/-- The parsers of a standby reproduce counts and debounce runs from a frame (R475). -/
def standbyAxis (s : State) (a : Nat) (raw : RawIn) : State :=
  if axDue s a (psPick (ps s)) then
    let d := fbRun s a false raw
    let s1 := modAx s a (fun y => { y with fb := d.fb, sm := { y.sm with lastInp := raw.inp, last := if d.done then raw else y.sm.last } })
    if d.done || d.fb.valid then modAx s1 a (fun y => { y with inp := limLatch (inSample s1 a d.first y.fb.cExt raw.inp y.inp) }) else s1
  else s

/-- A standby takes an up frame, or its absence, and keeps its statistics (R161, R163, R475). -/
def standbyGate (s : State) (n : Nat) (ls : List LaxInfo) (u : Nat) (acc : Bool) (fo : FrameOut) (db : Nat) : State :=
  let clear := fun (d : Node) => { d with kreqSeen := none, downMiss := false }
  if acc then
    let s1 := codeStats n fo ls (modNd s n (fun d => clear { d with lastAcc := some (ps s, db), chans := fo.chans, sync := .sync }))
    forEach (ls.filterMap (fun l => (axAt s1 n l.lax).map (fun a => (a, l.lax)))) (fun t p =>
      match fo.axes.find? (fun q => q.1 = p.2) with | some q => standbyAxis t p.1 q.2 | none => t) s1
  else modNd s n (fun d => clear (chansLose (some u) d))

/-- The active controller takes an up frame, or its absence: the buffer, the coding state and the statistics of coding
(R160, R173, R175). -/
def activeGate (s : State) (n : Nat) (ls : List LaxInfo) (acc : Bool) (fo : FrameOut) (db : Nat) : State :=
  let b := n / 4
  let full := 2 ≤ (brOf s b).rxBuf.length
  let s1 :=
    if acc && !full then
      modBr (dueCause (codeStats n fo ls (modNd s n (accNode s fo db))) n 3) b
        (fun r => { r with rxBuf := r.rxBuf ++ [{ node := n, discarded := fo.discarded, axes := fo.axes }] })
    else if acc then dueCause (modBrc (modNd s n (notAccepted (ps s))) b (fun c => { c with rxDrop := satInc 32 c.rxDrop })) n 3
    else modNd s n (notAccepted (ps s))
  modNd s1 n waitCount

/-- The gate of a node's up slot as it closes: the assignment has begun, and code violations are counted (R136, R145, R151). -/
def gateOpen (s : State) (n : Nat) (g : SlotAsg) (o : GateObs) : State :=
  modBr (modBrc (modNd s n (fun d => { asgBegin (ndOf s n).desc g d with gateNow := true })) (n / 4) (fun c => { c with codeViol := satAdd 32 c.codeViol o.codeViol }))
    (n / 4) (fun r => { r with runOn := if o.energyAtClose then some (n % 4) else none })
/-- What the frame of a gate decodes to (R150 to R161). -/
def gateFrame (s : State) (n : Nat) (g : SlotAsg) (o : GateObs) : FrameOut :=
  let ls := laxInfos (ndOf s n).desc g
  let u := (ps s).toNat / 2 ^ g.rcode
  (if parsesOnly s then standbyDecode else frameDecode) s (ndOf s n) ls u (upDownBad o.frame) (frPayload o.frame)
/-- The class of a node's gate (R136). -/
def upClass (s : State) (n : Nat) (g : SlotAsg) (o : GateObs) : GateClass := gateClass o (upCheck s n g o && (gateFrame (gateOpen s n g o) n g o).ok)
/-- The gate of a node's up slot closes (R136). -/
def upGate (s : State) (n : Nat) (g : SlotAsg) (o : GateObs) : State :=
  let s0 := gateOpen s n g o
  let ls := laxInfos (ndOf s n).desc g
  let db := upDownBad o.frame
  let fo := gateFrame s0 n g o
  let c := upClass s n g o
  let acc := c = .accepted
  let s1 := if acc then gateAccepted s0 n o else gateRefused s0 n c
  if parsesOnly s then standbyGate s1 n ls ((ps s).toNat / 2 ^ g.rcode) acc fo db else activeGate s1 n ls acc fo db

/-- UP_SLOT_GATE_CLOSE: the gate of a node that is due in this pick closes (R136). The slot of a node that is not admitted is
not classified. -/
def execUpSlotGateClose (n : NodeNo) (obs : GateObs) (s : State) : Host.Outcome State Fault Refusal :=
  finishD s
    (match asgOf s n with
     | some g =>
       if nodeDue s n = true ∧ (ndOf s n).gateNow = false ∧ (branchOn s (n.val / 4) = true ∨ isStandby s = true) then upGate s n g obs else s
     | none => s)

/-! ### Muting and loss (R139, R144) -/

/-- NODE_MUTED: the violations of a node in one bolt reach 4, and it is muted from the next pick on (R139); with the partner
in SYNC, from the first pick behind its acknowledgement (R478). Only the active controller mutes (R143). -/
def execNodeMuted (n : NodeNo) (s : State) : Host.Outcome State Fault Refusal :=
  let d := ndOf s n
  finishD s
    (if sending s = true ∧ d.admitted = true ∧ 4 ≤ d.viol ∧ d.muted = false ∧ d.muteDue = false then
      let q := sendWait s (.network n d.admitted true d.integrated d.lost d.tRt d.desc d.asg) false
      raise (modNdc (modNd q.1 n (fun x => { x with muteDue := true, muteItem := q.2 })) n (fun c => { c with mute := satInc 16 c.mute })) 0x3107 n
        [BitVec.ofNat 8 (n.val / 4)]
     else s)

/-- The window of this bolt that would carry the rejoin table (R549), the first that is no rejoin window, has passed. -/
def tableGone (s : State) (b : Nat) : Bool :=
  let i := psPick (ps s)
  let gone := nsum (((List.range 32).filter (fun j => decide (j < i))).map (acycIn s b)) + (if s.clk.afterDl then acycIn s b i else (brOf s b).win)
  decide ((if rejoinFirst s b then 2 else 1) ≤ gone)

/-- NODE_LOST: no frame has been accepted in 32 consecutive due picks; the admission is dropped and withdrawals are queued
(R144). -/
def execNodeLost (n : NodeNo) (s : State) : Host.Outcome State Fault Refusal :=
  let d := ndOf s n
  finishD s
    (if sending s = true ∧ d.admitted = true ∧ 32 ≤ d.noFrame then
      let s1 := modNd (nodeDrop s n) n (fun x => { x with withdraw := 4 })
      let s1 := modBr s1 (n.val / 4) (fun r => { r with tabSent := r.tabSent || tableGone s (n.val / 4) })
      rejoinBlock (raise s1 0x3109 n [BitVec.ofNat 8 (n.val / 4)]) n
     else s)

/-! ### Energy outside windows (R137, R141) -/

/-- The node of a branch that a burst is attributed to (R137): the one whose own slot it continues, or the one whose ADDR a valid header
of a node's frame (R110: an up frame or a reply) decoded in the burst carries. -/
def burstNode (s : State) (b : Nat) (u : Burst) : Option Nat :=
  let h := rdLe u.decoded 0 2
  match (brOf s b).runOn with
  | some t => if u.goesOn then some (4 * b + t) else if decide (6 ≤ u.decoded.length) && (h % 256 = 0x21 || h % 256 = 0x51) && h / 1024 = b then some (h / 256) else none
  | none => if decide (6 ≤ u.decoded.length) && (h % 256 = 0x21 || h % 256 = 0x51) && h / 1024 = b then some (h / 256) else none
/-- A burst outside windows or a readback mismatch (R137). -/
def eowNote (s : State) (b : Nat) (node : Option Nat) (readback : Bool) : State :=
  let all := (List.range 4).filterMap (fun t => if (ndOf s (4 * b + t)).admitted then some (4 * b + t) else none)
  let inv := match node with | some n => [n] | none => all
  let s1 := modBr s b (fun r => { r with eowNow := true, eowNodes := dedup (r.eowNodes ++ inv), rbNow := r.rbNow || readback })
  modBrc s1 b (fun c =>
    { c with readback := if readback then satInc 32 c.readback else c.readback,
             unattrib := if node.isNone then satInc 32 c.unattrib else c.unattrib })

/-- ENERGY_OUTSIDE_WINDOWS (R137), on any branch at any time from READY on; while the controller listens, the energy is also noise of
the branch, if its BRPWR is high (R95; DESIGN CHOICE, log 118). -/
def execEnergyOutsideWindows (b : BranchNo) (burst : Burst) (readback : Bool) (s : State) : Host.Outcome State Fault Refusal :=
  finishD s (when s.boot.ready (fun t =>
    eowNote (when (t.net.phase = .listening) (fun u => modBr u b (fun r => { r with noise := r.noise || r.brpwr })) t) b (burstNode t b burst) readback) s)

/-! ### Join and rejoin gates (R100, R101, R121) -/

/-- A join frame passes R109, R111 and R121 for the tap of its slot. -/
def joinCheck (tap : Nat) (o : GateObs) : Bool :=
  let pl := rdLe (frPayload o.frame) 0 4
  decide (o.codeViol = 0) && frameOk 3 0 o.frame && decide (o.frame.length = 14) && decide (pl % 4 = tap) &&
    decide (pl % 256 / 4 = 0) && decide (pl / 65536 = 0)
/-- The first preamble symbol lies inside the start band of a join slot (R100). -/
def inJoinBand (o : GateObs) : Bool := match o.start with | some d => decide (-52 ≤ d) && decide (d ≤ 128) | none => false
/-- A join or rejoin gate of a tap is open in this pick (R97, R106, R135). -/
def joinGate (s : State) (b tap : Nat) : Bool :=
  let i := psPick (ps s)
  let n := 4 * b + tap
  (i = 31 && hasJoinSlot s n && !(ndOf s n).integrated) ||
    (match tabFind (brOf s b).rejoin tap with
     | some w => w.1 = i && (ndOf s n).lost && (isStandby s || rejoinTold (brOf s b) tap) && (w.2 != upEnd s.clk.plen / 16 || rejoinWindow s b 0 || isStandby s)
     | none => false)

/-- A join gate closes (R100, R101 step 2, R146). A standby keeps its own counters and does nothing else (R143). -/
def joinClose (s : State) (b tap : Nat) (o : GateObs) : State :=
  let n := 4 * b + tap
  let s0 := modBrc s b (fun c => { c with codeViol := satAdd 32 c.codeViol o.codeViol })
  if joinCheck tap o && inJoinBand o then
    let d := o.start.getD 0
    let s1 := modBrc s0 b (fun c => { c with joinOk := satInc 16 c.joinOk })
    when (!isStandby s) (fun t => modBr (modNd t n (fun x => { x with tRt := d, drev := rdLe (frPayload o.frame) 1 1, nser := frTspec o.frame })) b
      (fun r => { r with joinAck := r.joinAck ++ [(tap, d)] })) s1
  else if o.energy then
    let s1 := modBrc s0 b (fun c => { c with joinBad := satInc 32 c.joinBad })
    if joinCheck tap o ∨ hasJoinSlot s n = false ∨ isStandby s = true then s1 else modBr s1 b (fun r => { r with joinBadNow := dedup (r.joinBadNow ++ [tap]) })
  else s0

/-- JOIN_SLOT_GATE_CLOSE: a join or rejoin gate closes (R100). -/
def execJoinSlotGateClose (b : BranchNo) (tap : TapNo) (obs : GateObs) (s : State) : Host.Outcome State Fault Refusal :=
  finishD s (when ((branchOn s b || (isStandby s && (brOf s b).brpwr)) && joinGate s b tap) (fun t => joinClose t b tap obs) s)

end Sys2Proof.Machine
end

