-- ==== Sys2Proof/Machine/Network.lean ====
section
/-! DEFINITION. The start of the drive network (R91, R94 to R97, R24), branch power, pick markers (R112, R113) and calibration
windows (R88, R89). -/
namespace Sys2Proof.Machine

/-! ### Branch power (R91) -/

/-- The bolt at whose pick 0 markers start on a branch whose BRPWR rises now (R91): the first that begins at least
the stagger of the sequence later. -/
def markBolt (s : State) : Nat :=
  let i := psPick (ps s)
  let t0 := s.clk.pickT0 - i * tPick s
  (psBolt (ps s) + cdiv (s.clk.now + s.net.stagger * millisecond - t0) (tBolt s)) % 2 ^ 27

/-- Raise BRPWR of one branch (R91), unless it is cut (R92). While the controller sends, its markers start later; before the first pick of
a cold start bolts are counted from that pick. -/
def brRaise (s : State) (b : Nat) : State :=
  if (brOf s b).cut then s
  else
    let k := if s.clk.started then markBolt s else max 1 (cdiv (s.net.stagger * millisecond) (tBolt s))
    brItem (modBr s b (fun r => { r with brpwr := true, markFrom := if sending s then some k else none }))

/-- Begin listening (R94 step 1): noise seen earlier is forgotten. -/
def listen (s : State) : State :=
  { s with net.phase := .listening, brs := s.brs.map (fun p => (p.1, { p.2 with noise := false, markers := false })), clk.markers := false }

/-- Raise the next branch of the sequence; at a stagger of 0 every branch. The power-up after firmware start ends in
listening (R91, R94). -/
def powerNext : Nat → State → State
  | 0, s => s
  | k + 1, s =>
    match s.net.toPower with
    | [] => if s.net.phase = .powering then listen s else s
    | b :: bs =>
      let s1 := brRaise { s with net.toPower := bs } b
      if bs = [] ∨ s.net.stagger = 0 then powerNext k s1 else s1

/-- Begin a power-up sequence of some branches: it keeps the stagger in force now (R91). -/
def powerBegin (s : State) (bs : List Nat) : State := powerNext 20 { s with net := { s.net with toPower := bs, stagger := pnat s 0x0012 0 } }
/-- Begin the power-up sequence after firmware start (R91). -/
def powerUp (s : State) : State := powerBegin { s with net.phase := .powering } (brList s)

/-- BRPWR_STAGGER_EXPIRY: the next enabled branch is powered (R91). A standby raises none by itself (R93). -/
def execBrpwrStaggerExpiry (s : State) : Host.Outcome State Fault Refusal :=
  finishD s (when (!isStandby s && (!s.net.toPower.isEmpty || s.net.phase = .powering)) (powerNext 20) s)

/-! ### Pick markers (R112, R113) -/

/-- The value of M3 to M8 of the marker of the present pick. -/
def markerValue (s : State) : BitVec 48 :=
  let tail := s.clk.plen * 2 ^ 38 + (if roleB s then 2 ^ 37 else 0)
  if s.net.phase = .coldBolt then
    let c := Config.csid.toNat
    BitVec.ofNat 48 (c / 2 ^ 27 % 256 * 2 ^ 40 + tail + c % 2 ^ 27 * 32 + psPick (ps s))
  else BitVec.ofNat 48 (s.warp.epoch.toNat % 256 * 2 ^ 40 + tail + (ps s).toNat)

/-- The pick stamp a received marker carries: of a cold-start marker only the pick within bolt 0 (R113). -/
def markerStamp (running : Bool) (v : BitVec 48) : BitVec 32 :=
  if running then BitVec.ofNat 32 v.toNat else BitVec.ofNat 32 (v.toNat % 32)
/-- PLEN of a marker. -/
def markerPlen (v : BitVec 48) : Nat := v.toNat / 2 ^ 38 % 4

/-- Width of the PICK_OUT pulse at the start of the present pick (R34). -/
def pickOutNow (s : State) : Nat :=
  let m := pnat s 0x0011 0
  let z := psPick (ps s) = 0
  if m = 1 then 160 else if m = 2 then (if z then 160 else 0) else if m = 3 then (if z then 320 else 160) else 0

/-! ### Cold start (R94 to R97) -/

/-- What the controller knows of a node ends with a cold start: its admission and assignment (R104). -/
def nodeCold (d : Node) : Node :=
  { d with admitted := false, integrated := false, lost := false, asg := none, asgPrev := none, asgBegun := false, descDue := false,
           admitDue := false, descPart := [], descRetry := none, withdraw := 0, viol := 0, noFrame := 0, sumDelta := 0, nDelta := 0, blocked := false,
           wrPend := [], wrBad := [] }
/-- A branch at a cold start: markers on the powered ones that are not cut. Transfers that wait or are in progress are dropped without a
count or an event (DESIGN CHOICE, log 116). -/
def branchCold (r : Branch) : Branch :=
  { r with markers := r.brpwr && !r.cut, markFrom := none, resume := false, xfer := none, retry := none, xfers := [], rejoin := [], joinAck := [],
           tabSent := false, rxBuf := [], held := [], eowNow := false, eowNodes := [], eowPast := [], rejoinSent := [], runOn := none }

/-- The pick stamp begins again: the open block of every history is closed into staging (R347). -/
def histsClose (k : Kiln) : Kiln :=
  { k with staged := k.staged ++ (k.hists.map (fun (p : Nat × Hist) => p.2.opens.map (fun q => (8, q.2)))).flatten,
           hists := k.hists.map (fun (p : Nat × Hist) => (p.1, { p.2 with opens := [] })) }

/-- Send cold-start markers from the next pick on (R94 step 3), with the Draft of R97. The axes lose their placement, and a unit keeps its
buffer until a full run moves it (R341). A run that
a command started runs again after the cold start (DESIGN CHOICE, log 28). The epoch and the bank stay as they are (DESIGN CHOICE, log
101). -/
def coldStart (s : State) : State :=
  let s1 := forEach ((s.warp.place.axes.filter (fun p => !p.unplaced)).map (·.axis)) axUnplace s
  let s2 := { s1 with net := { s1.net with phase := .coldBolt, firstRunDue := true, readbackBad := false },
                      clk := { s1.clk with started := false, boltDone := false }, kiln := histsClose s1.kiln,
                      nodes := s1.nodes.map (fun (p : Nat × Node) => (p.1, nodeCold p.2)),
                      brs := s1.brs.map (fun (p : Nat × Branch) => (p.1, branchCold p.2)) }
  let again := (s2.warp.running.filter (fun r => r.trig != 4)).toList ++ (s2.warp.result.map (·.1)).toList
  { s2 with warp := { s2.warp with place := { acq := s2.warp.place.acq }, placed := false, result := none, resItem := none, pendNodes := [],
                                   running := s2.warp.running.filter (fun r => r.trig = 4),
                                   queue := again.filter (fun r => r.trig != 2 && r.trig != 6) ++ s2.warp.queue } }
/-- The Draft before the first placement (R97), written where the Draft in force stands: no epoch is raised and no bank is exchanged (R132;
DESIGN CHOICE, log 101). -/
def coldDraft (s : State) : State := { s with warp.place := { s.warp.place with draft := draft0 s } }

/-- COLD_START_LISTEN_END: no marker has been heard in two bolts (R94 step 3); branches that carried energy are cut (R95). -/
def execColdStartListenEnd (s : State) : Host.Outcome State Fault Refusal :=
  finishD s
    (if s.net.phase = .listening then
      let noisy := (List.range 16).filter (fun b => brEnabled s b && (brOf s b).noise)
      coldDraft (coldStart (forEach noisy (fun t b => branchCut (raise t 0x3103 b []) b) s))
     else s)

/-- The attempt of the head has ended: an automatic requeue that waited for it is made, and then each command that waited requeues the FIFO
and completes with the number of entries moved (R433). -/
def canHeadEnd (s : State) (c : Nat) : State :=
  let auto := (canOf s c).autoDue
  let s1 := modCan s c (fun x => { x with onBus := false, autoDue := false })
  let s2 := when auto (fun t => modCan t c (fun x => { (canRequeue t.clk.now x).1 with autoRq := satInc 16 x.autoRq })) s1
  forEach (List.range 12) (fun t m =>
    forEach ((mbOf t m).flights.filter (fun f => f.wait = some (.canHead c)))
      (fun u f =>
        let r := canRequeue u.clk.now (canOf u c)
        produce (modCan u c (fun _ => r.1)) m f 0 (le 4 r.2)) t) s2

/-- A restarted channel: a command that waited for the head ends as well (R425, R433). -/
def canRestartEnd (s : State) (c : Nat) : State := canHeadEnd (canRestart s c) c

/-- The controller changes role: IRQ_STAT shows it (R373), and the CAN channels follow it (R423, R490). -/
def roleSet (s : State) (act : Bool) : State :=
  forEach [0, 1, 2] (fun u c => if (canOf u c).stopDue then canRestartEnd u c else when (canEff u c != (canOf u c).mode) (fun v => canHeadEnd (canRole v c) c) u)
    { s with pair.active := act, qspi.roleChg := true }

/-- Forget what a unit has recorded and not written into a capture. -/
def unClear (s : State) (u : Nat) : State :=
  modUn { s with kiln.staged := s.kiln.staged.filter (fun p => p.1 != u) } u
    (fun x => { x with opens := [], blocks := [], rates := [] })
/-- A unit goes to IDLE: what it records is discarded. -/
def unIdle (s : State) (u : Nat) : State :=
  if (unOf s u).st = 0 then s
  else modUn (unClear s u) u (fun x => { x with st := 0, trig := none, post := none, npost := 0, cands := [], ovf := false, rateDue := none })
/-- Become standby and follow the markers (R94 step 2, R483). Its acquisition units are IDLE (R353). The count of consecutive contentions ends here, whatever marker it was
(R96; DESIGN CHOICE, log 100). -/
def follow (s0 : State) (running : Bool) (v : BitVec 48) : State :=
  let s := when s0.pair.active (fun t => roleSet (forEach (List.range 8) unIdle t) false) s0
  { s with net := { s.net with phase := .following, contentions := 0, firstRunDue := false },
           pair := { s.pair with judge := running, silent := 0, segNow := false },
           brs := s.brs.map (fun p => (p.1, { p.2 with markers := false, markFrom := none, resume := false })),
           clk := { s.clk with pstamp := markerStamp running v, started := true, pickT0 := s.clk.now, plen := markerPlen v, plenStop := 0,
                               markers := true, boltDone := false, afterDl := false } }

/-- FOREIGN_MARKER_RECEIVE: a valid marker while listening (R94 step 2). -/
def execForeignMarkerReceive (b : BranchNo) (running : Bool) (value : BitVec 48) (s : State) : Host.Outcome State Fault Refusal :=
  finishD s
    (if s.net.phase = .listening then
      (if s.pair.en then
        let s1 := follow s running value
        { s1 with clk.pickOut := pickOutNow s1 }
       else listen (raise s 0x3102 b []))
     else s)

/-- The wait of R96 in bolts after the contention just counted. -/
def backoffWait (s : State) : Nat :=
  let n := s.net.contentions
  if s.acc.roleNow = 0 ∨ 4 ≤ n then 1 + crc32c (le 5 Config.csid.toNat ++ [BitVec.ofNat 8 n]) % 8
  else if roleB s then 3 else 1
/-- A readback of the first bolt differs (R96). -/
def contend (s : State) : State :=
  let s1 := raise { s with net := { s.net with phase := .backoff, contentions := s.net.contentions + 1, firstRunDue := false, readbackBad := true },
                           clk.markers := false, brs := s.brs.map (fun p => (p.1, { p.2 with markers := false })) } 0x3101 noInst []
  { s1 with net.backoffBolts := backoffWait s1 }

/-- CS_BACKOFF_EXPIRY: the wait ends and listening starts again (R96 step 4). -/
def execCsBackoffExpiry (s : State) : Host.Outcome State Fault Refusal :=
  finishD s (when (s.net.phase = .backoff) (fun t => listen { t with net.backoffBolts := 0 }) s)

/-- The comparisons of the first bolt agree: this controller leads (R94 step 5), and its first full run is due (R97). -/
def leadNow (s : State) : State :=
  let t : State := { s with net := { s.net with phase := .running, contentions := 0 } }
  when (!s.pair.active) (fun u => roleSet u true) t

/-! ### Change of pick length (R24) -/

/-- The markers stop at the bolt boundary (R24 step 1). -/
def plenSilence (s : State) : State :=
  { s with net.phase := .silence, clk := { s.clk with plenStop := 2, plenT := s.clk.now, markers := false },
           brs := s.brs.map (fun p => (p.1, { p.2 with markers := false })) }

/-- PICK_LEN_SILENCE_END: two bolts of silence have passed; the cold start at the new length begins (R24 step 2). -/
def execPickLenSilenceEnd (s : State) : Host.Outcome State Fault Refusal :=
  finishD s
    (if s.net.phase = .silence then listen { s with clk := { s.clk with plen := s.clk.plenNew, plenStop := 0 }, net.fromPlen := true } else s)

/-- STANDBY_RESTART_TIMEOUT: no running marker has come within 8 bolts of the stop (R24). -/
def execStandbyRestartTimeout (s : State) : Host.Outcome State Fault Refusal :=
  finishD s
    (if s.net.phase = .following ∧ s.clk.plenStop = 2 then
      listen { s with clk := { s.clk with plen := s.clk.plenNew, plenStop := 0 }, net.fromPlen := true } else s)

/-! ### Calibration windows (R88, R89) -/

/-- One trim step. -/
def trimBy (t : TrimStep) : Int := match t with | .down => -1 | .stay => 0 | .up => 1
/-- DEV_BR_CAL (R89). -/
def brCal (r : Branch) : Nat := wrapU 8 r.trim * 256 + r.drv
/-- Move the codes of a branch by their steps, with the event of each code that reaches an end of its range. -/
def calStep (s : State) (b : Nat) (drv trim : TrimStep) : State :=
  let r := brOf s b
  let d := (clamp 0 31 ((r.drv : Int) + trimBy drv)).toNat
  let t := clamp (-128) 127 (r.trim + trimBy trim)
  let dl := decide (d = 0 ∨ d = 31)
  let tl := decide (t = -128 ∨ t = 127)
  let s1 := modBr s b (fun x => { x with drv := d, trim := t, drvLim := dl, trimLim := tl })
  let s2 := when (dl && !r.drvLim) (fun u => raise u 0x3106 b []) s1
  when (tl && !r.trimLim) (fun u => raise u 0x3106 b []) s2

/-- CALIBRATION_WINDOW: the window of a branch, once in pick 2 × b (R88, R89). A branch that carries no markers has none (DESIGN CHOICE,
log 117). -/
def execCalibrationWindow (b : BranchNo) (drv trim : TrimStep) (s : State) : Host.Outcome State Fault Refusal :=
  finishD s (when (branchOn s b && decide (psPick (ps s) = 2 * b.val) && !(brOf s b).calDone)
    (fun t => modBr (calStep t b drv trim) b (fun x => { x with calDone := true })) s)

end Sys2Proof.Machine
end

