-- ==== Sys2Proof/Machine/Kiln.lean ====
section
/-! DEFINITION. The Kiln (R326 to R356): trace values, blocks and their coding, acquisition units with their triggers and
captures, axis histories, and the acquisition commands of R394. -/
namespace Sys2Proof.Machine

/-! ### Trace variables (R326 to R328) -/

/-- A selector names a listed variable with an instance in its range (R327); 0 names no variable. -/
def selOk (sel : Nat) : Bool :=
  let c := sel / 256
  let i := sel % 256
  if 1 ≤ c ∧ c ≤ 0x18 then i < 128 else if c = 0x40 then i < 64 else if c = 0x41 then i < 8 else if c = 0x42 then i = 0
  else if c = 0x43 then i < 4 else if c = 0x44 then i < 16 else sel = 0
/-- The variable wraps (R327). -/
def selWraps (sel : Nat) : Bool := let c := sel / 256; c = 1 || c = 2 || c = 3 || c = 0x16
/-- A class produces a variable of an axis (R328). -/
def selMade (cls code : Nat) : Bool :=
  if code ≤ 2 ∨ code = 5 ∨ code = 0x17 ∨ code = 0x18 then true
  else if code = 3 ∨ code = 4 ∨ code = 6 ∨ code = 7 then cls != 4
  else if code = 8 ∨ code = 0x0F then cls = 1 || cls = 2
  else if code = 0x0B ∨ code = 0x0C then cls = 1 || cls = 3
  else if code = 0x0E then cls = 2
  else if code = 0x15 then cls = 2 || cls = 3
  else cls = 1
/-- The value of an axis variable in force (R327). -/
def axTrace (s : State) (a code : Nat) : Int :=
  let x := axOf s a
  match code with
  | 0x01 => asr x.fb.pos 16
  | 0x02 => x.fb.pos
  | 0x03 => asr x.prof.posRef 16
  | 0x04 => x.prof.posRef - x.fb.pos
  | 0x05 => x.fb.vAct
  | 0x06 => x.prof.vRef
  | 0x07 => x.prof.aRef
  | 0x08 => x.lp.iqRef
  | 0x09 => x.lp.idm
  | 0x0A => x.lp.iqm
  | 0x10 => x.lp.vAl
  | 0x11 => x.lp.vBe
  | 0x15 => wrapS 32 x.md.aux
  | 0x16 => x.lp.theta
  | 0x17 => wrapS 32 (axState x.sm)
  | 0x18 => x.sm.lastInp.toNat
  | _ =>
    if 0x0B ≤ code ∧ code ≤ 0x0F then x.lp.meas.getD (code - 0x0B) 0
    else if 0x12 ≤ code ∧ code ≤ 0x14 then x.md.sent.getD (code - 0x12) 0 else 0
/-- The channel of a current or voltage variable in the last frame used was no measurement (R328). -/
def axHeld (s : State) (a code : Nat) : Bool :=
  let r := (axOf s a).sm.raw
  if code = 0x0B then !isMeas r.ia else if code = 0x0C then !isMeas r.ib else if code = 0x0D then !isMeas r.ic
  else if code = 0x0E then !isMeas r.idc else if code = 0x0F then !isMeas r.ubus else false
/-- Keep a stored value to its 32-bit word: modulo 2^32 for a wrapping variable, clamped otherwise (R327). -/
def fix32 (wraps : Bool) (v : Int) : Int := if wraps then wrapS 32 v else sat32 v
/-- The node of a variable is muted or lost (R328). -/
def selHeld (s : State) (sel : Nat) : Bool :=
  let c := sel / 256
  let n := if c ≤ 0x18 then axNode s (sel % 256) else sel % 256
  (decide (c ≤ 0x18) || c = 0x40) && ((ndOf s n).muted || (ndOf s n).lost)
/-- What a variable without an entry in a pick's trace read: 0, a gap for a variable of an axis that is not declared (R328). -/
def traceRest (sel : Nat) : Int × Bool := (0, decide (1 ≤ sel / 256) && decide (sel / 256 ≤ 0x18))
/-- The value of a variable in a pick's trace. -/
def traceAt (t : Tab (Int × Bool)) (sel : Nat) : Int × Bool := tabGet (traceRest sel) t sel
/-- The value of a variable, and whether it is one of R328 that counts as a gap. -/
def traceVal (s : State) (sel : Nat) : Int × Bool :=
  let c := sel / 256
  let i := sel % 256
  let w := selWraps sel
  let last := fun (v : Int) => match s.kiln.trace with | t :: _ => (traceAt t sel).1 | [] => v
  if c = 0 then (0, false)
  else if c ≤ 0x18 then
    if axClass s i = 0 then (0, true)
    else if selMade (axClass s i) c = false then (0, false)
    else if (axOf s i).sm.st = .disabled ∨ placed s i = false then (0, true)
    else
      let v := fix32 w (axTrace s i c)
      if selHeld s sel then (last v, true) else (v, axHeld s i c)
  else if c = 0x40 then
    let v : Int := (ndcOf s i).ofsLast
    if selHeld s sel then (last v, true) else (v, false)
  else if c = 0x41 then ((laneOf s i).fPick, false)
  else if c = 0x42 then (sat32 s.boot.dieTemp, false)
  else if c = 0x43 then (b2n (s.kiln.trigLvl.toNat.testBit i), false)
  else (sat32 (grpOf s i).c, false)

/-! ### Blocks (R347 to R349) -/

/-- The symbols z, q and the reconstruction y of the samples after the first (R348). `y2` is the reconstruction before the
last, none at the second sample. -/
def kSyms (w : Bool) (b : Nat) : Option Int → Int → List Int → List (Nat × Int × Int)
  | _, _, [] => []
  | y2, y1, x :: xs =>
    let p := match y2 with | none => y1 | some y => fix32 w (2 * y1 - y)
    let r := if w then wrapS 32 (x - p) else x - p
    let q := rshr r b
    let y := fix32 w (p + shl q b)
    ((if 0 ≤ q then 2 * q else -2 * q - 1).toNat, q, y) :: kSyms w b (some y1) y xs
/-- The symbols of a block. -/
def kBlockSyms (k : KBlock) : List (Nat × Int × Int) := kSyms k.wraps k.bexp none (k.xs.headD 0) (k.xs.drop 1)
/-- Bits of one symbol under a Rice parameter (R348). -/
def kBits (rk z : Nat) : Nat := if z / 2 ^ rk < 24 then z / 2 ^ rk + 1 + rk else 58
/-- Payload bits of symbols under a Rice parameter, before padding. -/
def kSum (zs : List Nat) (rk : Nat) : Nat := nsum (zs.map (kBits rk))
/-- Payload bytes of symbols under a Rice parameter. -/
def kLen (zs : List Nat) (rk : Nat) : Nat := cdiv (kSum zs rk) 8
/-- The Rice parameter: the smallest payload, the smaller of equals (R349). Payloads are compared in bits, as the worked example
of the chapter compares them (DEDUCED, log 31). -/
def kBest (zs : List Nat) : Nat := (argMin (fun k => (kSum zs k : Int)) (List.range 32)).getD 0
/-- Append the low w bits of a value to a bit stream of a given length (R155). -/
def kPut (acc : Nat × Nat) (w : Nat) (v : Int) : Nat × Nat := (acc.1 + wrapU w v * 2 ^ acc.2, acc.2 + w)
/-- Append one symbol (R348). -/
def kPutSym (rk : Nat) (acc : Nat × Nat) (y : Nat × Int × Int) : Nat × Nat :=
  let n := y.1 / 2 ^ rk
  if n < 24 then kPut (kPut acc (n + 1) (2 ^ n - 1 : Nat)) rk y.1 else kPut (kPut acc 24 (2 ^ 24 - 1 : Nat)) 34 y.2.1
/-- How a block is stored: RAW, its Rice parameter and its payload (R348, R349). -/
def kPayload (k : KBlock) : Bool × Nat × Bytes :=
  let ss := kBlockSyms k
  let zs := ss.map (·.1)
  let rk := kBest zs
  let n := kLen zs rk
  if 4 * ss.length < n then (true, 0, ((k.xs.drop 1).map (leS 4)).flatten)
  else (false, rk, le n (ss.foldl (kPutSym rk) (0, 0)).1)
/-- The bytes of a block (R347). -/
def kBytes (k : KBlock) : Bytes :=
  let p := kPayload k
  words [(k.gaps.countP id) * 2 ^ 24 + k.dcode * 2 ^ 20 + k.bexp * 65536 + b2n k.hist * 32768 + k.src * 256 + k.hvar * 32 + b2n (k.sat.any id) * 16 + 1,
         p.2.2.length * 65536 + k.xs.length * 512 + b2n p.1 * 256 + p.2.1 * 8 + k.avgk, k.ps0.toNat, wrapU 32 (k.xs.headD 0)] ++ p.2.2
/-- Length of a block. -/
def kSize (k : KBlock) : Nat := (kBytes k).length
/-- The reconstructions of a block as words (R352). -/
def kRecon (k : KBlock) : Bytes :=
  let ys := if (kPayload k).1 then k.xs else k.xs.headD 0 :: (kBlockSyms k).map (·.2.2)
  (ys.map (leS 4)).flatten
/-- Sample times t_s of a block (R326, R347). -/
def kTimes (s : State) (k : KBlock) : List Nat :=
  (List.range k.xs.length).map (fun i => k.t0 + 160 + i * 2 ^ k.dcode * tPick s)

/-! ### Staging (R342) -/

/-- Bytes of the closed blocks at the head of a queue that the 256 KiB of the staging buffer hold, with what they add to `n` bytes. -/
def stHeld : Nat → List (Nat × KBlock) → Nat
  | n, [] => n
  | n, p :: ps => if n + kSize p.2 ≤ 262144 then stHeld (n + kSize p.2) ps else n
/-- Bytes in the staging buffer (R342). Open blocks, and closed ones that wait behind a full buffer, are in the coder (log 110). -/
def stFill (s : State) : Nat := stHeld 0 s.kiln.staged
/-- The staging buffer is full: it has no room for one more block of the largest size behind those that wait for it. -/
def stFull (s : State) : Bool := decide (262144 < nsum (s.kiln.staged.map (fun p => kSize p.2)) + 268)
/-- Close the open blocks of a unit into staging. -/
def unFlush (s : State) (u : Nat) : State :=
  let os := (unOf s u).opens
  modUn { s with kiln.staged := s.kiln.staged ++ os.map (fun p => (u, p.2)) } u (fun x => { x with opens := [] })
/-- Close the open blocks of a history into staging. -/
def hiFlush (s : State) (a : Nat) : State :=
  let os := (hiOf s a).opens
  modHi { s with kiln.staged := s.kiln.staged ++ os.map (fun p => (8, p.2)) } a (fun x => { x with opens := [] })
/-- The staged blocks of a unit. -/
def unStaged (s : State) (u : Nat) : List KBlock := (s.kiln.staged.filter (fun p => p.1 = u)).map (·.2)

/-! ### Units (R329 to R332) -/

/-- The channels of a unit that name a variable, ascending (R329). -/
def unChans (s : State) (u : Nat) : List Nat := (List.range 96).filter (fun c => pnat s 0x0721 c = u && pnat s 0x0720 c != 0)
/-- ACQ_MODE of a unit: 0 single, 1 repeat, 2 stream. -/
def unMode (s : State) (u : Nat) : Nat := pnat s 0x0700 u % 4
/-- k of R332. -/
def avgK (n : Nat) : Nat := if n = 1 then 0 else if n = 4 then 1 else if n = 16 then 2 else if n = 64 then 3 else 4
/-- Bytes of a unit's buffer (R350). -/
def unBuf (s : State) (u : Nat) : Nat := match s.warp.place.acq.find? (fun p => p.1 = u) with | some p => p.2.2 * 2 ^ 20 | none => 0
/-- B_cap of R350 for a number of channels and the samples asked for. -/
def bCapOf (nch pre post : Nat) : Nat := 224 + 4 * nch + 268 * nch * (cdiv (pre + post) 64 + 18)
/-- B_cap of a unit. -/
def bCap (s : State) (u : Nat) : Nat := bCapOf (unChans s u).length (pnat s 0x0703 u) (pnat s 0x0704 u)

/-- The mean of R332 over N values, latest first, with whether sat32 acted. -/
def kMean (w : Bool) (k : Nat) (vs : List Int) : Int × Bool :=
  if w then
    let v0 := vs.getLastD 0
    (wrapS 32 (shl v0 k + rshr (isum (vs.map (fun v => wrapS 32 (v - v0)))) k), false)
  else
    let x := rshr (isum vs) k
    (sat32 x, x != sat32 x)

/-- A block with one more sample. -/
def kAdd (x : Int) (gap sat : Bool) (k : KBlock) : KBlock := { k with xs := k.xs ++ [x], gaps := k.gaps ++ [gap], sat := k.sat ++ [sat] }

/-- Values before the first pick of this controller as the active one are free (log 2): as many as N asks for stand after the known
ones. -/
def padFree (s : State) (n : Nat) (vs : List (Int × Bool)) : List (Int × Bool) :=
  vs ++ (List.range (n - vs.length)).map (fun i => (Config.freeInt (s.freeCtr + i), true))

/-- Store the sample of one channel of a unit into its open block (R331, R332, R347). -/
def chStore (u : Nat) (s : State) (c : Nat) : State :=
  let x := unOf s u
  let sel := pnat s 0x0720 c
  let n := pnat s 0x0702 u
  let vs := (padFree s n (s.kiln.trace.map (fun t => traceAt t sel))).take n
  let mv := kMean (selWraps sel) (avgK n) (vs.map (·.1))
  let gap := vs.any (·.2)
  let k0 : KBlock :=
    { hist := false, src := c, hvar := 0, ps0 := ps s, t0 := s.clk.pickT0, dcode := x.code, bexp := pnat s 0x0722 c, avgk := avgK n,
      wraps := selWraps sel, gaps := [], sat := [], xs := [], lost := false }
  modUn { s with freeCtr := s.freeCtr + n } u (fun y => { y with opens := tabSet y.opens c (kAdd mv.1 gap mv.2 (tabGet k0 y.opens c)) })

/-- Close the open blocks of a unit once they hold 64 samples (R347). -/
def unFull (s : State) (u : Nat) : State :=
  if (unOf s u).opens.any (fun p => decide (64 ≤ p.2.xs.length)) then unFlush s u else s

/-- A unit drops samples or blocks (R342, R343): counted, and raised once per bolt. -/
def unDrop (s : State) (u : Nat) : State :=
  let x := unOf s u
  let s1 := modUn s u (fun y => { y with ovf := true, ovfCnt := satInc 32 y.ovfCnt, ovfRaised := true })
  if x.ovfRaised then s1 else raise s1 0xA103 u []

/-! ### The capture in progress (R338 to R340) -/

/-- Every block of a unit that has been recorded: written, staged and open. -/
def unBlocks (s : State) (u : Nat) : List KBlock := (unOf s u).blocks ++ unStaged s u ++ (unOf s u).opens.map (·.2)
/-- The sample times of a unit, from its first channel. -/
def unTimes (s : State) (u : Nat) : List Nat :=
  let c := (unChans s u).headD 0
  (((unBlocks s u).filter (fun k => k.src = c)).map (kTimes s)).flatten
/-- The pick stamp of a sample time. -/
def timePick (s : State) (t : Nat) : BitVec 32 := ps s - BitVec.ofNat 32 ((s.clk.pickT0 + 160 - t) / tPick s)
/-- Keep the samples of a block up to a time. -/
def kCut (s : State) (t : Nat) (k : KBlock) : KBlock :=
  let n := (kTimes s k).countP (fun q => decide (q ≤ t))
  { k with xs := k.xs.take n, gaps := k.gaps.take n, sat := k.sat.take n }
/-- Time of the first post sample of a trigger, if it is stored (R338). -/
def postTime (s : State) (u : Nat) (g : Trig) : Option Nat := (unTimes s u).find? (fun t => decide (g.t32 ≤ t * 32))
/-- The blocks of the capture in progress, up to a time: from the start of the block that holds the earliest pre sample
(R338), in order of first sample and channel (R345). -/
def capBlocks (s : State) (u : Nat) (g : Trig) (last : Nat) : List KBlock :=
  let ts := unTimes s u
  let pre := ts.filter (fun t => decide (t * 32 < g.t32))
  let first := ((pre.drop (pre.length - pnat s 0x0703 u)).head?).getD ((postTime s u g).getD last)
  let ks := (unBlocks s u).filter (fun k => (kTimes s k).any (fun t => decide (first ≤ t)) && decide (k.t0 + 160 ≤ last))
  sortBy (fun x y => decide (x.t0 * 128 + x.src < y.t0 * 128 + y.src)) (ks.map (kCut s last))
/-- The rate records of a capture from its blocks: the changes after its first sample, up to the pick of its last one (R344, R345). -/
def capRates (u : AcqU) (ks : List KBlock) (last : BitVec 32) : List (BitVec 32 × Nat) :=
  match ks with
  | [] => []
  | k :: _ => u.rates.filter (fun r => decide (0 < wrapS 32 ((r.1.toNat : Int) - k.ps0.toNat)) && decide (0 ≤ wrapS 32 ((last.toNat : Int) - r.1.toNat)))
/-- Length of a capture (R345). -/
def capLen (nch : Nat) (rates : List (BitVec 32 × Nat)) (ks : List KBlock) : Nat :=
  96 + 4 * nch + 8 * min rates.length 16 + nsum (ks.map kSize)
/-- The bytes of a capture behind its header (R345, R346). -/
def capTail (c : Capture) : Bytes :=
  words c.chans ++ (c.rates.map (fun r => words [r.2, r.1.toNat])).flatten ++ (c.blocks.map kBytes).flatten
/-- The bytes of a capture (R345). -/
def capBytes (c : Capture) : Bytes :=
  let t := capTail c
  words ((c.hdr.set 11 (96 + t.length)).set 21 (crc32c t)) ++ t
/-- Bytes the captures of a unit hold. -/
def capsLen (u : AcqU) : Nat := nsum (u.caps.map (fun c => (capBytes c).length))

/-- The channel descriptor of a channel (R346). -/
def chanDesc (s : State) (u c : Nat) : Nat :=
  pnat s 0x0720 c * 65536 + pnat s 0x0722 c * 4096 + avgK (pnat s 0x0702 u) * 512 + c

/-- Form the capture of a unit that closes (R345). -/
def capForm (s : State) (u : Nat) (g : Trig) (last : Nat) : Capture :=
  let x := unOf s u
  let ks := capBlocks s u g last
  let chs := unChans s u
  let rs := capRates x ks (timePick s last)
  let ts := (ks.filter (fun k => k.src = chs.headD 0)).map (kTimes s) |>.flatten
  let npre := (ts.filter (fun t => decide (t * 32 < g.t32))).length
  let d := 2 ^ x.code
  let nextPick : BitVec 32 := BitVec.ofNat 32 (((ps s).toNat / d + 1) * d)
  let psPost := match postTime s u g with | some t => timePick s t | none => nextPick
  let seq := if x.seq + 1 = 2 ^ 32 then 1 else x.seq + 1
  let trunc := decide (x.npost < pnat s 0x0704 u)
  let short := decide (((unTimes s u).filter (fun t => decide (t * 32 < g.t32))).length < pnat s 0x0703 u)
  let k0 := ks.head?
  { seq := seq,
    hdr :=
      [1 + u * 256 + b2n short * 2 ^ 28 + b2n x.ovf * 2 ^ 29 + b2n (decide (16 < rs.length)) * 2 ^ 30 + b2n trunc * 2 ^ 31, seq,
       g.t32 / 32 % 2 ^ 32, g.t32 / 32 / 2 ^ 32, g.t32 % 32 + g.src * 256 + x.missed * 65536,
       (k0.map (fun k => k.ps0.toNat)).getD 0, psPost.toNat, ts.length, npre, x.dead,
       (k0.map (·.dcode)).getD x.code + chs.length * 65536 + min rs.length 16 * 2 ^ 24, 0] ++
      [s.ptp.t0 % 2 ^ 32, s.ptp.t0 / 2 ^ 32, s.ptp.h0ns, s.ptp.h0s % 2 ^ 32, s.ptp.h0s / 2 ^ 32, wrapU 32 s.ptp.rho, s.clk.plen,
       (k0.map (fun k => k.t0 % 2 ^ 32)).getD 0, (k0.map (fun k => k.t0 / 2 ^ 32)).getD 0, 0, 0, 0],
    chans := chs.map (chanDesc s u), rates := rs.take 16, blocks := ks }

/-- A unit enters CLOSING with the given last sample (R338, R339). -/
def unClosing (s : State) (u last : Nat) : State := modUn (unFlush s u) u (fun x => { x with st := 3, lastT := some last })

/-- The accepted trigger is settled among the samples stored: the first post sample, the number stored, and CLOSING once
ACQ_POST of them are stored (R338). -/
def unSettle (s : State) (u : Nat) : State :=
  let x := unOf s u
  match x.st, x.trig with
  | 2, some g =>
    let post := (unTimes s u).filter (fun t => decide (g.t32 ≤ t * 32))
    let want := pnat s 0x0704 u
    let s1 := modUn s u (fun y => { y with post := post.head?.map (timePick s), npost := min post.length want })
    match post[want - 1]? with
    | some t => unClosing s1 u t
    | none => s1
  | _, _ => s

/-- Space for the capture in progress (R340): the capacity B_cap of R350, in the buffer less the captures held unless they may be
overwritten. -/
def unSpace (s : State) (u : Nat) : Nat :=
  min (bCap s u) <| if unMode s u = 1 ∧ nbit (pnat s 0x0700 u) 4 = false then unBuf s u - capsLen (unOf s u) else unBuf s u
/-- The capture in progress does not fit (R340). -/
def unOver (s : State) (u : Nat) : Bool :=
  let x := unOf s u
  match x.st, x.trig with
  | 2, some g =>
    let ks := capBlocks s u g (s.clk.pickT0 + 160)
    decide (unSpace s u < capLen (unChans s u).length (capRates x ks (ps s)) ks)
  | _, _ => false

/-- The unit records in this pick: ARMED, TRIGGERED, STREAM, and CLOSING in repeat mode (R330, R338). -/
def unRecords (s : State) (u : Nat) : Bool :=
  let st := (unOf s u).st
  st = 1 || st = 2 || st = 6 || (st = 3 && unMode s u = 1)

/-- The sample of a pick, if the pick is one of the unit's sampling picks (R331); dropped when staging is full (R342), and a
capture that outgrows its space closes before it (R340). -/
def unSample (s : State) (u : Nat) : State :=
  let x := unOf s u
  if unRecords s u = true ∧ (ps s).toNat % 2 ^ x.code = 0 then
    if stFull s then unDrop (unFlush s u) u
    else
      let s1 := forEach (unChans s u) (chStore u) s
      if unOver s1 u then unClosing s u ((unTimes s u).getLastD 0)
      else unFull s1 u
  else s

/-! ### Triggers (R333 to R337) -/

/-- The trigger level difference of a value (R334). -/
def lvlDiff (w : Bool) (v lvl : Int) : Int := if w then wrapS 32 (v - lvl) else v - lvl
/-- The interpolated time of a crossing (R334). -/
def crossTime (d0 d1 : Int) (t0 t1 : Nat) : Nat :=
  t0 * 32 + (tdiv ((-d0) * ((t1 : Int) - t0) * 32) (d1 - d0)).toNat

/-- A variable has a fresh value in a pick (R328): none of one that the axis's class does not produce. -/
def selFresh (s : State) (sel : Nat) : Bool :=
  !(traceVal s sel).2 && !(decide (1 ≤ sel / 256) && decide (sel / 256 ≤ 0x18) && !selMade (axClass s (sel % 256)) (sel / 256))

/-- The level trigger of a unit for the value of this pick (R334): the record, and the trigger time. -/
def unLevel (s : State) (u : Nat) : AcqU × Option Nat :=
  let x := unOf s u
  let sel := pnat s 0x0707 u
  let v := traceVal s sel
  if pnat s 0x0705 u ≠ 1 ∨ selFresh s sel = false then (x, none)
  else
    let w := selWraps sel
    let lvl := pget s 0x0708 u
    let hyst := pget s 0x0709 u
    let edge := pnat s 0x070A u
    let t1 := s.clk.pickT0 + 160
    let d1 := lvlDiff w v.1 lvl
    let fire := fun (up : Bool) =>
      match x.x0 with
      | some (v0, t0) =>
        let d0 := lvlDiff w v0 lvl
        if (if up then edge != 1 && x.primUp && decide (d0 < 0) && decide (0 ≤ d1) else edge != 0 && x.primDn && decide (0 < d0) && decide (d1 ≤ 0))
        then some (crossTime d0 d1 t0 t1) else none
      | none => none
    let up := fire true
    let dn := fire false
    ({ x with x0 := some (v.1, t1), primUp := (x.primUp && up.isNone) || decide (d1 ≤ -hyst), primDn := (x.primDn && dn.isNone) || decide (hyst ≤ d1) },
     match up with | some t => some t | none => dn)

/-- The pick-count trigger of a unit in this pick (R333). -/
def unPick (s : State) (u : Nat) : Option Nat :=
  let d := wrapS 32 ((ps s).toNat - pget s 0x0706 u)
  let r := wrapU 32 (pget s 0x0708 u)
  if pnat s 0x0705 u = 5 ∧ 0 ≤ d ∧ (d = 0 ∨ (r ≠ 0 ∧ d.toNat % r = 0)) then some ((s.clk.pickT0 + 160) * 32) else none

/-- The events raised since the last evaluation, in order (R336). -/
def evsNew (s : State) : List LogRec := (s.log.recs.take ((s.log.next + 2 ^ 32 - s.kiln.evNext) % 2 ^ 32)).reverse
/-- The event triggers of a unit among the events that reach the Kiln (R333, R336). -/
def unEvents (s : State) (u : Nat) (new : List LogRec) : List Nat :=
  if pnat s 0x0705 u = 3 then
    let arg := pnat s 0x0706 u
    (new.filter (fun r => (r.code ^^^ (arg % 65536)) &&& (arg / 65536) = 0)).map
      (fun r => (s.clk.pickT0 + 160 - psDiff (ps s) r.pstamp * tPick s) * 32)
  else []

/-- A trigger reaches a unit between evaluations: noted in ARMED, missed in TRIGGERED, CLOSING and FULL (R335, R337). -/
def unArrive (s : State) (u : Nat) (g : Trig) : State :=
  modUn s u (fun x =>
    if x.st = 1 then { x with cands := x.cands ++ [g] }
    else if x.st = 2 ∨ x.st = 3 ∨ x.st = 5 then { x with missed := satInc 16 x.missed } else x)

/-- Evaluate the triggers of one unit at T_dl (R333 to R338), with the events that reach the Kiln. -/
def unEval (new : List LogRec) (s : State) (u : Nat) : State :=
  let x := unOf s u
  let ts := s.clk.pickT0 + 160
  let live := x.st = 2 || x.st = 3 || x.st = 5 || (x.st = 1 && decide (x.armT ≤ ts))
  if !live then modUn s u (fun y => { y with cands := if y.st = 1 then y.cands else [] })
  else
    let l := unLevel s u
    let src := pnat s 0x0705 u
    let mine : List Trig := (l.2.toList ++ (unPick s u).toList ++ unEvents s u new).map (fun t => { t32 := t, src := src })
    let s1 := modUn s u (fun _ => { l.1 with cands := [] })
    if x.st = 1 then
      let ok := (x.cands ++ mine).filter (fun g => decide (x.armT * 32 ≤ g.t32))
      match argMin (fun g => ((g.t32 * 2 + b2n (g.src = 255) : Nat) : Int)) ok with
      | some g =>
        unSettle (modUn s1 u (fun y => { y with st := 2, trig := some g, post := none, npost := 0, missed := satAdd 16 y.missed (ok.length - 1) })) u
      | none => s1
    else modUn s1 u (fun y => { y with missed := satAdd 16 y.missed mine.length })

/-! ### Histories (R351) -/

/-- Variables recorded for an axis: index and selector; a byte of 0 records 0 (R351). -/
def hiVars (s : State) (a : Nat) : List (Nat × Nat) :=
  (List.range (pnat s 0x010A a)).map (fun i => (i, let c := pnat s 0x0740 a / 256 ^ i % 256; if c = 0 then 0 else c * 256 + a))
/-- Bytes of an axis's pool region (R58). -/
def hiBuf (s : State) (a : Nat) : Nat := match plOf s a with | some p => if p.unplaced then 0 else p.poolSize * 2 ^ 20 | none => 0
/-- A history drops samples (R342). -/
def hiDrop (s : State) (a : Nat) : State :=
  let x := hiOf s a
  let s1 := modHi (hiFlush s a) a (fun y => { y with drops := satInc 32 y.drops, ovfRaised := true })
  if x.ovfRaised then s1 else raise s1 0xA103 a [1]
/-- Store one variable of a history. -/
def hiStore (a : Nat) (s : State) (v : Nat × Nat) : State :=
  let tv := traceVal s v.2
  let k0 : KBlock :=
    { hist := true, src := a, hvar := v.1, ps0 := ps s, t0 := s.clk.pickT0, dcode := 0, bexp := 0, avgk := 0, wraps := selWraps v.2,
      gaps := [], sat := [], xs := [], lost := false }
  modHi s a (fun h => { h with opens := tabSet h.opens v.1 (kAdd tv.1 tv.2 false (tabGet k0 h.opens v.1)) })
/-- Picks have passed since the last sample of an open block of a history: the samples of a block are consecutive (R347). -/
def hiGap (s : State) (a : Nat) : Bool := (hiOf s a).opens.any (fun p => p.2.ps0 + BitVec.ofNat 32 p.2.xs.length != ps s)
/-- The history of one axis in this pick (R351): it resumes when the axis has left FAULT, and stops when frozen. -/
def hiSample (s : State) (a : Nat) : State :=
  if hiVars s a = [] ∨ hiBuf s a = 0 then s
  else
    let s1 := if (axOf s a).sm.st = .fault then s else modHi s a (fun h => { h with frozen := false, left := none })
    let h := hiOf s1 a
    if h.frozen = true ∨ h.cmdFrozen = true ∨ h.left = some 0 then s1
    else
      let s2 := modHi s1 a (fun x => { x with left := x.left.map (· - 1) })
      if stFull s2 then hiDrop s2 a
      else
        let s3 := forEach (hiVars s2 a) (hiStore a) (if hiGap s2 a then hiFlush s2 a else s2)
        if (hiOf s3 a).opens.any (fun p => decide (64 ≤ p.2.xs.length)) then hiFlush s3 a else s3
/-- HIST_POST_FAULT_FREEZE: the picks after entry to FAULT have been recorded (R351). -/
def execHistPostFaultFreeze (a : AxisNo) (s : State) : Host.Outcome State Fault Refusal :=
  finishD s (if (hiOf s a).left = some 0 then modHi (hiFlush s a) a (fun h => { h with frozen := true, left := none }) else s)

/-! ### The Kiln at the build deadline -/

/-- Every selector of a declared axis, a node, a lane, the die temperature, a trigger pin or a group (R327). -/
def selsAll (s : State) : List Nat :=
  (((List.range 24).map (fun c => (((List.range 128).filter (fun a => axClass s a != 0)).map (fun a => (c + 1) * 256 + a)))).flatten ++
    (List.range 64).map (fun n => 0x4000 + n) ++ (List.range 8).map (fun l => 0x4100 + l) ++ [0x4200] ++ (List.range 4).map (fun p => 0x4300 + p) ++
    (List.range 16).map (fun g => 0x4400 + g))
/-- Note the values of every variable in this pick (R326), for the means of R332 and for the picks in which a node is muted or lost
(R328). -/
def traceNote (s : State) : State :=
  let t := (selsAll s).filterMap (fun sel => let v := traceVal s sel; if v = traceRest sel then none else some (sel, v))
  { s with kiln.trace := (t :: s.kiln.trace).take 256 }
/-- What the Kiln does at T_dl (R326, R331, R333, R351). An event that it raises itself reaches it in the next pick (R336). -/
def kilnDeadline (s : State) : State :=
  let s1 := traceNote s
  let s2 := forEach (List.range 8) (fun t u => unEval (evsNew s) (unSettle (unSample t u) u) u) s1
  let s3 := forEach (List.range 128) hiSample s2
  { s3 with kiln.evNext := s.log.next }

/-! ### Rate changes (R342 to R344) -/

/-- Decide a change of a unit's effective code, at most one in a bolt and never above 15 (R344). -/
def rateDecide (s : State) (u : Nat) (up : Bool) : State :=
  modUn s u (fun x =>
    if x.rateDue.isSome ∨ x.rateBolt = true then x
    else if up then (if x.code < 15 then { x with rateDue := some (x.code + 1) } else x)
    else if pnat s 0x0701 u < x.code then { x with rateDue := some (x.code - 1) } else x)
/-- The staging fill at the end of a pick (R342). -/
def stagingCheck (s : State) : State :=
  let f := stFill s
  let s1 := if 196608 < f then
      forEach (List.range 8) (fun t u => let st := (unOf t u).st; if st = 1 ∨ st = 2 ∨ st = 6 then rateDecide t u true else t) s
    else s
  { s1 with kiln.lowNow := s1.kiln.lowNow && decide (f < 65536) }
/-- Bytes of a unit's stream ring that are not read. -/
def ringUsed (s : State) (u : Nat) : Nat := nsum ((unOf s u).blocks.map kSize)
/-- The Kiln at the end of a bolt (R342 to R344). -/
def kilnBolt (s : State) : State :=
  let s1 := { s with kiln.lowBolts := if s.kiln.lowNow then (if 32 ≤ s.kiln.lowBolts then 1 else s.kiln.lowBolts + 1) else 0, kiln.lowNow := true,
                     kiln.hists := s.kiln.hists.map (fun p => (p.1, { p.2 with ovfRaised := false })) }
  forEach (List.range 8) (fun t u =>
    let x := unOf t u
    if x = {} then t
    else
      let t1 := modUn t u (fun y => { y with rateBolt := false, ovfRaised := false })
      if x.st = 6 then
        let n := ringUsed t1 u
        let b := unBuf t1 u
        let t2 := modUn t1 u (fun y => { y with lowRing := if 4 * n < b then (if 32 ≤ y.lowRing then 1 else y.lowRing + 1) else 0 })
        if 3 * b < 4 * n then rateDecide t2 u true else t2
      else t1) s1

/-- ACQ_DECIMATION_LOWER: staging, or the stream ring, has stayed low for 32 bolts (R342, R343). -/
def execAcqDecimationLower (u : UnitNo) (s : State) : Host.Outcome State Fault Refusal :=
  finishD s (if s.kiln.lowBolts = 32 ∨ ((unOf s u).st = 6 ∧ (unOf s u).lowRing = 32) then rateDecide s u false else s)

/-- ACQ_RATE_APPLY: the first pick that is a multiple of the new D after the decision (R344). The open blocks close before the
sample of the pick. -/
def execAcqRateApply (u : UnitNo) (s : State) : Host.Outcome State Fault Refusal :=
  finishD s
    (match (unOf s u).rateDue with
     | some c =>
       if (ps s).toNat % 2 ^ c = 0 ∧ s.clk.afterDl = false then
         let s1 := modUn (unFlush s u) u (fun x => { x with code := c, rateDue := none, rateBolt := true, rates := x.rates ++ [(ps s, c)] })
         raise s1 0xA102 u ([BitVec.ofNat 8 c] ++ le 4 (ps s).toNat)
       else s
     | none => s)

/-! ### Writing and closing -/

/-- Drop the oldest blocks of a ring until the rest fits. -/
def ringTrim (cap : Nat) : Nat → List KBlock → List KBlock
  | 0, ks => ks
  | n + 1, ks => if cap < nsum (ks.map kSize) then ringTrim cap n (ks.drop 1) else ks
/-- A block reaches a unit's buffer: a full stream ring drops it (R343); an ARMED unit keeps what its next capture can use. -/
def unWrite (s : State) (u : Nat) (k : KBlock) : State :=
  let x := unOf s u
  if x.st = 6 then
    if unBuf s u < ringUsed s u + kSize k then unDrop s u else modUn s u (fun y => { y with blocks := y.blocks ++ [k] })
  else if x.st = 1 then
    let n := (unChans s u).length * (cdiv (pnat s 0x0703 u + pnat s 0x0704 u) 64 + 18)
    modUn s u (fun y =>
      let bs := y.blocks ++ [k]
      let cs := bs.drop (bs.length - n)
      { y with blocks := cs, rates := y.rates.filter (fun r => decide (wrapS 32 ((cs.head?.map (fun j => (j.ps0.toNat : Int))).getD 0 - r.1.toNat) ≤ 0)) })
  else if x.st = 2 ∨ x.st = 3 then modUn s u (fun y => { y with blocks := y.blocks ++ [k] })
  else s
/-- A block reaches a history's ring, which overwrites its oldest blocks (R351). -/
def hiWrite (s : State) (k : KBlock) : State :=
  modHi s k.src (fun h => let bs := h.blocks ++ [k]; { h with blocks := ringTrim (hiBuf s k.src) bs.length bs })

/-- KILN_BLOCK_WRITE: the oldest block in staging is written to DDR (R342). -/
def execKilnBlockWrite (s : State) : Host.Outcome State Fault Refusal :=
  finishD s
    (match s.kiln.staged with
     | [] => s
     | (d, k) :: rest =>
       let s1 := { s with kiln.staged := rest }
       if d < 8 then unWrite s1 d k else hiWrite s1 k)

/-- Drop the oldest captures until one more fits (R340). -/
def capsTrim (buf need : Nat) : Nat → List Capture → List Capture
  | 0, cs => cs
  | n + 1, cs =>
    if buf < need + nsum (cs.map (fun c => (capBytes c).length)) then capsTrim buf need n (cs.drop 1) else cs

/-- A repeat unit goes to ARMED if a capture fits, else to FULL (R330, R339, R340); `fresh` when recording starts anew. The
re-arm pick is the next sampling pick. -/
def unRearm (s : State) (u : Nat) (fresh : Bool) : State :=
  let x := unOf s u
  let caps := if nbit (pnat s 0x0700 u) 4 then capsTrim (unBuf s u) (bCap s u) x.caps.length x.caps else x.caps
  let need := bCap s u + nsum (caps.map (fun c => (capBytes c).length))
  if need ≤ unBuf s u ∨ (nbit (pnat s 0x0700 u) 4 = true ∧ caps = []) then
    let d := 2 ^ x.code
    let k := d - (ps s).toNat % d
    let armT := s.clk.pickT0 + 160 + k * tPick s
    let s1 := if fresh then unClear s u else s
    modUn s1 u (fun y =>
      { y with st := 1, caps := caps, armT := armT, armPs := if fresh then ps s else y.armPs, primUp := false, primDn := false, x0 := none, cands := [],
               trig := none, post := none, npost := 0, ovf := false,
               dead := match y.lastT with | some l => min (armT - l) 0xFFFFFFFF | none => 0xFFFFFFFF })
  else when (x.st != 5) (fun t => raise t 0xA104 u [])
    (modUn (unClear s u) u (fun y => { y with st := 5, trig := none, post := none, npost := 0, ovf := false }))

/-- Write the capture of a unit: it is held, and ACQ_CAPTURE is raised (R339, R356). -/
def capClose (s : State) (u : Nat) (g : Trig) (last : Nat) : State :=
  let c := capForm s u g last
  let s1 := modUn s u (fun x => { x with seq := c.seq, caps := if unMode s u = 1 then x.caps ++ [c] else [c], missed := 0 })
  raise s1 0xA101 u (le 4 c.seq ++ [BitVec.ofNat 8 (c.hdr.headD 0 / 2 ^ 31)])

/-- CAPTURE_CLOSE: the blocks of a CLOSING unit have been written (R339). -/
def execCaptureClose (u : UnitNo) (s : State) : Host.Outcome State Fault Refusal :=
  let x := unOf s u
  finishD s
    (match x.st, x.trig, x.lastT with
     | 3, some g, some last =>
       if (unStaged s u).any (fun k => decide (k.t0 + 160 ≤ last)) then s
       else
         let s1 := capClose s u g last
         if unMode s1 u = 1 then unRearm s1 u false else modUn (unClear s1 u) u (fun y => { y with st := 4, trig := none, post := none, npost := 0, ovf := false })
     | _, _, _ => s)

/-- A unit is forced to IDLE (R341). -/
def unStop (s : State) (u : Nat) : State := when ((unOf s u).st != 0) (fun t => raise t 0xA105 u []) (unIdle s u)

/-- TRIG_PIN_EDGE: an edge of the selected polarity on a trigger pin is stamped (R335); one within 40 ns of a stamped edge is
not (R539). -/
def execTrigPinEdge (pin : TrigNo) (rising : Bool) (tt : Nat) (frac : Fin 32) (s : State) : Host.Outcome State Fault Refusal :=
  let us := (List.range 8).filter (fun u => pnat s 0x0705 u = 2 && pnat s 0x0706 u = pin.val &&
    (pnat s 0x070A u = 2 || (pnat s 0x070A u = 0) == rising))
  let t := tt * 32 + frac.val
  let near := match tabFind s.kiln.edges pin with | some e => decide (e ≤ t ∧ t < e + 512) | none => false
  finishD s
    (if us = [] ∨ near = true ∨ isStandby s = true then s
     else forEach us (fun x u => unArrive x u { t32 := t, src := 2 }) { s with kiln.edges := tabSet s.kiln.edges pin t })

/-- The CAN frame triggers of R333: a frame received without error on a channel, at the time `t`. -/
def kilnCan (s : State) (c : Nat) (f : CanFrame) (t : Nat) : State :=
  forEach ((List.range 8).filter (fun u =>
      let arg := pnat s 0x0706 u
      let mask := wrapU 29 (pget s 0x0708 u)
      pnat s 0x0705 u = 4 && arg / 2 ^ 30 = c && (nbit arg 29 == f.ide) && ((f.ident.toNat ^^^ (arg % 2 ^ 29)) &&& mask) == 0))
    (fun x u => unArrive x u { t32 := t * 32, src := 4 }) s

/-! ### Commands (R394) -/

/-- The checks of an acquisition command of one word that names a unit (R378). -/
def acqChecks (s : State) (m : Nat) (pl : Bytes) (len mask rights : Nat) : List (Bool × Nat) :=
  [(pl.length = len, 0x2002), (onlyBits mask (word pl 0), 0x2003), (hasRights s m 8 rights, 0x2005)]

/-- Start recording at an arm command (R330, R336, R339). -/
def unArm (s : State) (u : Nat) : State :=
  let s1 := modUn (unClear s u) u (fun x =>
    { x with code := pnat s 0x0701 u, rateDue := none, dead := 0xFFFFFFFF, missed := 0, lastT := none, lowRing := 0, ovf := false,
             caps := if unMode s u = 1 then x.caps else [], cands := [] })
  if unMode s u = 2 then modUn s1 u (fun x => { x with st := 6 })
  else
    let s2 := if unMode s u = 1 then unRearm s1 u true else modUn s1 u (fun x => { x with st := 1, trig := none, post := none, npost := 0 })
    modUn s2 u (fun x => { x with armPs := ps s, armT := s.clk.pickT0 + 160, primUp := false, primDn := false, x0 := none })

/-- ACQ_ARM (R330). -/
def acqArmRun (s : State) (m : Nat) (pl : Bytes) : State × CmdRes :=
  let u := word pl 0 % 8
  let x := unOf s u
  checked s (acqChecks s m pl 4 0x7 rARM)
    (if (x.st = 0 ∧ unChans s u ≠ []) ∨ x.st = 4 then (unArm s u, .fin 0 []) else (s, .fin 0xA001 []))

/-- ACQ_DISARM (R330): a capture in progress is closed with the samples stored so far. -/
def acqDisarmRun (s : State) (m : Nat) (pl : Bytes) : State × CmdRes :=
  let u := word pl 0 % 8
  let x := unOf s u
  checked s (acqChecks s m pl 4 0x7 rARM)
    (let s1 := match x.st, x.trig with
       | 2, some g => capClose s u g ((unTimes s u).getLastD 0)
       | 3, some g => capClose s u g (x.lastT.getD 0)
       | _, _ => s
     (unIdle s1 u, .fin 0 []))

/-- ACQ_FORCE (R333). -/
def acqForceRun (s : State) (m : Nat) (pl : Bytes) : State × CmdRes :=
  let u := word pl 0 % 8
  let st := (unOf s u).st
  checked s (acqChecks s m pl 4 0x7 rARM)
    (if st = 1 ∨ st = 2 ∨ st = 3 ∨ st = 5 then (unArrive s u { t32 := (s.clk.pickT0 + 160) * 32, src := 255 }, .fin 0 [])
     else (s, .fin 0xA001 []))

/-- ACQ_RELEASE (R340). -/
def acqReleaseRun (s : State) (m : Nat) (pl : Bytes) : State × CmdRes :=
  let u := word pl 0 % 8
  let seq := word pl 1
  let x := unOf s u
  let keep := x.caps.filter (fun c => seq != 0 && c.seq != seq)
  let n := x.caps.length - keep.length
  checked s (acqChecks s m pl 8 0x7 rARM)
    (let s1 := modUn s u (fun y => { y with caps := keep })
     (if x.st = 5 ∧ n ≠ 0 then unRearm s1 u true else s1, .fin 0 (words [n])))

/-- Count what a DDR read met (R507). -/
def eccCount (s : State) (ecc : EccResult) : State :=
  match ecc with
  | .clean => s
  | .corrected => { s with boot.corr := satInc 32 s.boot.corr }
  | .uncorrectable => { s with boot.uncorr := satInc 16 s.boot.uncorr }

/-- A read of blocks that lie from a byte offset on among other bytes: the offsets of each block. -/
def blockSpans (size : KBlock → Nat) : Nat → List KBlock → List (Nat × Nat)
  | _, [] => []
  | o, k :: ks => (o, size k) :: blockSpans size (o + size k) ks
/-- Mark the blocks that a read of `len` bytes from `off` touches as lost (R507). -/
def blocksLose (size : KBlock → Nat) (o off len : Nat) (ks : List KBlock) : List KBlock :=
  (ks.zip (blockSpans size o ks)).map (fun p => if decide (p.2.1 < off + len) && decide (off < p.2.1 + p.2.2) then { p.1 with lost := true } else p.1)
/-- A read touches a lost block. -/
def blocksHit (size : KBlock → Nat) (o off len : Nat) (ks : List KBlock) : Bool :=
  (ks.zip (blockSpans size o ks)).any (fun p => p.1.lost && decide (p.2.1 < off + len) && decide (off < p.2.1 + p.2.2))

/-- ACQ_READ_CAPTURE (R352, R507). -/
def acqReadCaptureRun (ecc : EccResult) (s : State) (m : Nat) (pl : Bytes) : State × CmdRes :=
  let w0 := word pl 0
  let u := w0 % 8
  let dec := nbit w0 8
  let off := word pl 2
  let len := word pl 3 % 1024
  let size := fun (k : KBlock) => if dec then 4 * k.xs.length else kSize k
  checked s
    [(pl.length = 16 && 4 ≤ len && len ≤ 1008 && len % 4 = 0, 0x2002), (onlyBits 0x107 w0 && onlyBits 0x3FF (word pl 3), 0x2003),
     (hasRights s m 8 rREAD, 0x2005)]
    (match (unOf s u).caps.find? (fun c => c.seq = word pl 1) with
     | none => (s, .fin 0xA003 [])
     | some c =>
       let bs := if dec then (c.blocks.map kRecon).flatten else capBytes c
       let o := if dec then 0 else 96 + 4 * c.chans.length + 8 * c.rates.length
       if ecc = .uncorrectable ∨ blocksHit size o off len c.blocks = true then
         (modUn (eccCount s ecc) u (fun x => { x with caps := x.caps.map (fun d => if d.seq = c.seq then { d with blocks := blocksLose size o off len d.blocks } else d) }),
          .fin 0xF006 [])
       else (eccCount s ecc, .fin 0 ((bs.drop off).take len)))

/-- The whole blocks at the head of a ring that fit in `n` bytes. -/
def blocksFit (n : Nat) : List KBlock → List KBlock
  | [] => []
  | k :: ks => if kSize k ≤ n then k :: blocksFit (n - kSize k) ks else []

/-- ACQ_READ_STREAM (R343, R352). A read that meets a lost word or a lost block completes with DDR_DATA_LOST: the blocks of the read that
are lost leave the ring unread, all of them where the read itself met the error (R507; DESIGN CHOICE, log 125). -/
def acqReadStreamRun (ecc : EccResult) (s : State) (m : Nat) (pl : Bytes) : State × CmdRes :=
  let u := word pl 0 % 8
  let n := word pl 1 % 1024
  let x := unOf s u
  checked s
    [(pl.length = 8 && 268 ≤ n && n ≤ 1008, 0x2002), (onlyBits 0x7 (word pl 0) && onlyBits 0x3FF (word pl 1), 0x2003), (hasRights s m 8 rREAD, 0x2005)]
    (if x.st = 6 then
       let ks := blocksFit n x.blocks
       let bad := fun (k : KBlock) => k.lost || ecc = .uncorrectable
       if ks.any bad || ecc = .uncorrectable then
         (modUn (eccCount s ecc) u (fun y => { y with blocks := ks.filter (fun k => !bad k) ++ y.blocks.drop ks.length }), .fin 0xF006 [])
       else (modUn (eccCount s ecc) u (fun y => { y with blocks := y.blocks.drop ks.length }), .fin 0 (ks.map kBytes).flatten)
     else (s, .fin 0xA001 []))

/-- HIST_READ (R352, R507). -/
def histReadRun (ecc : EccResult) (s : State) (m : Nat) (pl : Bytes) : State × CmdRes :=
  let w0 := word pl 0
  let a := w0 % 128
  let v := w0 / 256 % 8
  let off := word pl 1
  let len := word pl 2 % 1024
  let ks := (hiOf s a).blocks.filter (fun k => k.hvar = v)
  checked s
    [(pl.length = 12 && 4 ≤ len && len ≤ 1008 && len % 4 = 0, 0x2002), (onlyBits 0x77F w0 && onlyBits 0x3FF (word pl 2), 0x2003),
     (hasRights s m 8 rREAD, 0x2005)]
    (if ecc = .uncorrectable ∨ blocksHit kSize 0 off len ks = true then
       let bad := blocksLose kSize 0 off len ks
       (modHi (eccCount s ecc) a (fun h => { h with blocks := h.blocks.map (fun k => if k.hvar = v ∧ bad.any (fun j => j.lost && j.ps0 == k.ps0) = true then { k with lost := true } else k) }),
        .fin 0xF006 [])
     else (eccCount s ecc, .fin 0 (((ks.map kBytes).flatten.drop off).take len)))

/-- HIST_FREEZE (R351). -/
def histFreezeRun (s : State) (m : Nat) (pl : Bytes) : State × CmdRes :=
  let a := word pl 0 % 128
  checked s (acqChecks s m pl 4 0x7F rARM) (modHi (hiFlush s a) a (fun h => { h with cmdFrozen := true }), .fin 0 [])
/-- HIST_RESTART (R351). -/
def histRestartRun (s : State) (m : Nat) (pl : Bytes) : State × CmdRes :=
  let a := word pl 0 % 128
  checked s (acqChecks s m pl 4 0x7F rARM) (modHi s a (fun h => { h with frozen := false, cmdFrozen := false, left := none }), .fin 0 [])

/-- ACQ_ARM. -/
def execAcqArm (e : CmdEntry) (s : State) : Host.Outcome State Fault Refusal := finishD s (command s e 0x0801 acqArmRun)
/-- ACQ_DISARM. -/
def execAcqDisarm (e : CmdEntry) (s : State) : Host.Outcome State Fault Refusal := finishD s (command s e 0x0802 acqDisarmRun)
/-- ACQ_FORCE. -/
def execAcqForce (e : CmdEntry) (s : State) : Host.Outcome State Fault Refusal := finishD s (command s e 0x0803 acqForceRun)
/-- ACQ_RELEASE. -/
def execAcqRelease (e : CmdEntry) (s : State) : Host.Outcome State Fault Refusal := finishD s (command s e 0x0804 acqReleaseRun)
/-- ACQ_READ_CAPTURE. -/
def execAcqReadCapture (e : CmdEntry) (ecc : EccResult) (s : State) : Host.Outcome State Fault Refusal :=
  finishD s (command s e 0x0805 (acqReadCaptureRun ecc))
/-- ACQ_READ_STREAM. -/
def execAcqReadStream (r : StreamRead) (s : State) : Host.Outcome State Fault Refusal := finishD s (command s r.e 0x0806 (acqReadStreamRun r.ecc))
/-- HIST_READ. -/
def execHistRead (e : CmdEntry) (ecc : EccResult) (s : State) : Host.Outcome State Fault Refusal := finishD s (command s e 0x0807 (histReadRun ecc))
/-- HIST_FREEZE. -/
def execHistFreeze (e : CmdEntry) (s : State) : Host.Outcome State Fault Refusal := finishD s (command s e 0x0808 histFreezeRun)
/-- HIST_RESTART. -/
def execHistRestart (e : CmdEntry) (s : State) : Host.Outcome State Fault Refusal := finishD s (command s e 0x0809 histRestartRun)

end Sys2Proof.Machine
end

