-- ==== Sys2Proof/Machine/CanRows.lean ====
section
/-! DEFINITION. The rows of the CAN channels (R422 to R441) and of the CAN gateway (R374). -/
namespace Sys2Proof.Machine

/-! ### Requeue by command (R433) -/

/-- A frame is on the bus: the head, or else the free value `v` says so (log 2). -/
def canBusy (s : State) (c v : Nat) : Bool :=
  (canOf s c).mode != 0 && !(canOf s c).boff && ((canOf s c).onBus || v % 2 = 1)
/-- A commit of CAN_CFG applies: the channel stops at once where no frame is on the bus, and else at the end of that frame (R425). A
further commit before that end changes nothing more: the restart takes the values then in force. -/
def canStop (s : State) (c : Nat) : State :=
  let d := drawNat s
  if (canOf s c).stopDue then s
  else if canBusy s c d.2 then modCan d.1 c (fun ch => { ch with stopDue := true }) else canRestartEnd d.1 c
/-- The frame on the bus has ended: a channel that a commit of CAN_CFG stops restarts now (R425 steps 1 to 4). -/
def canFrameEnd (s : State) (c : Nat) : State := when (canOf s c).stopDue (fun t => canRestartEnd t c) s

/-- Whether the head is being transmitted: until its attempt ends where that is known, and else a free value (log 2). -/
def headBusy (s : State) (c : Nat) : State × Bool :=
  let ch := canOf s c
  if canRunning ch = false ∨ ch.fifo = [] then (s, false)
  else if ch.onBus then (s, true)
  else
    let d := drawNat s
    if d.2 % 2 = 1 then (modCan d.1 c (fun x => { x with onBus := true }), true) else (d.1, false)

/-- The execution of CAN_ABORT_REQUEUE (R433). -/
def canAbortRun (s : State) (m : Nat) (pl : Bytes) : State × CmdRes :=
  let c := word pl 0 % 4
  checked s [(pl.length = 4, 0x2002), (onlyBits 3 (word pl 0), 0x2003), (decide (c ≤ 2), 0x2004), (hasRights s m (11 + c) rWRITE, 0x2005)]
    (let h := headBusy s c
     if h.2 then (h.1, .wait (.canHead c))
     else
       let r := canRequeue s.clk.now (canOf s c)
       (modCan h.1 c (fun _ => r.1), .fin 0 (le 4 r.2)))

/-- CAN_ABORT_REQUEUE. -/
def execCanAbortRequeue (e : CmdEntry) (s : State) : Host.Outcome State Fault Refusal := finishD s (command s e 0x0B01 canAbortRun)

/-! ### Statistics and transmission -/

/-- The 40-byte block of a channel (R440). -/
def canStats (ch : Can) : Bytes :=
  words [ch.txOk, ch.rxOk, ch.rxMatch, ch.errRx, ch.errTx, ch.arbLost, ch.protoExc, ch.txExpired, ch.fwWait + ch.tpAbort * 65536,
         ch.boffCnt + ch.autoRq * 65536]
/-- A channel with its block cleared. -/
def canStatsClear (ch : Can) : Can :=
  { ch with txOk := 0, rxOk := 0, rxMatch := 0, errRx := 0, errTx := 0, arbLost := 0, protoExc := 0, txExpired := 0, fwWait := 0, tpAbort := 0,
            boffCnt := 0, autoRq := 0 }
/-- The execution of CAN_STATS_READ: CLR needs WRITE as well (R392). -/
def canStatsRun (s : State) (m : Nat) (pl : Bytes) : State × CmdRes :=
  let w0 := word pl 0
  let c := w0 % 4
  checked s
    [(pl.length = 4, 0x2002), (onlyBits 0x103 w0, 0x2003), (decide (c ≤ 2), 0x2004),
     (hasRights s m (11 + c) (if nbit w0 8 then rREAD + rWRITE else rREAD), 0x2005)]
    (when (nbit w0 8) (fun t => modCan t c canStatsClear) s, .fin 0 (canStats (canOf s c)))
/-- CAN_STATS_READ. -/
def execCanStatsRead (e : CmdEntry) (s : State) : Host.Outcome State Fault Refusal := finishD s (command s e 0x0B02 canStatsRun)

/-- A frame of CAN_TX is valid for its channel (R431). -/
def canTxOk (s : State) (c : Nat) (f : CanFrame) : Bool :=
  (f.ide || decide (f.ident.toNat ≤ 0x7FF)) && (!f.fdf || nbit (pnat s 0x0803 c) 0) && (f.fdf || decide (f.data.length ≤ 8)) &&
    (!f.fdf || decide (fdLen f.data.length = f.data.length))
/-- The execution of CAN_TX (R430, R431). -/
def canTxRun (s : State) (m : Nat) (pl : Bytes) : State × CmdRes :=
  let w0 := word pl 0
  let c := w0 % 4
  let n := w0 / 2 ^ 16 % 128
  let f : CanFrame := { ide := nbit w0 9, fdf := nbit w0 8, remote := false, ident := BitVec.ofNat 29 (word pl 1), data := (pl.drop 8).take n }
  let ch := canOf s c
  checked s
    [(decide (8 ≤ pl.length ∧ n ≤ 64 ∧ pl.length = 8 + n), 0x2002), (onlyBits 0x007F0303 w0 && onlyBits 0x1FFFFFFF (word pl 1), 0x2003),
     (decide (c ≤ 2), 0x2004), (hasRights s m (11 + c) rWRITE, 0x2005), (canRunning ch, 0xC002), (canTxOk s c f, 0xC003),
     (decide (ch.fifo.length < 24), 0xC001)]
    (let e : CanEnt := { f := f, brs := f.fdf && nbit (pnat s 0x0803 c) 1, host := true, t := s.clk.now }
     (modCan s c (fun x => { x with fifo := x.fifo ++ [e], headT := if x.fifo = [] then s.clk.now else x.headT }), .fin 0 (le 4 ch.fifo.length)))
/-- CAN_TX. -/
def execCanTx (e : CmdEntry) (s : State) : Host.Outcome State Fault Refusal := finishD s (command s e 0x0B03 canTxRun)

/-! ### The bus -/

/-- A frame that the channel receives (R426 to R429). The Damper takes a safe message by its own row, and the gateway a whole
message by its own. -/
def canRx (s : State) (c : Nat) (f : CanFrame) (t : Nat) : State :=
  if f.fdf = true ∧ nbit (pnat s 0x0803 c) 0 = false then modCan s c (fun x => { x with protoExc := satInc 32 x.protoExc })
  else
    let d := drawNat s
    let s1 := modCan d.1 c (fun x => { x with rxOk := satInc 32 x.rxOk, recv := canRecOk d.2 x.recv })
    if f.remote then modCan s1 c (fun x => { x with protoExc := satInc 32 x.protoExc })
    else gwPump (kilnCan (canStack (canReport s1 c f) c f) c f t) c 4

/-- CAN_FRAME_RECEIVE: a frame ends on the bus at a time stamp. -/
def execCanFrameReceive (c : CanNo) (f : CanFrame) (t : Nat) (s : State) : Host.Outcome State Fault Refusal :=
  let ch := canOf s c
  finishD s (if ch.mode = 0 ∨ ch.boff = true then s else canFrameEnd (canRx { s with clk.now := max s.clk.now t } c f t) c)

/-- The head has been sent: it leaves the FIFO (R430). -/
def canSent (s : State) (c : Nat) : State :=
  match (canOf s c).fifo with
  | [] => s
  | e :: es =>
    canHeadEnd (modCan s c (fun x => canAfterPop s.clk.now { x with fifo := es, txOk := satInc 32 x.txOk, tec := x.tec - 1, lastTx := some e.f })) c
/-- CAN_FRAME_SENT. -/
def execCanFrameSent (c : CanNo) (s : State) : Host.Outcome State Fault Refusal := finishD s (when (canRunning (canOf s c)) (fun t => canFrameEnd (canSent t c) c) s)

/-- An error of a frame the channel sends needs a frame it sends. -/
def canErrFits (ch : Can) (kind : CanErrKind) : Bool :=
  match kind with
  | .arbLost => canRunning ch && !ch.fifo.isEmpty
  | .txError | .txKept => canRunning ch && !ch.fifo.isEmpty
  | _ => ch.mode != 0 && !ch.boff
/-- The error ends an attempt of the head. -/
def canErrTx (kind : CanErrKind) : Bool := match kind with | .arbLost | .txError | .txKept => true | _ => false
/-- The error ends the frame on the bus: every kind but a lost arbitration, after which the frame of another node goes on. -/
def canErrEnds (kind : CanErrKind) : Bool := match kind with | .arbLost => false | _ => true
/-- CAN_BUS_ERROR (R427). -/
def execCanBusError (c : CanNo) (kind : CanErrKind) (s : State) : Host.Outcome State Fault Refusal :=
  let ch := canOf s c
  finishD s
    (if canErrFits ch kind then
      when (canErrEnds kind) (fun t => canFrameEnd t c)
        (when (canErrTx kind) (fun t => canHeadEnd t c) (canConfine (modCan s c (canErrStep kind)) c ch))
     else s)

/-- CAN_BOFF_DELAY_EXPIRY: the recovery sequence starts (R427). -/
def execCanBoffDelayExpiry (c : CanNo) (s : State) : Host.Outcome State Fault Refusal :=
  finishD s (when (canOf s c).boff (fun t => modCan t c (fun x => { x with recov := true })) s)
/-- CAN_BUS_ON: recovery is complete (R427). -/
def execCanBusOn (c : CanNo) (s : State) : Host.Outcome State Fault Refusal :=
  let ch := canOf s c
  finishD s (when (ch.boff && ch.recov) (fun t => raise (modCan t c (fun x => { x with boff := false, recov := false, tec := 0, recv := 0 })) 0xC104 c []) s)

/-- An entry behind the head has a lower key. -/
def canLower (ch : Can) : Bool :=
  match ch.fifo with
  | [] => false
  | h :: es => es.any (fun e => decide (canKey e.f < canKey h.f))
/-- The head has waited CAN_AUTO_RQ milliseconds, up to the pick in which the clock of the model stands (R433). -/
def canHeadOld (s : State) (c : Nat) : Bool :=
  decide (pnat s 0x0805 c ≠ 0) && decide ((canOf s c).headT + pnat s 0x0805 c * millisecond ≤ s.clk.now + tPick s)
/-- An automatic requeue: at once, or at the end of the attempt where the head is being transmitted (R433). -/
def canAuto (s : State) (c : Nat) : State :=
  let h := headBusy s c
  modCan h.1 c (fun x => if h.2 then { x with autoDue := true } else { (canRequeue s.clk.now x).1 with autoRq := satInc 16 x.autoRq })
/-- CAN_AUTO_REQUEUE: the head has waited CAN_AUTO_RQ (R433). -/
def execCanAutoRequeue (c : CanNo) (s : State) : Host.Outcome State Fault Refusal :=
  finishD s (when (canHeadOld s c && canLower (canOf s c) && !(canOf s c).autoDue) (fun t => canAuto t c) s)

/-- An entry has been in the FIFO longer than `tmo` time units at time `now`. -/
def canEntOld (tmo now : Nat) (e : CanEnt) : Bool := e.host && decide (e.t + tmo < now)
/-- The FIFO without its oldest host entry that has expired, and whether that was the head. A head that is being transmitted is none (R434). -/
def canExpire (old : CanEnt → Bool) (busy : Bool) (q : List CanEnt) : Option (List CanEnt × Bool) :=
  let idx := q.zip (List.range q.length)
  match argMin (fun (p : CanEnt × Nat) => (p.1.t : Int)) (idx.filter (fun p => old p.1 && !(busy && p.2 = 0))) with
  | none => none
  | some p => some ((idx.filter (fun z => z.2 != p.2)).map (·.1), p.2 = 0)
/-- The entries of a channel that have expired, up to the end of the pick in which the clock of the model stands (R434). -/
def canOld (s : State) (c : Nat) : CanEnt → Bool := canEntOld (pnat s 0x0806 c * millisecond) (s.clk.now + tPick s)
/-- A host entry older than CAN_TX_TMO is removed (R434). -/
def canTxExpire (s : State) (c : Nat) : State :=
  let h := headBusy s c
  match canExpire (canOld s c) h.2 (canOf s c).fifo with
  | none => h.1
  | some (q, head) =>
    let s1 := modCan h.1 c (fun x =>
      let y := { x with fifo := q, txExpired := satInc 32 x.txExpired }
      if head then canAfterPop s.clk.now y else canRefill 32 y)
    if (canOf s1 c).expRaised then s1 else raise (modCan s1 c (fun x => { x with expRaised := true })) 0xC108 c []
/-- CAN_TX_EXPIRED: a host entry has been in the FIFO longer than CAN_TX_TMO. -/
def execCanTxExpired (c : CanNo) (s : State) : Host.Outcome State Fault Refusal :=
  finishD s (when (decide (pnat s 0x0806 c ≠ 0)) (fun t => canTxExpire t c) s)

/-! ### Claims and transport -/

/-- CAN_CLAIM_WAIT_EXPIRY: 250 ms after the claim the address is held (R435). -/
def execCanClaimWaitExpiry (c : CanNo) (s : State) : Host.Outcome State Fault Refusal :=
  let ch := canOf s c
  finishD s (when (ch.claim = 1)
    (fun t => gwPump (raise (modCan t c (fun x => { x with claim := 2 })) 0xC106 c [BitVec.ofNat 8 ch.sa]) c 4) s)
/-- CANNOT_CLAIM_DELAY_EXPIRY: cannot-claim is sent from address 254 (R435). -/
def execCannotClaimDelayExpiry (c : CanNo) (s : State) : Host.Outcome State Fault Refusal :=
  let ch := canOf s c
  finishD s
    (if ch.claim = 3 then raise (claimFrame (modCan s c (fun x => { x with claim := 4, sa := 0xFE })) c 0xFE) 0xC107 c []
     else if ch.claim = 5 then claimFrame (modCan s c (fun x => { x with claim := 4 })) c 0xFE
     else s)
/-- CAN_TP_TIMEOUT: a transport session times out (R436): an abort with reason 3 of ISO 11783-3 is sent. -/
def execCanTpTimeout (c : CanNo) (peer : Byte) (rx : Bool) (s : State) : Host.Outcome State Fault Refusal :=
  let ch := canOf s c
  let p := peer.toNat
  finishD s
    (match tabFind (if rx then ch.tpRx else ch.tpTx) p with
     | none => s
     | some t =>
       gwPump (tpAbortSend (modCan s c (fun x => if rx then { x with tpRx := tabErase x.tpRx p } else { x with tpTx := tabErase x.tpTx p }))
         c p 3 t.pgn false) c 4)

/-! ### Gateway (R374) -/

/-- A message has the length of its entry of `n` bytes behind byte 0; in one FD frame, the frame length that holds it. -/
def gwLenOk (n : Nat) (inFd : Bool) (d : Bytes) : Bool :=
  if inFd then decide (n + 1 ≤ 64) && decide (d.length = fdLen (n + 1)) else decide (d.length = n + 1)
/-- A whole message from the holder of the gateway's NAME. -/
def gwTake (s : State) (m : MasterNo) (inFd : Bool) (d : Bytes) : State :=
  if d.headD 0 = 1 then
    match parseEntry m (d.drop 1) with
    | .ok e op n => if gwLenOk n inFd d then deliver s e op else malformed s m (.bad e.seq e.tag op)
    | p => malformed s m p
  else malformed s m .unreadable
/-- CAN_GATEWAY_MESSAGE: a message in the Proprietary A PGN to the channel's own address, in one FD frame on a channel that takes them, or
else in a classical frame or by transport. -/
def execCanGatewayMessage (c : CanNo) (src : GwFrom) (data : Bytes) (s : State) : Host.Outcome State Fault Refusal :=
  let ch := canOf s c
  finishD s
    (if s.boot.ready = true ∧ pnat s 0x0A0B c ≠ 0 ∧ ch.mode = 1 ∧ ch.claim = 2 ∧ canHolder ch (pnat s 0x0A0B c) = some src.addr.toNat ∧
        (src.inFd = true → pnat s 0x0803 c % 2 = 1) then
      gwTake s (Fin.ofNat 12 (6 + c.val)) src.inFd data
     else s)

end Sys2Proof.Machine
end

