-- ==== Sys2Proof/Machine/Damper.lean ====
section
/-! DEFINITION. The Damper (R442 to R466): output groups, dark tests, safe inputs, safe messages, releases. Its time is
counted in evaluations of 250 µs (R447). -/
namespace Sys2Proof.Machine

/-! ### Groups (R446) -/

/-- EN of a group (R463). -/
def sogEn (s : State) (g : Nat) : Bool := nbit (pnat s 0x0910 g) 0
/-- The state a cause leads to (R446): 1 OPEN, 2 RESTART, 3 LOCKOUT. -/
def causeState (s : State) (g c : Nat) : Nat :=
  if c = 2 ∨ c = 3 then (if nbit (pnat s 0x0910 g) 1 then 1 else 2) else if 9 ≤ c ∧ c ≤ 11 then 3 else 2
/-- Change a group. -/
def modSog (s : State) (g : Nat) (f : Sog → Sog) : State := { s with dmp.sogs := tabMod {} s.dmp.sogs g f }
/-- A group in another state is shown in IRQ_STAT (R373). -/
def sogChanged (s : State) : State := { s with qspi.safeChg := true }
/-- The retention register with a group's LOCKOUT bit (R446). -/
def retainSet (r : BitVec 4) (g : Nat) (v : Bool) : BitVec 4 := if v then r ||| BitVec.ofNat 4 (2 ^ g) else r &&& ~~~ (BitVec.ofNat 4 (2 ^ g))

/-- The strongest state the causes lead to, and the lowest of the causes that lead to it (R448). -/
def causeMax (s : State) (g : Nat) (cs : List Nat) : Nat × Nat :=
  let st := nmax (cs.map (causeState s g))
  (st, ((sortAsc cs).find? (fun c => causeState s g c = st)).getD 0)

/-- Causes take effect on a group: both switches off; a group never moves to a weaker state (R446, R448). -/
def sogCause (s : State) (g : Nat) (cs : List Nat) : State :=
  let x := sogOf s.dmp g
  let m := causeMax s g cs
  if m.1 ≤ x.st then s
  else
    let s1 := modSog s g (fun y => { y with st := m.1, cause := m.2, hs := false, ls := false, lsDue := false, test := 0 })
    let s2 := sogChanged (if m.1 = 3 then { s1 with dmp.retain := retainSet s1.dmp.retain g true } else s1)
    let s3 := when (x.st = 0) (fun t => raise t 0xD101 g [BitVec.ofNat 8 m.2]) s2
    when (m.1 = 3) (fun t => raise t 0xD103 g [BitVec.ofNat 8 m.2]) s3

/-- A cause is found for a group: it takes effect at the next evaluation (R448). -/
def sogFind (s : State) (g c : Nat) : State := modSog s g (fun y => { y with found := dedup (y.found ++ [c]) })
/-- A cause is found for every enabled group (R456). -/
def enabledFind (s : State) (c : Nat) : State := forEach ((List.range 4).filter (sogEn s)) (fun t g => sogFind t g c) s
/-- The safety set has been committed: every group opens with cause 0x7 (R464). -/
def safSetFind (s : State) : State := forEach (List.range 4) (fun t g => sogFind t g 7) s

/-! ### Safe inputs (R452) -/

/-- SIN mask of a group. -/
def sinMask (s : State) (g : Nat) : Nat := pnat s 0x0910 g / 16 % 16
/-- An input counts: it is enabled and in some group's mask (R463). -/
def sinUsed (s : State) (i : Nat) : Bool := nbit (pnat s 0x0911 0) i && (List.range 4).any (fun g => nbit (sinMask s g) i)
/-- An input reads as run level (R452, R463). -/
def sinRun (s : State) (i : Nat) : Bool := !sinUsed s i || (sinOf s.dmp i).run
/-- The discrepancy of a pair is in force. -/
def sinDisc (s : State) (p : Nat) : Bool := nbit (pnat s 0x0911 0) (4 + p) && (if p = 0 then s.dmp.disc0 else s.dmp.disc1)
/-- One sample of an input: 8 consecutive samples of one level set the recognised level. -/
def sinStep (lvl : Bool) (x : Sin) : Sin :=
  let n := if lvl = x.raw then min (x.cnt + 1) 8 else 1
  { raw := lvl, cnt := n, run := if 8 ≤ n then lvl else x.run }

/-! ### Evaluation (R447, R448) -/

/-- The Damper works: not halted, out of reset, with its supply. -/
def dmpLive (s : State) : Bool := !s.dmp.halted && !s.boot.nresetLow && s.boot.badRails.isEmpty
/-- RUN bit of a group in the latest accepted copy of a network; without a copy nothing is demanded. -/
def netStops (n : SNet) (g : Nat) : Bool := match n.run with | some r => !r.getLsbD g | none => false
/-- The lasting causes of a group (R448). -/
def lasting (s : State) (g : Nat) : List Nat :=
  let m := sinMask s g
  let ins := (List.range 4).filter (nbit m)
  (if netStops s.dmp.netA g || netStops s.dmp.netB g then [2] else []) ++ (if ins.any (fun i => !sinRun s i) then [3] else []) ++
    (if s.dmp.timeout && sogEn s g then [4] else []) ++
    (if ins.any (fun i => sinDisc s (i / 2)) then [6] else []) ++ (if sogEn s g then [] else [12])
/-- The causes of a group at an evaluation. -/
def causesNow (s : State) (g : Nat) : List Nat := (sogOf s.dmp g).found ++ lasting s g
/-- nSAFE_RST counts as held (R459): low for at least 100 ms. An edge comes up to one evaluation after the last, so 401 have passed. -/
def pinHeld (s : State) : Bool := s.dmp.pinLow && !s.dmp.stuck && decide (s.dmp.pinAt + 401 ≤ s.dmp.evals)
/-- The mask requested over both networks (R458). -/
def bothReq (s : State) : Option (BitVec 4) :=
  match s.dmp.netA.req, s.dmp.netB.req with | some a, some b => if a = b then some a else none | _, _ => none
/-- A group is released by the requests pending at this evaluation (R458, R459, R462). -/
def releasable (s : State) (mask : BitVec 4) (causes : Nat → List Nat) (g : Nat) : Bool :=
  let st := (sogOf s.dmp g).st
  mask.getLsbD g && (causes g).isEmpty && !s.dmp.mismatch && (st = 2 || (st = 3 && pinHeld s))
/-- The groups that the requests of both networks still name: those that no release has used up (R458). -/
def unused (s : State) (mask : BitVec 4) : BitVec 4 := mask &&& ~~~ (s.dmp.netA.used ||| s.dmp.netB.used)
/-- Release a group to OPEN. -/
def sogRelease (s : State) (g : Nat) : State :=
  sogChanged { modSog s g (fun y => { y with st := 1 }) with dmp.retain := retainSet s.dmp.retain g false }
/-- The closing conditions of R447; a group that has met a cause at this evaluation does not close at it (R448). -/
def closable (s : State) (causes : Nat → List Nat) (g : Nat) : Bool :=
  (sogOf s.dmp g).st = 1 && (causes g).isEmpty && sogEn s g && s.dmp.pairRun.getLsbD g && !s.dmp.timeout && !s.dmp.mismatch &&
    (match s.dmp.pairAt with | some k => decide ((s.dmp.evals - k) * 250 ≤ pnat s 0x0906 0 * 1000) | none => false) &&
    (List.range 4).all (fun i => !nbit (sinMask s g) i || (sinRun s i && !sinDisc s (i / 2)))
/-- Close a group: the square wave starts, and the low side follows 30 µs later (R447). -/
def sogClose (s : State) (g : Nat) : State :=
  raise (sogChanged (modSog s g (fun y => { y with st := 0, cause := 0, hs := true, ls := false, lsDue := true, test := 0 }))) 0xD102 g []

/-- The groups of a mask that satisfy a condition, as a number. -/
def maskOf (p : Nat → Bool) : Nat := nsum (((List.range 4).filter p).map (fun g => 2 ^ g))
/-- The groups of a mask that still wait for the other network or for nSAFE_RST (R458). -/
def stillWait (s : State) (both : Option (BitVec 4)) (mask : BitVec 4) (g : Nat) : Bool :=
  let st := (sogOf s.dmp g).st
  mask.getLsbD g && 2 ≤ st && (both != some mask || !(unused s mask).getLsbD g || (st = 3 && !pinHeld s))
/-- Complete the SAFE_RESET commands that an evaluation follows (R458). -/
def resetsDone (s : State) (both : Option (BitVec 4)) (freed : List Nat) : State :=
  forEach (List.range 16) (fun t mask =>
    let mk : BitVec 4 := BitVec.ofNat 4 mask
    completeWaits t (fun w => w = .damper mk.toNat) 0
      (le 4 (maskOf (fun g => mk.getLsbD g && freed.contains g && both == some mk) + 16 * maskOf (stillWait t both mk)))) s
/-- W0 of SAFE_RESET at a halted Damper, which makes no evaluation any more: nothing released, and every group of the mask
that is in RESTART or LOCKOUT waits. -/
def haltW0 (s : State) (mask : BitVec 4) : Nat := 16 * maskOf (fun g => mask.getLsbD g && decide (2 ≤ (sogOf s.dmp g).st))
/-- A halt completes the SAFE_RESET commands that wait for an evaluation (R458, R460). -/
def resetsHalt (s : State) : State :=
  forEach (List.range 16) (fun t mask => completeWaits t (fun w => w = .damper mask) 0 (le 4 (haltW0 t (BitVec.ofNat 4 mask)))) s
/-- A release uses the requests of both networks: what stays pending are the groups that still wait, and a request
without such a group ends (R458). -/
def reqsUse (s : State) (both : Option (BitVec 4)) (freed : List Nat) : State :=
  match both with
  | some mask =>
    if freed.isEmpty then s
    else
      let gone : BitVec 4 := BitVec.ofNat 4 (maskOf (fun g => decide ((sogOf s.dmp g).st < 2)))
      let use := fun (n : SNet) =>
        if mask &&& ~~~ (n.used ||| gone) = 0 then { n with req := none, used := 0 } else { n with used := n.used ||| gone }
      { s with dmp := { s.dmp with netA := use s.dmp.netA, netB := use s.dmp.netB } }
  | none => s

/-- One evaluation: causes, releases, closings (R448). -/
def evaluate (s : State) : State :=
  let s0 : State := { s with dmp.evals := s.dmp.evals + 1 }
  let causes := fun g => causesNow s0 g
  let s1 := forEach (List.range 4) (fun t g => modSog (sogCause t g (causes g)) g (fun y => { y with found := [] })) s0
  let both := bothReq s1
  let freed := match both with | some mask => (List.range 4).filter (releasable s1 (unused s1 mask) causes) | none => []
  let s2 := forEach freed sogRelease s1
  let s3 := when (!freed.isEmpty && s2.pair.active) (fun t => sendItem t (.safeRelease (BitVec.ofNat 4 (maskOf freed.contains)))) s2
  let s4 := forEach (List.range 4) (fun t g => when (closable t causes g) (fun u => sogClose u g) t) s3
  reqsUse (resetsDone s4 both freed) both freed

/-- A release that the active controller passes on (R462): a standby whose Damper works applies it where no cause stands. -/
def releaseItem (s : State) (mask : BitVec 4) : State :=
  forEach ((List.range 4).filter (fun g => dmpLive s && releasable s mask (causesNow s) g)) sogRelease s

/-- DAMPER_EVALUATION. -/
def execDamperEvaluation (s : State) : Host.Outcome State Fault Refusal := finish s (when (dmpLive s) evaluate s)

/-- SOG_LS_ON_DELAY: 30 µs after the square wave has started the low side is switched on (R447, R450). With it a dark test ends, the switch
conducting as it is switched on (log 111). -/
def execSogLsOnDelay (g : SogNo) (s : State) : Host.Outcome State Fault Refusal :=
  finish s (when (dmpLive s && (sogOf s.dmp g).lsDue) (fun t => modSog t g (fun y => { y with ls := true, lsDue := false, test := if y.test = 4 then 0 else y.test })) s)

/-! ### Dark tests and readback (R449 to R451) -/

/-- Picks in a second at the pick length in force (R449). -/
def picksPerSec (s : State) : Nat := second / tPick s

/-- DARK_TEST_START: the test of a CLOSED group begins in its pick (R449). -/
def execDarkTestStart (g : SogNo) (s : State) : Host.Outcome State Fault Refusal :=
  let n := picksPerSec s
  finish s (when (dmpLive s && s.clk.started && decide ((ps s).toNat % n = g.val * n / 4) && (sogOf s.dmp g).st = 0 && (sogOf s.dmp g).test = 0)
    (fun t => modSog t g (fun y => { y with ls := false, lsDue := false, test := 1, midHigh := 0 })) s)

/-- A readback sample of a dark test (R450). -/
def darkSample (s : State) (g : Nat) (mid : Bool) : State :=
  let x := sogOf s.dmp g
  if x.test = 1 then modSog s g (fun y => { y with hs := false, test := if mid then 2 else 3 })
  else if x.test = 2 ∧ mid = false then modSog s g (fun y => { y with hs := true, lsDue := true, test := 4 })
  else if x.test = 2 ∨ x.test = 3 then sogCause s g [9]
  else s

/-- DARK_TEST_SAMPLE: SOGn_MID at 60 µs and at 160 µs of a test. -/
def execDarkTestSample (g : SogNo) (mid : Bool) (s : State) : Host.Outcome State Fault Refusal :=
  finish s (when (dmpLive s) (fun t => darkSample t g mid) s)

/-- DARK_TEST_OVERDUE: a group CLOSED for 2 s without a test (R449). -/
def execDarkTestOverdue (g : SogNo) (s : State) : Host.Outcome State Fault Refusal :=
  finish s (when (dmpLive s && (sogOf s.dmp g).st = 0) (fun t => sogFind t g 8) s)

/-- One readback sample outside a dark test: HIGH in samples that span 500 µs is a readback fault, found once
(R448, R451); a HIGH that lasts on is measured anew (DEDUCED, log 111). -/
def midSample (s : State) (g : Nat) (high : Bool) : State :=
  let x := sogOf s.dmp g
  if x.test ≠ 0 then s
  else if high = false then modSog s g (fun y => { y with midHigh := 0 })
  else
    if 10 ≤ x.midHigh then sogFind (modSog s g (fun y => { y with midHigh := 0 })) g 10
    else modSog s g (fun y => { y with midHigh := y.midHigh + 1 })

/-- MID_READBACK_SAMPLE: SOG0_MID to SOG3_MID, every 50 µs (R451). -/
def execMidReadbackSample (levels : BitVec 4) (s : State) : Host.Outcome State Fault Refusal :=
  finish s (when (dmpLive s) (fun t => forEach (List.range 4) (fun u g => midSample u g (levels.getLsbD g)) t) s)

/-! ### Samples of the inputs (R452) -/

/-- Samples of the four inputs: recognised levels, and the end of a discrepancy. -/
def sinSample (s : State) (levels : BitVec 4) : State :=
  let d := { s.dmp with sins := (List.range 4).foldl (fun t i => tabMod {} t i (sinStep (levels.getLsbD i))) s.dmp.sins }
  let s1 : State := { s with dmp := d }
  let both := fun (p : Nat) => !sinRun s1 (2 * p) && !sinRun s1 (2 * p + 1)
  { s1 with dmp := { s1.dmp with disc0 := s1.dmp.disc0 && nbit (pnat s 0x0911 0) 4 && !both 0,
                                      disc1 := s1.dmp.disc1 && nbit (pnat s 0x0911 0) 5 && !both 1 } }

/-- SIN_SAMPLE: SIN0 to SIN3, every 100 µs (R452). -/
def execSinSample (levels : BitVec 4) (s : State) : Host.Outcome State Fault Refusal :=
  finish s (when (dmpLive s) (fun t => sinSample t levels) s)

/-- SIN_DISCREPANCY: a pair has been recognised at different levels for 200 ms (R452). -/
def execSinDiscrepancy (p : Fin 2) (s : State) : Host.Outcome State Fault Refusal :=
  let q := p.val
  finish s (when (dmpLive s && nbit (pnat s 0x0911 0) (4 + q) && (sinRun s (2 * q) != sinRun s (2 * q + 1)) && !sinDisc s q)
    (fun t => raise { t with dmp := if q = 0 then { t.dmp with disc0 := true } else { t.dmp with disc1 := true } } 0xD106 q []) s)

/-! ### Safe messages (R453 to R456) -/

/-- The members of SAF_SET in the order of R464. -/
def safMembers : List (Nat × Nat) :=
  (List.range 9).map (fun i => (0x0900 + i, 0)) ++ (List.range 4).map (fun g => (0x0910, g)) ++ [(0x0911, 0)]
/-- SAF_SET_CRC of a table of values (R464). -/
def safCrcT (t : Tab Int) : Nat := crc32c ((safMembers.map (fun p => le 8 (praw (pgetT t p.1 p.2)))).flatten)
/-- SAF_SET_CRC (R464): of the default set as long as none has been committed; it has its reset value of 0 until READY, since the Damper
receives the stored set in step 6 (R465, R496). -/
def safCrc (s : State) : Nat := if s.boot.ready then safCrcT s.par.force else 0

/-- The record of a network. -/
def netOf (d : Damper) (n : NetSel) : SNet := match n with | .netA => d.netA | .netB => d.netB
/-- Change the record of a network. -/
def modNet (s : State) (n : NetSel) (f : SNet → SNet) : State :=
  match n with | .netA => { s with dmp.netA := f s.dmp.netA } | .netB => { s with dmp.netB := f s.dmp.netB }
/-- The other network. -/
def netOther (n : NetSel) : NetSel := match n with | .netA => .netB | .netB => .netA
/-- The number of a network in an event: 0 A, 1 B. -/
def netNo (n : NetSel) : Nat := match n with | .netA => 0 | .netB => 1

/-- A safe network that another channel carries from now on has accepted no copy yet (R455) and holds no request; its count of
rejected copies goes on. -/
def netRenew (s t : State) : State :=
  forEach ([NetSel.netA, NetSel.netB].filter (fun n => pnat s (0x0900 + netNo n) 0 != pnat t (0x0900 + netNo n) 0))
    (fun u n => modNet u n (fun y => { rej := y.rej, rejAt := y.rejAt })) t

/-- A source carries the messages of a network (R453). -/
def srcIs (s : State) (src : SafeSource) (n : NetSel) : Bool :=
  let i := netNo n
  match src with
  | .can c ide ident =>
    decide (pnat s (0x0900 + i) 0 = c.val) && pnat s 0x0800 c.val != 0 && (ide == nbit (pnat s (0x0902 + i) 0) 31) &&
      decide (ident.toNat = pnat s (0x0902 + i) 0 % 2 ^ 29)
  | .mac m ip port =>
    decide (pnat s (0x0900 + i) 0 = 4 + m.val) && pnat s 0x0A00 m.val != 0 && decide (ip = pnat s 0x0A01 m.val) && decide (port = pnat s 0x0904 0)

/-- A copy that came at time stamp `t` is rejected (R455): SM_REJECT at most once per network per second. -/
def copyReject (s : State) (n : NetSel) (t : Nat) : State :=
  let x := netOf s.dmp n
  let quiet := match x.rejAt with | some k => decide (k ≤ t) && decide (t < k + second) | none => false
  let s1 := modNet s n (fun y => { y with rej := satInc 16 y.rej, rejAt := if quiet then y.rejAt else some t })
  when (!quiet) (fun u => raise u 0xD109 (netNo n) []) s1

/-- SCRC of a message whose bytes 0 to 3 are given (R454). -/
def safeCrc (s : State) (body : Bytes) : Nat := crc32c (le 8 (pnat s 0x0905 0) ++ le 4 (safCrc s) ++ body)
/-- The checks of R455 on the 8 bytes of a copy. -/
def copyOk (s : State) (x : SNet) (d : Bytes) : Bool :=
  let w := word d 0
  let q := w / 2 ^ 24
  decide (word d 1 = safeCrc s (d.take 4)) && decide (w / 2 ^ 16 % 256 = 0x11) && decide (w / 16 % 4096 = 0) &&
    (match x.seq with | some k => (let e := (q + 256 - k) % 256; 1 ≤ e && e ≤ 15) | none => true)

/-- Look for the partner of a copy (R456). -/
def copyPair (s : State) (n : NetSel) (v : BitVec 64) (t : Nat) : State :=
  let o := netOther n
  let q := v.toNat / 2 ^ 24 % 256
  let skew := pnat s 0x0907 0 * millisecond
  let hit := fun (p : BitVec 64 × Nat) => decide (p.1.toNat / 2 ^ 24 % 256 = q) && decide (t ≤ p.2 + skew) && decide (p.2 ≤ t + skew)
  match (netOf s.dmp o).copies.find? hit with
  | none => modNet s n (fun y => { y with copies := y.copies ++ [(v, t)] })
  | some p =>
    let s1 := modNet s o (fun y => { y with copies := y.copies.filter (fun z => z != p) })
    if p.1 = v then
      { s1 with dmp := { s1.dmp with pairAt := some s1.dmp.evals, pairSeq := q, pairRun := BitVec.ofNat 4 v.toNat, timeout := false } }
    else raise (enabledFind { s1 with dmp.discCnt := satInc 16 s1.dmp.discCnt } 5) 0xD104 noInst []

/-- An accepted copy (R455): a stop it demands is found for its groups at once. -/
def copyAccept (s : State) (n : NetSel) (d : Bytes) (t : Nat) : State :=
  let w := word d 0
  let run : BitVec 4 := BitVec.ofNat 4 w
  let s1 := modNet s n (fun y => { y with seq := some (w / 2 ^ 24), run := some run })
  let s2 := forEach ((List.range 4).filter (fun g => !run.getLsbD g)) (fun u g => sogFind u g 2) s1
  copyPair s2 n (BitVec.ofNat 64 (rdLe d 0 8)) t

/-- SAFE_MESSAGE_RECEIVE: a frame or datagram reaches the Damper at a time stamp (R453). -/
def execSafeMessageReceive (src : SafeSource) (data : Bytes) (t : Nat) (s : State) : Host.Outcome State Fault Refusal :=
  finish s
    (if dmpLive s then
      match [NetSel.netA, NetSel.netB].find? (srcIs s src) with
      | some n =>
        if data.length = 8 ∧ copyOk s (netOf s.dmp n) data = true then copyAccept s n data t else copyReject s n t
      | none => s
     else s)

/-- SM_UNPAIRED: the partner of the oldest waiting copy has not arrived within SAF_SKEW (R456). -/
def execSmUnpaired (net : NetSel) (s : State) : Host.Outcome State Fault Refusal :=
  finish s (when (dmpLive s && !(netOf s.dmp net).copies.isEmpty)
    (fun t => modNet { t with dmp.unpaired := satInc 16 t.dmp.unpaired } net (fun y => { y with copies := y.copies.drop 1 })) s)

/-- SM_TIMEOUT: no matched pair for SAF_SM_TMO (R456). -/
def execSmTimeout (s : State) : Host.Outcome State Fault Refusal :=
  finish s (when (dmpLive s && s.dmp.pairAt.isSome && !s.dmp.timeout)
    (fun t =>
      let d := { t.dmp with timeout := true, netA := { t.dmp.netA with seq := none }, netB := { t.dmp.netB with seq := none } }
      raise (enabledFind { t with dmp := d } 4) 0xD105 noInst []) s)

/-! ### Self-checks and the reset pin (R459, R460) -/

/-- An internal fault: every group opens with cause 0xB and the Damper halts (R460). -/
def dmpFault (s : State) : State :=
  let s1 := forEach (List.range 4) (fun t g => sogCause t g [11]) s
  resetsHalt (raise { s1 with dmp.halted := true } 0xD108 noInst [])

/-- DAMPER_CLOCK_CHECK: the deviation of the clock, every 1 ms (R460). -/
def execDamperClockCheck (devPermille : Int) (s : State) : Host.Outcome State Fault Refusal :=
  finish s (when (dmpLive s && decide (100 < iabs devPermille)) dmpFault s)
/-- DAMPER_FAULT: lockstep, clock, supply or parity (R460). -/
def execDamperFault (_kind : DamperFaultKind) (s : State) : Host.Outcome State Fault Refusal := finish s (when (dmpLive s) dmpFault s)

/-- NSAFE_RST_EDGE: a change of the pin (R459). A pin that has been stuck counts again once it has been high for 100 ms. -/
def execNsafeRstEdge (level : Bool) (s : State) : Host.Outcome State Fault Refusal :=
  finish s (when (s.dmp.pinLow == level)
    (fun t =>
      { t with dmp := { t.dmp with pinLow := !level, pinAt := t.dmp.evals,
                                   stuck := t.dmp.stuck && (level || decide (t.dmp.evals < t.dmp.pinAt + 401)) } }) s)
/-- SAFE_RST_STUCK: the pin has been low for 60 s (R459). -/
def execSafeRstStuck (s : State) : Host.Outcome State Fault Refusal :=
  finish s (when (dmpLive s && s.dmp.pinLow && !s.dmp.stuck) (fun t => raise { t with dmp.stuck := true } 0xD107 noInst []) s)
/-- SAFE_RESET_WINDOW_EXPIRY: SAF_RST_WIN of a network's request ends (R458). -/
def execSafeResetWindowExpiry (net : NetSel) (s : State) : Host.Outcome State Fault Refusal :=
  finish s (modNet s net (fun y => { y with req := none, used := 0 }))

/-! ### Commands (R458, R465) -/

/-- The network over which a command of a master reaches the Damper (R458). -/
def masterNet (s : State) (m : Nat) : Option NetSel :=
  let at' := if gwMaster m then some (m - 6) else if 1 ≤ m ∧ m ≤ 4 then ((tabGet {} s.eth.sess m : SessPair).cur.map (fun x => 4 + x.mac)) else none
  match at' with
  | none => none
  | some v => if pnat s 0x0900 0 = v then some .netA else if pnat s 0x0901 0 = v then some .netB else none

/-- The execution of SAFE_RESET. -/
def safeResetRun (s : State) (m : Nat) (pl : Bytes) : State × CmdRes :=
  let w0 := word pl 0
  checked s [(pl.length = 4, 0x2002), (onlyBits 0xF w0, 0x2003), (hasRights s m 6 rSAFE, 0x2005)]
    (match masterNet s m with
     | none => (s, .fin 0xD001 [])
     | some n =>
       if w0 = 0 then (s, .fin 0xD002 [])
       else
         let t := modNet s n (fun y => { y with req := some (BitVec.ofNat 4 w0), used := 0 })
         (t, if t.dmp.halted then .fin 0 (le 4 (haltW0 t (BitVec.ofNat 4 w0))) else .wait (.damper w0)))

/-- W0 of SAFE_STATUS, which is SAF_STATUS (R463, R465). -/
def safW0 (s : State) : Nat :=
  nsum ((List.range 4).map (fun g => (sogOf s.dmp g).st * 4 ^ g + (sogOf s.dmp g).cause * 2 ^ (16 + 4 * g)))
/-- The words of SAFE_STATUS (R465). SIN_RUN has its reset value of 0 until READY. -/
def safWords (s : State) : List Nat :=
  let d := s.dmp
  let rq := fun (n : SNet) => match n.req with | some r => (r &&& ~~~ n.used).toNat | none => 0
  [safW0 s,
   b2n (sinDisc s 0) + 2 * b2n (sinDisc s 1) + maskOf (fun i => s.boot.ready && sinRun s i) * 256 + b2n (pinHeld s) * 2 ^ 15 + rq d.netB * 2 ^ 16 + rq d.netA * 2 ^ 20,
   d.pairRun.toNat + d.pairSeq * 256 + (match d.pairAt with | some k => min ((d.evals - k) / 4) 0xFFFF | none => 0xFFFF) * 65536,
   safCrc s, d.discCnt + d.unpaired * 65536, d.netA.rej + d.netB.rej * 65536]

/-- The execution of SAFE_STATUS. -/
def safeStatusRun (s : State) (m : Nat) (pl : Bytes) : State × CmdRes :=
  checked s [(pl.length = 0, 0x2002), (hasRights s m 6 rREAD, 0x2005)] (s, .fin 0 (words (safWords s)))

/-- SAFE_RESET. -/
def execSafeReset (e : CmdEntry) (s : State) : Host.Outcome State Fault Refusal := finish s (command s e 0x0C01 safeResetRun)
/-- SAFE_STATUS. -/
def execSafeStatus (e : CmdEntry) (s : State) : Host.Outcome State Fault Refusal := finish s (command s e 0x0C02 safeStatusRun)

end Sys2Proof.Machine
end

