-- ==== Sys2Proof/Machine/Deadline.lean ====
section
/-! DEFINITION. The build deadline T_dl of a pick (R29, R30, R176, R177, R326). -/
namespace Sys2Proof.Machine

/-- The axes whose records a branch's down frame carries, in the order of R115: by slot position and local axis, late-comers
behind them in the order of placement. -/
def downAxes (s : State) (b : Nat) : List Nat :=
  let as := s.warp.place.axes.filter (fun p => !p.unplaced && p.node / 4 = b && axClass s p.axis != 0 && axClass s p.axis != 4)
  let key := fun (p : AxisPl) => if p.late then 1024 + p.order else (p.slot % 16) * 8 + p.lax
  (sortBy (fun x y => decide (key x < key y)) as).map (·.axis)
/-- Build every record and freeze the down frames of the branches (R30, R115, R177). -/
def downBuild (s : State) : State :=
  forEach (brList s) (fun t b =>
    let as := downAxes t b
    let t1 := forEach as recBuild t
    modBr t1 b (fun r => { r with down := (as.map (fun a => (axOf t1 a).md.recB)).flatten })) s
/-- In the swap pick every record carries HOLD = 1 and nothing is computed (R488): the down frames of the new active controller. -/
def downHold (s : State) : State :=
  forEach (brList s) (fun t b =>
    let as := downAxes t b
    let t1 := forEach as (fun u a => recPlain u a (recWant u a).1 true) t
    modBr t1 b (fun r => { r with down := (as.map (fun a => (axOf t1 a).md.recB)).flatten })) s
/-- What the active controller does at T_dl: the Loom's cut, the feedback-lost reactions, the records, and the profile jobs of the pick
(R176, R177, R210). -/
def deadlineActive (s0 : State) (decoded : List Nat) : State :=
  let s := loomTo s0 (tDl s0.clk.plen)
  if s.pair.swapSt = 2 then downHold s
  else profJobs (downBuild (forEach ((List.range 128).filter (fun a => axClass s a != 0)) fbLostTake (loomDeadline s decoded)))

/-- BUILD_DEADLINE: T_dl of the pick, with the die temperature and the trigger pin levels that the Kiln samples (R176, R327), and the
axes whose running job has ended its feedback decode task (R168). Once in a pick. -/
def execBuildDeadline (dieTemp : Int) (obs : DeadlineObs) (s : State) : Host.Outcome State Fault Refusal :=
  finishD s
    (if s.clk.locked = true ∧ s.clk.started = true ∧ s.clk.afterDl = false then
      let s1 : State :=
        { s with clk := { s.clk with afterDl := true, now := max s.clk.now (s.clk.pickT0 + tDl s.clk.plen) }, boot := { s.boot with dieTemp := dieTemp, tjHigh := s.boot.tjHigh && decide (145 * 256 ≤ dieTemp) }, kiln.trigLvl := obs.trigLevels }
      let s2 := if sending s1 then deadlineActive s1 (obs.decoded.map (·.val)) else s1
      if isReady s2 = true ∧ isStandby s2 = false then kilnDeadline s2 else s2
     else s)

end Sys2Proof.Machine
end

