-- ==== Sys2Proof/Machine/Flags.lean ====
section
/-! DEFINITION. The status values that the part derives from its state: the read-only parameters (R511, R515, R516), the
direct status registers (R373), and the statistics blocks (R145, R146, R163, R183, R184, R241, R376). -/
namespace Sys2Proof.Machine

/-! ### Read-only parameters -/

/-- DEV_BOOT_STAT (R497). -/
def bootStat (s : State) : Nat :=
  s.boot.cause * 2 ^ 24 + s.boot.dirFails * 2 ^ 16 + b2n s.boot.slotB * 2 ^ 11 + b2n s.boot.trial * 2 ^ 10 + s.boot.err * 16 + s.boot.stage
/-- Hours since the last complete scrub pass (R507). -/
def scrubHours (s : State) : Nat := min ((s.clk.now - s.boot.scrubT) / (3600 * second)) 0xFFFF
/-- DEV_DDR_STAT (R507). -/
def ddrStat (s : State) : Nat := s.boot.corr * 2 ^ 32 + s.boot.uncorr * 2 ^ 16 + scrubHours s
/-- ACQ_STATUS of a unit (R355). -/
def acqStatus (u : AcqU) : Nat := u.st * 2 ^ 28 + u.code * 2 ^ 24 + min u.caps.length 0xFFFF
/-- ACQ_BUF_BASE of a unit (R355). -/
def acqBase (s : State) (u : Nat) : Nat :=
  match s.warp.place.acq.find? (fun p => p.1 = u) with | some p => if p.2.2 = 0 then 0xFFFF else p.2.1 | none => 0xFFFF
/-- CAN_STATUS of a channel (R439). STATE has its reset value of 0 until READY. -/
def canStatus (rdy : Bool) (ch : Can) : Nat :=
  (if ch.claim = 2 then ch.sa else 0xFE) * 2 ^ 24 + min ch.recv 0xFF * 2 ^ 16 + min ch.tec 0xFF * 256 + ch.fifo.length * 4 + (if rdy then canState ch else 0)

/-- The value of a read-only parameter. -/
def roValue (s : State) (num i : Nat) : Int :=
  if num = 0x0013 then brCal (brOf s i)
  else if num = 0x0015 then otpStat s.acc
  else if num = 0x0016 then bootStat s
  else if num = 0x0017 then ddrStat s
  else if num = 0x0110 then axState (axOf s i).sm
  else if num = 0x0207 then s.warp.epoch.toNat
  else if num = 0x0208 then s.warp.place.draft.length
  else if num = 0x0530 then fbStatus (axOf s i).fb
  else if num = 0x0531 then (axOf s i).fb.pos
  else if num = 0x0532 then fbAngle s i
  else if num = 0x0533 then fbTurns s i
  else if num = 0x0534 then (axOf s i).fb.vAct
  else if num = 0x0542 then inStatus (axOf s i)
  else if num = 0x0543 then (axOf s i).fb.homeOfs
  else if num = 0x0620 then prfStatus s i
  else if num = 0x0750 then acqStatus (unOf s i)
  else if num = 0x0751 then acqBase s i
  else if num = 0x0752 then (unOf s i).ovfCnt
  else if num = 0x0820 then canStatus s.boot.ready (canOf s i)
  else if num = 0x0930 then safCrc s
  else if num = 0x0931 then safW0 s
  else if num = 0x0C00 then keyInfo (keyOf s i)
  else 0

/-- The value a read of a parameter shows (R390): the settings that consume an OTP cell read as the cells stand (R413). -/
def pread (s : State) (p : PSpec) (i : Nat) : Int :=
  if p.ro then roValue s p.num i
  else if p.num = 0x0014 then b2n s.acc.dbgOff
  else if p.num = 0x0B01 then s.acc.role
  else if p.num = 0x0A08 then masterEnFix s (pnat s 0x0A08 0)
  else pget s p.num i

/-! ### Direct status registers (R373) -/

/-- IRQ_STAT. -/
def irqStat (s : State) : Nat :=
  let n := (s.qspi.cplHead - s.qspi.cplTail).toNat
  let r := (mbOf s 5).ring
  b2n (decide (n ≠ 0)) + 2 * b2n (r.any (fun x => match x with | .evt _ _ => true | .cpl _ => false)) + 4 * b2n s.qspi.readyChg +
    8 * b2n s.qspi.roleChg + 16 * b2n s.qspi.safeChg + 32 * b2n s.qspi.ringErr
/-- The status register at 0x04. SAFE_ANY has its reset value of 0 until READY, though every group is open then. -/
def statWord (s : State) : Nat :=
  b2n s.boot.ready + 2 * b2n (roleB s) + 4 * b2n s.pair.active + 8 * b2n (inSync s) +
    16 * b2n (s.boot.ready && (List.range 4).any (fun g => (sogOf s.dmp g).st != 0)) + 32 * b2n s.boot.ddrDone
/-- Commands of a master in flight (R363). -/
def inFlight (s : State) (m : Nat) : Nat := (mbOf s m).flights.length
/-- The registers 0x00 to 0x28 as a master's status read shows them (R373, R391). -/
def statRegs (s : State) (m : Nat) : List Nat :=
  let q := m = 5
  [0x5128C004, statWord s, (ps s).toNat, s.warp.epoch.toNat, irqStat s, s.qspi.irq0En.toNat, s.qspi.irq1En.toNat, (mbOf s m).sNext.toNat,
   if q then s.qspi.cmdHead.toNat + 2 ^ 16 * s.qspi.cmdTail.toNat else 0,
   if q then s.qspi.cplTail.toNat + 2 ^ 16 * s.qspi.cplHead.toNat else 0,
   inFlight s m * 256 + pnat s 0x0A09 m]
/-- Levels of IRQ0 and IRQ1 (R373): low until READY. -/
def irqPins (s : State) : Bool × Bool :=
  (s.boot.ready && (irqStat s &&& s.qspi.irq0En.toNat) != 0, s.boot.ready && (irqStat s &&& s.qspi.irq1En.toNat) != 0)

/-- The levels A, B and Z of an echo output (R265), none while its pins are in high impedance: before READY and on a standby
(R267, R496). From a commit on Z stays 0 until the first step, since the commit drives it to 0 (R266; DEDUCED, log 108). -/
def echoPins (s : State) (e : Nat) : Option (Bool × Bool × Bool) :=
  if s.boot.ready && s.pair.active then
    let o := (ecOf s e).o
    let q := nmod o 4
    let z := pnat s 0x0523 e
    some (q = 1 || q = 2, q = 2 || q = 3, (ecOf s e).moved && z != 0 && nmod o z = 0)
  else none

/-! ### Statistics blocks -/

/-- A signed 16-bit field. -/
def u16 (x : Int) : Nat := wrapU 16 x
/-- The counter block of a node (R145). -/
def nodeBlock (s : State) (n : Nat) : Bytes :=
  let c := ndcOf s n
  words [nstate s n, c.acycRetry + c.acycFail * 65536, c.framesOk, c.missed, c.corr, c.corrEopen, c.violBand, c.violOvr, c.downBad,
         u16 c.ofsLast + u16 c.ofsMean * 65536, u16 c.ofsMin + u16 c.ofsMax * 65536, c.mute + c.adj * 65536]
/-- The counter block of a branch (R146). -/
def branchBlock (s : State) (b : Nat) : Bytes :=
  let c := brcOf s b
  words [bstate s b, c.rxDrop, c.codeViol, c.readback, c.unattrib, c.eow, c.joinBad, c.joinOk + c.cut * 65536]
/-- MODE of a coding block: the mode of CODE_MAP in the assignment the node follows (R163, R128). -/
def codeMode (s : State) (a : Nat) : Nat :=
  match asgOf s (axNode s a) with
  | some g => if placed s a then g.codes.getD (axLax s a) 0 else 0
  | none => 0
/-- The coding block of an axis (R163). -/
def codeBlock (s : State) (a : Nat) : Bytes :=
  let c := (axOf s a).cnt
  words [codeMode s a + c.smax * 16 + c.rekey * 65536, c.restart + c.discard * 65536, c.erase, c.esc]
/-- The block of a lane (R183). -/
def laneBlock (s : State) (l : Nat) : Bytes :=
  let c := lncOf s l
  let h := fun i => tabGet 0 c.hwm i
  words [c.busyBolt, c.bpHolds, c.jobsLate, c.jobsCut, c.jobsRun, c.fPickIdx + c.postBolt * 65536, c.fMax + c.fBolt * 65536,
         h 0 + h 1 * 256 + h 2 * 65536 + h 3 * 2 ^ 24]
/-- The overrun block of an axis (R184). -/
def ovrBlock (s : State) (a : Nat) : Bytes :=
  let c := (axOf s a).cnt
  words [c.ovrLane + c.ovrNofb * 65536, c.ovrDrop + c.ovrPost * 65536]
/-- The modulation block of an axis (R241). -/
def modBlock (s : State) (a : Nat) : Bytes :=
  let c := (axOf s a).cnt
  words [c.cap, c.buvMax + c.boost * 65536, c.crej, c.st]
/-- The transport block of a master (R376). -/
def hostBlock (s : State) (m : Nat) : Bytes :=
  let b := mbOf s m
  words [b.sessions + b.evtMerged * 65536, b.repeatCnt + b.notAccCnt * 65536, b.malformed, b.dropAuth]

/-- Clear the coding block of an axis. -/
def codeClear (s : State) (a : Nat) : State :=
  modCnt s a (fun c => { c with esc := 0, erase := 0, discard := 0, restart := 0, rekey := 0, smax := 0, smaxNow := 0 })
/-- Clear the overrun block of an axis. -/
def ovrClear (s : State) (a : Nat) : State := modCnt s a (fun c => { c with ovrPost := 0, ovrDrop := 0, ovrNofb := 0, ovrLane := 0 })
/-- Clear the modulation block of an axis. -/
def modClear (s : State) (a : Nat) : State := modCnt s a (fun c => { c with st := 0, crej := 0, boost := 0, buvMax := 0, cap := 0 })
/-- Clear the transport block of a master. -/
def hostClear (s : State) (m : Nat) : State :=
  modMb s m (fun b => { b with dropAuth := 0, malformed := 0, notAccCnt := 0, repeatCnt := 0, evtMerged := 0, sessions := 0 })

end Sys2Proof.Machine
end

