-- ==== Sys2Proof/Machine/Catalogue.lean ====
section
/-! DEFINITION. Status, event log, network and statistics commands of the catalogue (R391 to R393, R397). -/
namespace Sys2Proof.Machine

/-! ### Device -/

/-- NOP. -/
def nopRun (s : State) (_m : Nat) (pl : Bytes) : State × CmdRes := checked s [(pl.length = 0, 0x2002)] (s, .fin 0 [])
/-- STATUS_READ (R373, R391). -/
def statusRun (s : State) (m : Nat) (pl : Bytes) : State × CmdRes :=
  checked s [(pl.length = 0, 0x2002)] (s, .fin 0 (words (statRegs s m)))

/-- The 64 bytes of an event log record (R397). -/
def logBytes (r : LogRec) : Bytes :=
  words [r.lseq, r.payload.length, r.inst + r.code * 65536, r.pstamp.toNat] ++ padTo 16 r.payload ++ le 8 r.tstamp ++ le 8 r.t0 ++
    words [r.h0s / 2 ^ 32, r.h0s % 2 ^ 32, r.h0ns] ++ leS 4 r.rho
/-- The payload of EVLOG_READ: up to `n` records from an LSEQ on (R397). -/
def evlogPayload (s : State) (fromSeq n : Nat) : Bytes :=
  let oldest := match s.log.recs.getLast? with | some r => r.lseq | none => s.log.next
  let first := max fromSeq oldest
  let rs := (s.log.recs.reverse.filter (fun r => decide (first ≤ r.lseq))).take n
  words [first, rs.length] ++ (rs.map logBytes).flatten
/-- EVLOG_READ (R397). -/
def evlogRun (s : State) (m : Nat) (pl : Bytes) : State × CmdRes :=
  let n := word pl 1 % 16
  checked s [(pl.length = 8 && 1 ≤ n, 0x2002), (onlyBits 0xF (word pl 1), 0x2003), (hasRights s m 3 rREAD, 0x2005)]
    (s, .fin 0 (evlogPayload s (word pl 0) n))

/-- NOP. -/
def execNop (e : CmdEntry) (s : State) : Host.Outcome State Fault Refusal := finishD s (command s e 0x0100 nopRun)
/-- STATUS_READ. -/
def execStatusRead (e : CmdEntry) (s : State) : Host.Outcome State Fault Refusal := finishD s (command s e 0x0101 statusRun)
/-- EVLOG_READ. -/
def execEvlogRead (e : CmdEntry) (s : State) : Host.Outcome State Fault Refusal := finishD s (command s e 0x0102 evlogRun)

/-! ### Statistics (R392) -/

/-- The blocks of one kind: the largest count of a command, the instances, the block of an instance and its clearing. -/
structure StatKind where
  most : Nat
  inst : Nat
  block : State → Nat → Bytes
  clear : State → Nat → State

/-- The kinds of the network statistics (R392). -/
def netKind (k : Nat) : Option StatKind :=
  if k = 1 then some ⟨21, 64, nodeBlock, fun s n => modNdc s n (fun _ => {})⟩
  else if k = 2 then some ⟨31, 16, branchBlock, fun s b => modBrc s b (fun _ => {})⟩
  else if k = 3 then some ⟨63, 128, codeBlock, codeClear⟩ else none
/-- The kinds of the Loom statistics (R392). -/
def loomKind (k : Nat) : Option StatKind :=
  if k = 1 then some ⟨8, 8, laneBlock, fun s l => modLnc s l (fun _ => {})⟩
  else if k = 2 then some ⟨126, 128, ovrBlock, ovrClear⟩
  else if k = 3 then some ⟨63, 128, modBlock, modClear⟩ else none
/-- The transport blocks, which have one kind (R376). -/
def hostKind (_k : Nat) : Option StatKind := some ⟨12, 12, hostBlock, hostClear⟩

/-- A statistics read or clear on a target (R392). `first` is the first instance, `masks` the fields of W0 and W1. An unlisted
KIND names a number out of its range (log 24). -/
def statsRun (tgt : Nat) (read : Bool) (kind : Nat → Option StatKind) (first cnt mask0 mask1 : Nat) (s : State) (m : Nat) (pl : Bytes) :
    State × CmdRes :=
  let w0 := word pl 0
  let clr := !read || nbit w0 8
  let k := kind (w0 % 16)
  checked s
    [(pl.length = 8 && (match k with | some x => 1 ≤ cnt && cnt ≤ x.most | none => true), 0x2002),
     (onlyBits mask0 w0 && onlyBits mask1 (word pl 1), 0x2003),
     ((match k with | some x => decide (first + cnt ≤ x.inst) | none => false), 0x2004),
     (hasRights s m tgt ((if read then rREAD else rWRITE) ||| (if clr then rWRITE else 0)), 0x2005)]
    (match k with
     | some x =>
       let is := (List.range cnt).map (first + ·)
       (when clr (forEach is x.clear) s, .fin 0 (if read then (is.map (x.block s)).flatten else []))
     | none => (s, .fin 0x2004 []))
/-- NET_STATS_READ and NET_STATS_CLEAR. -/
def netStatsRun (read : Bool) (s : State) (m : Nat) (pl : Bytes) : State × CmdRes :=
  statsRun 2 read netKind (word pl 0 / 65536) (word pl 1 % 256) (if read then 0xFFFF010F else 0xFFFF000F) 0xFF s m pl
/-- LOOM_STATS_READ and LOOM_STATS_CLEAR. -/
def loomStatsRun (read : Bool) (s : State) (m : Nat) (pl : Bytes) : State × CmdRes :=
  statsRun 0 read loomKind (word pl 0 / 65536) (word pl 1 % 256) (if read then 0xFFFF010F else 0xFFFF000F) 0xFF s m pl
/-- HOST_STATS_READ and HOST_STATS_CLEAR. -/
def hostStatsRun (read : Bool) (s : State) (m : Nat) (pl : Bytes) : State × CmdRes :=
  statsRun 0 read hostKind (word pl 0 % 16) (word pl 1 % 16) (if read then 0x10F else 0xF) 0xF s m pl

/-- NET_STATS_READ. -/
def execNetStatsRead (e : CmdEntry) (s : State) : Host.Outcome State Fault Refusal := finishD s (command s e 0x0401 (netStatsRun true))
/-- NET_STATS_CLEAR. -/
def execNetStatsClear (e : CmdEntry) (s : State) : Host.Outcome State Fault Refusal := finishD s (command s e 0x0402 (netStatsRun false))
/-- LOOM_STATS_READ. -/
def execLoomStatsRead (e : CmdEntry) (s : State) : Host.Outcome State Fault Refusal := finishD s (command s e 0x0501 (loomStatsRun true))
/-- LOOM_STATS_CLEAR. -/
def execLoomStatsClear (e : CmdEntry) (s : State) : Host.Outcome State Fault Refusal := finishD s (command s e 0x0502 (loomStatsRun false))
/-- HOST_STATS_READ. -/
def execHostStatsRead (e : CmdEntry) (s : State) : Host.Outcome State Fault Refusal := finishD s (command s e 0x0901 (hostStatsRun true))
/-- HOST_STATS_CLEAR. -/
def execHostStatsClear (e : CmdEntry) (s : State) : Host.Outcome State Fault Refusal := finishD s (command s e 0x0902 (hostStatsRun false))

/-! ### Nodes and branches (R392) -/

/-- The checks of a network command of one word whose number fills the mask. -/
def netChecks (s : State) (m : Nat) (pl : Bytes) (mask : Nat) : List (Bool × Nat) :=
  [(pl.length = 4, 0x2002), (onlyBits mask (word pl 0), 0x2003), (hasRights s m 2 rWRITE, 0x2005)]

/-- Unmute a node: its coded channels start with a key frame (R140). -/
def nodeUnmute (s : State) (n : Nat) : State :=
  ndItem (modNd s n (fun d => reqRekey (ps s) { d with muted := false, muteDue := false, viol := 0 })) n
/-- NODE_READMIT (R140, R392). -/
def nodeReadmitRun (s : State) (m : Nat) (pl : Bytes) : State × CmdRes :=
  let n := word pl 0 % 64
  checked s (netChecks s m pl 0x3F) (when ((ndOf s n).muted || (ndOf s n).muteDue) (fun t => nodeUnmute t n) s, .fin 0 [])
/-- BRANCH_CUT (R92, R392): BRPWR is low at once. -/
def branchCutRun (s : State) (m : Nat) (pl : Bytes) : State × CmdRes :=
  checked s (netChecks s m pl 0xF) (branchCut s (word pl 0 % 16), .fin 0 [])
/-- BRANCH_READMIT (R92, R142, R392): before the end of the 100 ms it waits. A branch that is not cut, or that is disabled,
has no markers to wait for. -/
def branchReadmitRun (s : State) (m : Nat) (pl : Bytes) : State × CmdRes :=
  let b := word pl 0 % 16
  checked s (netChecks s m pl 0xF)
    (if !(brOf s b).cut then (s, .fin 0 [])
     else if s.clk.now < (brOf s b).cutT + 100 * millisecond then
       (modBr s b (fun r => { r with readmit := true }), if brEnabled s b then .wait (.readmit b) else .fin 0 [])
     else (branchReadmit s b, if brEnabled s b then .wait (.readmit b) else .fin 0 []))
/-- AXIS_REKEY (R160, R392): the node of a declared axis. -/
def axisRekeyRun (s : State) (m : Nat) (pl : Bytes) : State × CmdRes :=
  let a := word pl 0 % 128
  checked s (netChecks s m pl 0x7F) (when (axClass s a != 0) (fun t => modNd t (axNode t a) (reqRekey (ps t))) s, .fin 0 [])

/-- NODE_READMIT. -/
def execNodeReadmit (e : CmdEntry) (s : State) : Host.Outcome State Fault Refusal := finishD s (command s e 0x0403 nodeReadmitRun)
/-- BRANCH_CUT. -/
def execBranchCut (e : CmdEntry) (s : State) : Host.Outcome State Fault Refusal := finishD s (command s e 0x0404 branchCutRun)
/-- BRANCH_READMIT. -/
def execBranchReadmit (e : CmdEntry) (s : State) : Host.Outcome State Fault Refusal := finishD s (command s e 0x0405 branchReadmitRun)
/-- AXIS_REKEY. -/
def execAxisRekey (e : CmdEntry) (s : State) : Host.Outcome State Fault Refusal := finishD s (command s e 0x0406 axisRekeyRun)

/-! ### Microstep tables (R236, R393) -/

/-- Every entry of an image of 1,024 bytes lies in 0 to 0x8000 (R235). -/
def tabOk (img : Bytes) : Bool := (List.range 512).all (fun i => decide (rdLe img (2 * i) 2 ≤ 0x8000))
/-- The reshapeable axes of a node allow a table (R236). -/
def tabAxesOk (s : State) (n : Nat) : Bool :=
  (nodeAxes s n).all (fun a => pnat s 0x0404 a = 0 ||
    (match (axOf s a).sm.st with | .disabled => true | .ready => true | .safeOff => true | .fault => (axOf s a).sm.react = 2 | _ => false))
/-- The load that a part other than 0 continues: of the same master, in order, with its next SEQ (R393). -/
def loadFits (s : State) (n m part : Nat) (seq : BitVec 32) : Option MsLoad :=
  (ndOf s n).load.filter (fun l => l.master = m && l.next = part && l.seq + 1 == seq)
/-- No load is in progress any more (R393). -/
def loadDrop (s : State) : State :=
  forEach ((List.range 64).filter (fun n => (ndOf s n).load.isSome)) (fun t n => modNd t n (fun d => { d with load := none })) s
/-- The four parts of a node's image are complete: the image is checked and accepted (R236, R393). A refused image ends the load. An entry
above 0x8000 completes with CMD_RANGE, a state of an axis that does not allow the table with AX_COND (log 24). -/
def loadEnd (s : State) (n : Nat) (img : Bytes) : State × CmdRes :=
  checked (loadDrop s) [(tabOk img, 0x2004), (tabAxesOk s n, 0x6001)]
  (let s1 := sendItem (modNd (loadDrop s) n (fun d => { d with image := img, imgRetry := false })) (.microstep (Fin.ofNat 64 n) img)
  if (ndOf s1 n).integrated then (imageSend s1 n, .wait (.mstab n)) else (s1, .fin 0 (words [1])))
/-- MSTAB_LOAD (R236, R393). A part 0 discards any load in progress; parts 0 to 2 are stored, and part 3 brings the check of the image. -/
def mstabRun (seq : BitVec 32) (s : State) (m : Nat) (pl : Bytes) : State × CmdRes :=
  let w0 := word pl 0
  let n := w0 % 64
  let part := w0 / 256 % 4
  let bs := pl.drop 4
  checked s
    [(pl.length = 260, 0x2002), (onlyBits 0x33F w0, 0x2003), (hasRights s m 2 rWRITE, 0x2005)]
    (if part = 0 then
       (modNd (loadDrop s) n (fun d => { d with load := some { master := m, next := 1, seq := seq, t := s.clk.now, bytes := bs } }), .fin 0 (words [0]))
     else
       match loadFits s n m part seq with
       | none => (s, .fin 0x2008 [])
       | some l =>
         if part = 3 then loadEnd s n (l.bytes ++ bs)
         else (modNd s n (fun d => { d with load := some { l with next := part + 1, seq := seq, bytes := l.bytes ++ bs } }), .fin 0 (words [0])))

/-- MSTAB_LOAD. -/
def execMstabLoad (e : CmdEntry) (s : State) : Host.Outcome State Fault Refusal := finishD s (command s e 0x0407 (mstabRun e.seq))
/-- MSTAB_LOAD_TIMEOUT: the staging timeout ends a load whose four parts are not complete (R393). The parts stored have
completed, so the next part finds its predecessor missing. -/
def execMstabLoadTimeout (n : NodeNo) (s : State) : Host.Outcome State Fault Refusal :=
  finishD s (when ((ndOf s n).load.isSome) (fun t => modNd t n (fun d => { d with load := none })) s)

end Sys2Proof.Machine
end

