-- ==== Sys2Proof/Machine/Operands.lean ====
section
/-! DEFINITION. The operands of the parameter commands: read items, write items and set names (R383, R388), with the checks of
R378 that are common to them (R379, R381, R385, R402, R514). -/
namespace Sys2Proof.Machine

/-- One item of a parameter command: PNUM, INST, the low byte of W0 and, in a write item, VALUE (R383). -/
structure PItem where
  num : Nat
  inst : Nat
  low : Nat
  raw : Nat
deriving DecidableEq, Repr

/-- Read one item of `size` bytes, 4 or 12, from an offset. -/
def pItemAt (pl : Bytes) (size off : Nat) : PItem :=
  let w := rdLe pl off 4
  { num := w / 65536, inst := w / 256 % 256, low := w % 256, raw := if size = 12 then rdLe pl (off + 4) 8 else 0 }
/-- The items of a payload. -/
def pItems (pl : Bytes) (size : Nat) : List PItem := (List.range (word pl 0 % 256)).map (fun k => pItemAt pl size (4 + size * k))
/-- The parameter an item names, none if the number or the instance is not listed (R12, R511, R512). -/
def itemSpec (i : PItem) : Option PSpec := paddr i.num i.inst
/-- A set of one instance per device is named with INST 0 (R519). -/
def nameOk (i : PItem) : Bool :=
  match paddr i.num i.inst with
  | some p => (!([1, 18, 23, 24, 25, 26, 27].contains p.tset)) || i.inst = 0
  | none => false
/-- The tied set instance an item names. -/
def itemKey (i : PItem) : Nat := match pspec i.num with | some p => setKey p i.inst | none => noSet * 256
/-- The access target an item counts for (R385, R513, R514). -/
def itemTarget (read : Bool) (i : PItem) : Nat := itTarget read (i.num * 65536 + i.inst * 256)
/-- The index of the first item that fails a check. -/
def firstBadItem (ok : PItem → Bool) (is : List PItem) : Option Nat := is.findIdx? (fun i => !ok i)

/-- The staged value of a parameter (R387). -/
def stagedVal (s : State) (p : PSpec) (inst : Nat) : Option Int :=
  match tabFind s.par.stages (setKey p inst) with
  | some g => if p.tset = noSet then none else tabFind g.vals (pkey p.num inst)
  | none => none
/-- The owner of the staging area of a set instance. -/
def stageOwner (s : State) (key : Nat) : Option Nat := (tabFind s.par.stages key).map (·.owner)

/-- A write item changes the value of a parameter with access code K (R402). -/
def itemChangesK (s : State) (i : PItem) : Bool :=
  match itemSpec i with
  | some p => p.k && (match pvalue p i.raw with | some v => v != pread s p i.inst | none => false)
  | none => false
/-- The values staged for a set instance change a parameter with access code K (R402). -/
def stageChangesK (s : State) (key : Nat) : Bool :=
  match tabFind s.par.stages key with
  | some g => g.vals.any (fun x => (match pspec (x.1 / 256) with | some p => p.k | none => false) && x.2 != pget s (x.1 / 256) (x.1 % 256))
  | none => false

/-- The kinds of parameter command. -/
inductive PCmd where
  | read | write | commit | discard
deriving DecidableEq, Repr

/-- Bytes of an item of a command. -/
def PCmd.size (c : PCmd) : Nat := if c = .write then 12 else 4
/-- The largest count of a command (R391). -/
def PCmd.most (c : PCmd) : Nat := if c = .read ∨ c = .write then 83 else 16
/-- The rights of a command (R391). -/
def PCmd.rights (c : PCmd) : Nat := match c with | .read => rREAD | .write => rWRITE | .commit => rCOMMIT | .discard => rWRITE
/-- The bits of an item's low byte that may be set: STAGED in a read item only (R383). -/
def PCmd.low (c : PCmd) : Nat := if c = .read then 1 else 0

/-- An item is named as its command requires (R12, R519). -/
def PCmd.itemOk (c : PCmd) (i : PItem) : Bool := if c = .read ∨ c = .write then (itemSpec i).isSome else nameOk i
/-- The rights a command needs on its targets: those of its opcode, and WRITE, COMMIT and OWN for a change of a parameter with
access code K (R381, R402). A value that is only staged counts as changed (log 25). -/
def PCmd.need (c : PCmd) (s : State) (m : Nat) (is : List PItem) : Nat :=
  let own := rWRITE ||| rCOMMIT ||| rOWN
  c.rights ||| (match c with
    | .write => if is.any (itemChangesK s) then own else 0
    | .commit => if is.any (fun i => stageOwner s (itemKey i) = some m && stageChangesK s (itemKey i)) then own else 0
    | _ => 0)
/-- The targets a command needs its rights on: that of its items, and both targets of DRF_NET (R514). -/
def PCmd.targets (c : PCmd) (is : List PItem) : List Nat :=
  let ts := dedup (is.map (itemTarget (c = .read)))
  let both := match c with
    | .read => false
    | .write => is.any (fun i => i.num = 0x0B05)
    | _ => is.any (fun i => itemKey i / 256 = 1)
  if both then dedup (ts ++ [1, 7]) else ts

/-- The length of a parameter command (R378 step 3). -/
def PCmd.lenOk (c : PCmd) (pl : Bytes) : Bool :=
  let n := word pl 0 % 256
  4 ≤ pl.length && 1 ≤ n && n ≤ c.most && pl.length = 4 + c.size * n
/-- The reserved bits of a parameter command (R378 step 4). -/
def PCmd.bitsOk (c : PCmd) (pl : Bytes) : Bool := onlyBits 0xFF (word pl 0) && (pItems pl c.size).all (fun i => onlyBits c.low i.low)
/-- All items of a parameter command address one target (R385). -/
def PCmd.oneTarget (c : PCmd) (pl : Bytes) : Bool := decide ((dedup ((pItems pl c.size).map (itemTarget (c = .read)))).length ≤ 1)
/-- The rights on the targets of a parameter command (R378 step 6). -/
def PCmd.rightsOk (c : PCmd) (s : State) (m : Nat) (pl : Bytes) : Bool :=
  (c.targets (pItems pl c.size)).all (fun t => hasRights s m t (c.need s m (pItems pl c.size)))
/-- The checks of steps 3 to 6 of R378 before the command itself. -/
def parChecked (c : PCmd) (s : State) (m : Nat) (pl : Bytes) (k : List PItem → State × CmdRes) : State × CmdRes :=
  if !c.lenOk pl then (s, .fin 0x2002 [])
  else if !c.bitsOk pl then (s, .fin 0x2003 [])
  else
    match firstBadItem c.itemOk (pItems pl c.size) with
    | some j => (s, .fin 0x2011 (le 4 j))
    | none =>
      if !c.oneTarget pl then (s, .fin 0x2018 [])
      else if !c.rightsOk s m pl then (s, .fin 0x2005 [])
      else k (pItems pl c.size)
/-- A parameter command passes the checks of steps 3 to 6 of R378. -/
def parPasses (c : PCmd) (s : State) (m : Nat) (pl : Bytes) : Bool :=
  c.lenOk pl && c.bitsOk pl && (firstBadItem c.itemOk (pItems pl c.size)).isNone && c.oneTarget pl && c.rightsOk s m pl

end Sys2Proof.Machine
end

