-- ==== Sys2Proof/Machine/Settings.lean ====
section
/-! DEFINITION. The rules that a commit of a tied set, or a write of an untied parameter, must meet (R386, R388 and the chapters of
the sets). `s` is the present state, `u` the same state with every staged value of the commit in force. A status of 0 accepts. -/
namespace Sys2Proof.Machine

/-- The axis is in one of the states. -/
def axIn (s : State) (a : Nat) (sts : List AxSt) : Bool := sts.contains (axOf s a).sm.st
/-- The axis is DISABLED or READY. -/
def axIdle (s : State) (a : Nat) : Bool := axIn s a [.disabled, .ready]
/-- A parameter instance differs between two states. -/
def pdiff (s u : State) (num i : Nat) : Bool := pget s num i != pget u num i
/-- The status of a rule of a chapter that names no code (R388). -/
def okOr (ok : Bool) (st : Nat) : Nat := if ok then 0 else st
/-- PAR_REJECTED. -/
def parRej (ok : Bool) : Nat := okOr ok 0x2016

/-- AX_DECL (R42, R69). -/
def setAxDecl (s u : State) (a : Nat) : Nat :=
  if !declOk u then 0x5005
  else okOr (axClass s a = 0 || axIn s a [.disabled] || !((List.range 14).any (fun k => pdiff s u (0x0100 + k) a))) 0x5003
/-- A biquad has a stable denominator (R191). -/
def bqStable (a1 a2 : Int) : Bool := decide (iabs a2 < 2 ^ 30) && decide (iabs a1 < 2 ^ 30 + a2)
/-- LP_SPD (R191). -/
def setLpSpd (u : State) (a : Nat) : Nat :=
  parRej ((List.range 2).all (fun b => axBiquads u a ≤ b || bqStable (pget u (0x0317 + 5 * b) a) (pget u (0x0318 + 5 * b) a)))
/-- LP_BLK (R187). -/
def setLpBlk (s u : State) (a : Nat) : Nat := parRej (axIdle s a || !pdiff s u 0x032B a)
/-- LP_MOTOR (R187, R192). -/
def setLpMotor (s u : State) (a : Nat) : Nat :=
  parRej (axIdle s a && (axClass u a != 1 || pnat u 0x0332 a != 0 || pnat u 0x0500 a != 0))
/-- LP_STP (R201). -/
def setLpStp (s u : State) (a : Nat) : Nat :=
  parRej (axClass s a != 3 || !(ndOf s (axNode s a)).integrated || axEnc s a != 0 || pnat u 0x0338 a = 0x10000)
/-- LP_LIM (R485): in a pair LP_FBLOST_N is at least 3. -/
def setLpLim (s u : State) (a : Nat) : Nat := parRej (!s.pair.en || 3 ≤ pnat u 0x0344 a)
/-- The kindling times fit a quarter of the pick period (R236). -/
def deadOk (u : State) (a n : Nat) : Bool := decide (8 * (pnat u 0x0401 a + pnat u 0x0402 a) ≤ tPwm u n)
/-- MOD_NODE (R216). -/
def setModNode (s u : State) (n : Nat) : Nat :=
  let v := pnat u 0x0400 n
  parRej
    ((!(ndOf s n).integrated || v = 0 || nbit (nflags s n) (v - 1)) && (nodeAxes s n).all (axIdle s) &&
      !(v = 1 && 2 ≤ s.clk.plen) && (nodeAxes s n).all (fun a => deadOk u a n))
/-- MOD_AX (R236, R240). -/
def setModAx (s u : State) (a : Nat) : Nat :=
  let n := axNode s a
  parRej
    (deadOk u a n && (axIdle s a || !(pdiff s u 0x0401 a || pdiff s u 0x0404 a)) &&
      (pnat u 0x0404 a = 0 || axClass s a = 0 || !(ndOf s n).integrated || nbit (nflags s n) 2))
/-- FB_CFG (R254, R268). -/
def setFbCfg (s u : State) (a : Nat) : Nat :=
  let hall := axClass s a != 0 && (ndOf s (axNode s a)).integrated && axEnc s a = 2
  parRej
    ((axIdle s a || !([0x0500, 0x0501, 0x0502, 0x050D, 0x050E].any (fun k => pdiff s u k a))) &&
      decide (pget u 0x0504 a < pget u 0x0503 a) && (pnat u 0x050A a = 0 || decide (pget u 0x050A a < pget u 0x050B a)) &&
      (!hall || (pnat u 0x0501 a = 6 * pnat u 0x0330 a && pnat u 0x0502 a = 0)))
/-- PRF_SHAPE (R274). -/
def setPrfShape (u : State) (a : Nat) : Nat :=
  let p := fun k => pget u (0x0600 + k) a
  parRej (!(p 3 = 0 && p 4 = 0) && !(p 5 = 0 && p 6 = 0) && decide (p 0 ≤ p 7) && decide (p 1 ≤ p 7))

/-- A unit is IDLE or DONE (R330). -/
def unRest (s : State) (u : Nat) : Bool := (unOf s u).st = 0 || (unOf s u).st = 4
/-- The pool regions in force without the buffer of one unit, in MiB (R57, R58). -/
def poolUsed (s : State) (unit : Nat) : List (Nat × Nat) :=
  (s.warp.place.axes.filter (fun x => !x.unplaced)).map (fun x => (x.poolBase, x.poolSize)) ++
    (s.warp.place.acq.filter (fun x => x.1 != unit)).map (fun x => (x.2.1, x.2.2))
/-- The region of a unit's buffer of `n` MiB: first-fit among the free granules (R350). -/
def unRegion (s : State) (unit n : Nat) : Option Nat := if n = 0 then some 0 else firstFit (poolUsed s unit) n
/-- The buffer is large enough for the mode (R350). -/
def unBufOk (u : State) (i : Nat) : Bool :=
  let bytes := pnat u 0x070B i * 2 ^ 20
  let m := unMode u i
  decide ((if m = 0 then bCap u i else if m = 1 then 2 * bCap u i else 2 ^ 20) ≤ bytes)
/-- ACQ_UNIT (R327, R332, R350, R354). -/
def setAcqUnit (s u : State) (i : Nat) : Nat :=
  let src := pnat u 0x0705 i
  if !(unRest s i && decide (pnat u 0x0702 i ≤ 2 ^ pnat u 0x0701 i) && (src != 1 || pnat u 0x0707 i != 0) &&
      (src != 2 || pnat u 0x0706 i / 4 = 0) && (src != 4 || pnat u 0x0706 i / 2 ^ 30 % 4 ≤ 2) && selOk (pnat u 0x0707 i)) then 0x2016
  else okOr ((unRegion s i (pnat u 0x070B i)).isSome && unBufOk u i) 0xA002
/-- ACQ_CHAN (R327, R354). -/
def setAcqChan (s u : State) : Nat :=
  let changed := (List.range 96).filter (fun c => pdiff s u 0x0720 c || pdiff s u 0x0721 c || pdiff s u 0x0722 c)
  parRej
    (changed.all (fun c => [pnat s 0x0721 c, pnat u 0x0721 c].all (fun i => 8 ≤ i || unRest s i)) &&
      (List.range 96).all (fun c => selOk (pnat u 0x0720 c)))

/-- Cycles of f_can in a bit of the nominal phase (R424). -/
def canNom (v : Nat) : Nat := (nbits v 0 8 + 1) * (3 + nbits v 8 8 + nbits v 16 7)
/-- Cycles of f_can in a bit of the data phase (R424). -/
def canDat (v : Nat) : Nat := (nbits v 0 5 + 1) * (3 + nbits v 5 5 + nbits v 10 4)
/-- The timing rules of R425, with f_can = 80 MHz. -/
def canTiming (n d : Nat) : Bool :=
  decide (80 ≤ canNom n) && (!nbit n 31 || decide (160 ≤ canNom n)) && decide (16 ≤ canDat d) && decide (canDat d ≤ canNom n) &&
    decide (nbits n 23 7 ≤ nbits n 16 7) && decide (nbits d 14 4 ≤ nbits d 10 4) && (nbit d 31 || decide (80 ≤ canDat d))
/-- A safe network names a code of R453. -/
def safNamed (u : State) (code : Nat) : Bool := pnat u 0x0900 0 = code || pnat u 0x0901 0 = code
/-- CAN_CFG (R425, R461). A commit sets CAN_MODE 0x0 if it changes the mode to it (log 26). -/
def setCanCfg (s u : State) (c : Nat) : Nat :=
  parRej (canTiming (pnat u 0x0801 c) (pnat u 0x0802 c) && !(pdiff s u 0x0800 c && pnat u 0x0800 c = 0 && safNamed u c))
/-- The network of a code is off (R464). -/
def safNetOff (u : State) (code : Nat) : Bool := if code < 4 then pnat u 0x0800 code = 0 else pnat u 0x0A00 (code - 4) = 0
/-- The safety set differs from the one in force. -/
def safDiffers (s u : State) : Bool := safMembers.any (fun p => pdiff s u p.1 p.2)
/-- The rules of a safety set on its own (R453, R463, R464). -/
def safSetOk (u : State) : Bool :=
  let a := pnat u 0x0900 0
  let b := pnat u 0x0901 0
  a != b && (a < 3 || b < 3) && !safNetOff u a && !safNetOff u b && pnat u 0x0905 0 != 0 && decide (pnat u 0x0907 0 ≤ pnat u 0x0906 0) &&
    pnat u 0x0904 0 != pnat u 0x0A04 0
/-- SAF_SET (R413, R462, R464). In a pair the partner's free slots are a free value (log 2). A set equal to the one in force
changes nothing and consumes nothing (R413). -/
def setSafSet (s u : State) : Nat :=
  if !safDiffers s u then 0
  else if (List.range 4).any (fun g => (sogOf s.dmp g).st = 0) then 0xD002
  else if !safSetOk u then 0x2016
  else if s.pair.en && !inSync s then 0xE001
  else okOr (decide (s.acc.safUsed < 32) && (!s.pair.en || Config.freeBool s.freeCtr)) 0x2017
/-- SAF_MAP (R461). -/
def setSafMap (s u : State) : Nat :=
  okOr ((List.range 64).all (fun n => !pdiff s u 0x0920 n || (nodeAxes s n).all (fun a => axIn s a [.disabled, .ready, .safeOff]))) 0xD002
/-- HST_NET (R461), with the reading of `setCanCfg`. -/
def setHstNet (s u : State) : Nat :=
  parRej ((List.range 2).all (fun i => !(pdiff s u 0x0A00 i && pnat u 0x0A00 i = 0 && safNamed u (4 + i))))
/-- HST_MB (R363): the credits of the enabled masters. -/
def setHstMb (s u : State) : Nat :=
  let en := masterEnFix s (pnat u 0x0A08 0)
  parRej (decide (nsum (((List.range 12).filter (nbit en)).map (fun m => pnat u 0x0A09 m)) ≤ 256))
/-- PAIR_CFG (R471). -/
def setPairCfg (s u : State) : Nat := parRej (pnat u 0x0B00 0 = 0 || s.acc.role != 0)

/-- The status of a tied set instance under the rules of its chapter (R388). -/
def setStatus (s u : State) (key : Nat) : Nat :=
  let c := key / 256
  let i := key % 256
  if c = 0 then setAxDecl s u i
  else if c = 1 then okOr (netOk u) 0x5005
  else if c = 3 then setLpSpd u i
  else if c = 5 then setLpBlk s u i
  else if c = 6 then setLpMotor s u i
  else if c = 7 then setLpStp s u i
  else if c = 8 then setLpLim s u i
  else if c = 9 then setModNode s u i
  else if c = 10 then setModAx s u i
  else if c = 11 then setFbCfg s u i
  else if c = 12 then parRej (decide (pnat u 0x0521 i ≤ pnat u 0x0522 i))
  else if c = 13 then parRej (!axIn s i [.moving, .hold])
  else if c = 14 then setPrfShape u i
  else if c = 17 then setAcqUnit s u i
  else if c = 18 then setAcqChan s u
  else if c = 19 then parRej (axIdle s i)
  else if c = 20 then setCanCfg s u i
  else if c = 21 then parRej (decide (pnat u 0x080A i ≤ pnat u 0x080B i))
  else if c = 23 then setSafSet s u
  else if c = 24 then setSafMap s u
  else if c = 25 then setHstNet s u
  else if c = 26 then setHstMb s u
  else if c = 27 then setPairCfg s u
  else 0

/-! ### Untied parameters (R386) -/

/-- Every axis is DISABLED (R24). -/
def allDisabled (s : State) : Bool := (List.range 128).all (fun a => axIn s a [.disabled])
/-- The Warper has no place for a further trigger: four wait (R68). -/
def placeFull (s : State) : Bool := decide (4 ≤ s.warp.queue.length)
/-- Master 10 is the only owner of some target (R413). -/
def debugLastOwner (s : State) : Bool := (List.range 32).any (fun t => owners s t = [10])
/-- The status of a write of an untied parameter (R24, R413, R517). -/
def untiedStatus (s : State) (p : PSpec) (v : Int) : Nat :=
  if p.num = 0x0010 then
    (if v = pget s 0x0010 0 then 0 else if !allDisabled s then 0x2016 else okOr (!placeFull s) 0x5004)
  else if p.num = 0x0014 then
    (if s.acc.dbgOff then parRej (v = 1) else if v = 0 then 0 else okOr (!debugLastOwner s) 0xB001)
  else if p.num = 0x0B01 then (if v = s.acc.role then 0 else parRej (s.acc.role = 0 && pnat s 0x0B00 0 = 0))
  else if p.num = 0x0A21 then parRej (pnat s 0x0A00 v.toNat != 0)
  else 0

/-- The status of one write item (R384, R386, R387). -/
def writeStatus (s : State) (m : Nat) (i : PItem) : Nat :=
  match itemSpec i with
  | none => 0x2011
  | some p =>
    if p.ro then 0x2012
    else
      match pvalue p i.raw with
      | none => 0x2013
      | some v =>
        if p.tset = noSet then untiedStatus s p v
        else match stageOwner s (setKey p i.inst) with | some o => okOr (o = m) 0x2014 | none => 0

/-- The status of item `j` of a write: its own, or PAR_REJECTED where an earlier item gives the chip another role, which is fused once
(R413). -/
def writeStatusAt (s : State) (m : Nat) (is : List PItem) (j : Nat) : Nat :=
  match is[j]? with
  | none => 0
  | some i =>
    let st := writeStatus s m i
    if st ≠ 0 then st else parRej (!(i.num = 0x0B01 && (is.take j).any (fun k => k.num = 0x0B01 && k.raw != i.raw)))
/-- The first item of a write that fails, and its status (R386). -/
def writeFails (s : State) (m : Nat) (is : List PItem) : Option (Nat × Nat) :=
  (List.range is.length).findSome? (fun j => let st := writeStatusAt s m is j; if st = 0 then none else some (j, st))

end Sys2Proof.Machine
end

