-- ==== Sys2Proof/Machine/Changes.lean ====
section
/-! DEFINITION. How validated values take effect (R386, R388, R518): what each tied set does at its application, the configuration area
(R505) and the host-time mapping (R39, R517). -/
namespace Sys2Proof.Machine

/-! ### Host-time mapping -/

/-- The mapping becomes invalid: ρ at 0x80000000, H0 at zero, PTP_LOST once (R39). -/
def ptpInvalid (s : State) : State :=
  let t : State := { s with ptp := { s.ptp with rho := -2147483648, h0s := 0, h0ns := 0, lastT := none, sample := none, sync := none, last := none, delayNs := 0, lost := true } }
  when (!s.ptp.lost) (fun u => raise u 0xF102 noInst []) t
/-- What a change of the PTP parameters does to the mapping (R39, R517). A change of port or
domain while it is set raises PTP_LOST each time; from the time HST_PTP_EN is set, PTP_LOST may be raised once again. -/
def ptpEffect (s t : State) : State :=
  let moved := pdiff s t 0x0A21 0 || pdiff s t 0x0A22 0
  if pnat t 0x0A20 0 = 0 then ptpInvalid t
  else if pnat s 0x0A20 0 = 1 ∧ moved = true then ptpInvalid { t with ptp.lost := false }
  else if pnat s 0x0A20 0 = 0 then { t with ptp.lost := false } else t

/-! ### Configuration area (R505) -/

/-- The copy a start would take: the valid one with the higher sequence number. -/
def cfgB? (b : Boot) : Bool := b.cfgB.written && (!b.cfgA.written || decide (b.cfgA.seq < b.cfgB.seq))
/-- The values of a table that belong to kept sets. -/
def keptVals (t : Tab Int) : Tab Int := t.filter (fun x => match pspec (x.1 / 256) with | some p => setKept p.tset | none => false)
/-- Write the other copy with a raised sequence number. -/
def cfgStore (s : State) (vals : Tab Int) : State :=
  let cur := if cfgB? s.boot then s.boot.cfgB else s.boot.cfgA
  let new : CfgCopy := { seq := cur.seq + 1, written := true, pars := tabMerge cur.pars (keptVals vals) }
  if cfgB? s.boot then { s with boot.cfgA := new } else { s with boot.cfgB := new }

/-! ### Acquisition buffers (R350) -/

/-- The buffers with one unit's buffer of `n` MiB at `b`. -/
def acqPut (s : State) (u b n : Nat) : State :=
  { s with warp.place := { s.warp.place with
      acq := sortBy (fun x y => decide (x.1 < y.1)) ((s.warp.place.acq.filter (fun x => x.1 != u)) ++ [(u, b, n)]) } }
/-- Free a unit's granules and allocate its size in force first-fit. -/
def acqPlace (s : State) (u : Nat) : State :=
  match unRegion s u (pnat s 0x070B u) with
  | some b => acqPut s u b (pnat s 0x070B u)
  | none => s
/-- The buffers of the units among some sets can be allocated now, in granules that are initialised (R58, R506), while no run
works on the pool (log 27). `t` has the values in force. -/
def acqReady (t : State) (sets : List Nat) : Bool :=
  let us := (sets.filter (fun k => k / 256 = 17)).map (· % 256)
  us = [] ||
    (t.warp.running.isNone && t.warp.result.isNone &&
      us.all (fun u => (unRegion (forEach (us.takeWhile (· != u)) acqPlace t) u (pnat t 0x070B u)).elim false
        (fun b => decide (b + pnat t 0x070B u ≤ t.boot.granule))))

/-! ### Effects of the sets -/

/-- Close every session on a MAC (R375). -/
def macClose (s : State) (mac : Nat) : State :=
  { s with eth.sess := s.eth.sess.map (fun p =>
      (p.1, { cur := p.2.cur.filter (fun x => x.mac != mac), opening := p.2.opening.filter (fun x => x.mac != mac) })) }
/-- Empty the ring of a history (R351). -/
def histEmpty (s : State) (a : Nat) : State :=
  let t := modHi s a (fun h => { h with opens := [], blocks := [] })
  { t with kiln.staged := t.kiln.staged.filter (fun x => !(x.1 = 8 && x.2.hist && x.2.src = a)) }
/-- ACQ_UNIT at its application (R341, R350). -/
def acqUnitEffect (t : State) (u : Nat) : State :=
  let t1 := modUn (unStop t u) u (fun x => { x with caps := [], blocks := [], opens := [] })
  acqPlace { t1 with kiln.staged := t1.kiln.staged.filter (fun x => x.1 != u) } u
/-- What a tied set does at its application beyond its values being in force (R518). `s` is the state before. -/
def setEffect (s t : State) (key : Nat) : State :=
  let c := key / 256
  let i := key % 256
  let n := axNode t i
  if c = 9 then when (!isStandby t && pdiff s t 0x0400 i && (ndOf t i).integrated) (fun u => parSend u i (parXfers u i)) t
  else if c = 10 then
    when (!isStandby t && axClass t i != 0 && (ndOf t n).integrated && [0x0401, 0x0402, 0x0403, 0x0404].any (fun k => pdiff s t k i))
      (fun u => parSend u n (parXfers u n)) t
  else if c = 12 then modEc t i (fun e => { e with acc := 0, bl := 0, o := 0, left := 0, moved := false, pos := (axOf t (pnat t 0x0520 i)).fb.pos })
  else if c = 13 then modAx t i (fun x => { x with inp := { x.inp with limP := debRestart x.inp.limP, limN := debRestart x.inp.limN, home := debRestart x.inp.home } })
  else if c = 17 then acqUnitEffect t i
  else if c = 19 then histEmpty t i
  else if c = 20 then canStop t i
  else if c = 21 then claimStart (tpDropAll t i) i
  else if c = 22 then modCan t i (fun ch => { ch with rep := [] })
  else if c = 23 then when (safDiffers s t) (fun u => netRenew s (safSetFind u)) t
  else if c = 25 then
    forEach ((List.range 2).filter (fun m => [0x0A00, 0x0A01, 0x0A02, 0x0A03].any (fun k => pdiff s t k m) || pdiff s t 0x0A04 0)) macClose t
  else if c = 26 then forEach (List.range 3) (fun u ch => when (pdiff s t 0x0A0B ch) (fun v => gwPump v ch 4) u) t
  else t

/-- The tied set instances to which the values of a table belong, in the order of R518. -/
def valSets (vals : Tab Int) : List Nat :=
  sortAsc (dedup (vals.filterMap (fun x =>
    match pspec (x.1 / 256) with | some p => if p.tset = noSet then none else some (setKey p (x.1 % 256)) | none => none)))

/-- A value that the node of an axis does not hold yet, or of which a write still waits for it (R240). -/
def stepMoved (s : State) (x : Nat × Int) : Bool := pget s (x.1 / 256) (x.1 % 256) != x.2 || (tabFind s.par.stepMod x.1).isSome
/-- MOD_AX values of a stepper axis on an integrated node, among which one that the node holds changes: they take effect together when the
node acknowledges their write (R233, R240, R518). -/
def stepHeld (s : State) (vals : Tab Int) (x : Nat × Int) : Bool :=
  let a := x.1 % 256
  let own := fun (y : Nat × Int) => y.1 % 256 = a && decide (0x0401 ≤ y.1 / 256) && decide (y.1 / 256 ≤ 0x0404)
  !isStandby s && axClass s a = 3 && (ndOf s (axNode s a)).integrated && decide (0x0401 ≤ x.1 / 256) && decide (x.1 / 256 ≤ 0x0405) &&
    vals.any (fun y => own y && stepMoved s y)
/-- The MOD_AX values of stepper axes among some values begin to wait, and are written to the nodes that are integrated (R233, R240). -/
def stepModWait (s : State) (vals : Tab Int) : State :=
  let held := vals.filter (stepHeld s vals)
  let moved := held.filter (stepMoved s)
  let s1 : State := { s with par.stepMod := tabMerge (s.par.stepMod.filter (fun x => !held.any (fun y => y.1 = x.1))) moved }
  forEach (dedup (moved.map (fun x => axNode s (x.1 % 256)))) (fun t n => when ((ndOf t n).integrated) (fun u => parSend u n (parXfers u n)) t) s1
/-- Values take effect together (R386, R388). HST_MASTER_EN keeps its fixed bits (R375). -/
def applyVals (s0 : State) (vals0 : Tab Int) : State :=
  let s := when (vals0.any (stepHeld s0 vals0)) (fun t => stepModWait t vals0) s0
  let vals := vals0.filter (fun x => !stepHeld s0 vals0 x)
  let t : State := { s with par.force := tabMerge s.par.force vals }
  let t1 := forEach (valSets vals) (setEffect s) t
  when (vals.any (fun x => 0x0A20 ≤ x.1 / 256 && x.1 / 256 ≤ 0x0A22)) (ptpEffect s) t1

/-! ### Values that wait for their boundary (R388, R478) -/

/-- Validated values may be applied now: their item is acknowledged or no longer waited for, and their buffers are free. -/
def pendReady (s : State) (p : Pend) : Bool :=
  itemDone s p.item && acqReady { s with par.force := tabMerge s.par.force p.vals } p.sets
/-- Apply validated values: the staging areas become empty, and the command completes once nothing of it waits, be it for the
acknowledgement of a node (R240). -/
def applyPend (s : State) (p : Pend) : State :=
  let wait := p.vals.any (stepHeld s p.vals)
  let rest := s.par.pends.filter (fun q => !(q.id = p.id && q.at' = p.at'))
  let s1 : State := { s with par := { s.par with pends := if wait then rest ++ [{ p with at' := .ack }] else rest,
                                                  stages := if wait then s.par.stages else p.sets.foldl (fun t k => tabErase t k) s.par.stages } }
  let s2 := applyVals s1 p.vals
  when (!s2.par.pends.any (fun q => q.id = p.id)) (fun t => completeWaits t (fun w => w = .applied p.id) 0 []) s2
/-- Apply the values that wait for a boundary of a kind, in the order in which they were validated. -/
def applyBound (s : State) (b : Bound) : State :=
  forEach (s.par.pends.filter (fun p => p.at' = b)) (fun t p => when (pendReady t p) (fun u => applyPend u p) t) s

/-- Validated values begin to wait; their number names the command. In a pair they are sent to the partner, and with the
partner in SYNC they wait for its acknowledgement (R478). -/
def pendAdd (s : State) (id : Nat) (b : Bound) (sets : List Nat) (vals : Tab Int) (item : ItemBody) : State :=
  let r := sendWait s item (decide (b = .bolt))
  { r.1 with par.pends := r.1.par.pends ++ [{ id := id, at' := b, sets := sets, vals := vals, item := r.2 }] }

end Sys2Proof.Machine
end

