-- ==== Sys2Proof/Machine/Placing.lean ====
section
/-! DEFINITION. Placement runs (R66 to R72): their triggers, their end, what their result does at its bolt boundary, and the
placement commands (R391). -/
namespace Sys2Proof.Machine

/-! ### Starting a run (R68) -/

/-- The Warper is busy (R68). -/
def warpBusy (s : State) : Bool := s.warp.running.isSome || s.warp.result.isSome
/-- The pick length code a run of a change of DEV_PICK_LEN brings (R24). -/
def runPlen (r : Run) : Nat := ((tabFind r.vals (pkey 0x0010 0)).getD 1).toNat
/-- Begin the change of pick length (R24): the markers stop at one bolt boundary, on both controllers of a pair. -/
def plenBegin (s : State) (code : Nat) : State :=
  let q := sendWait s (.params [(pkey 0x0010 0, code)]) true
  { q.1 with clk := { q.1.clk with plenStop := 1, plenNew := code, plenItem := q.2, plenAt := if q.2.isSome then peName s true else nextBolt s } }
/-- Start a run: it takes the pending nodes, and is a full run where no placement has taken effect (R68, R71). -/
def runStart (s : State) (r : Run) : State :=
  let s1 : State :=
    { s with warp := { s.warp with running := some { r with nodes := s.warp.pendNodes, full := r.full || !s.warp.placed }, pendNodes := [] } }
  when (r.trig = 4) (fun t => plenBegin t (runPlen r)) s1
/-- Ask for a run (R68): it starts, is queued, or is refused; the answer is its number. -/
def runRequest (s : State) (trig : Nat) (full : Bool) (vals : Tab Int) (sets : List Nat) : State × Option Nat :=
  let r : Run := { id := s.warp.nextId, trig := trig, full := full, vals := vals, sets := sets, nodes := [] }
  let s1 : State := { s with warp.nextId := s.warp.nextId + 1 }
  if warpBusy s = false ∧ s.warp.queue = [] then (runStart s1 r, some r.id)
  else if s.warp.queue.length < 4 then ({ s1 with warp.queue := s1.warp.queue ++ [r] }, some r.id)
  else (s, none)

/-- Start what waits: the oldest queued trigger, or a run for pending nodes alone (R68). -/
def runNext (s : State) : State :=
  if warpBusy s || isStandby s then s
  else
    match s.warp.queue with
    | r :: rs => runStart { s with warp.queue := rs } r
    | [] =>
      if s.warp.pendNodes = [] then s
      else runStart { s with warp.nextId := s.warp.nextId + 1 } { id := s.warp.nextId, trig := 2, full := false, vals := [], sets := [], nodes := [] }
/-- PLACEMENT_RUN_START. -/
def execPlacementRunStart (s : State) : Host.Outcome State Fault Refusal := finishV s (runNext s)

/-! ### The end of a run -/

/-- The state a run works on: the values it applies in force, and in a full run no node lost (R71). -/
def runView (s : State) (r : Run) : State :=
  let t : State := { s with par.force := tabMerge s.par.force r.vals }
  if r.full then { t with nodes := t.nodes.map (fun p => (p.1, { p.2 with lost := false, blocked := false })) } else t
/-- The pool granules of a placement are initialised (R58, R506). -/
def poolReady (s : State) (p : Place) : Bool :=
  (p.axes.all (fun x => x.unplaced || decide (x.poolBase + x.poolSize ≤ s.boot.granule))) &&
    p.acq.all (fun x => decide (x.2.1 + x.2.2 ≤ s.boot.granule))
/-- The payload of a failed run's command: the index of the set that started it (R388). -/
def runPayload (r : Run) : Bytes :=
  match r.sets.findIdx? (fun k => decide (k / 256 ≤ 1)) with | some j => le 4 j | none => []
/-- Complete the command that waits for a run. -/
def runAnswer (s : State) (r : Run) (st : Nat) : State :=
  let pl := if st = 0 then [] else runPayload r
  let s1 := completeWaits s (fun w => w = .run r.id) st pl
  when (r.trig = 4) (fun t => completeWaits t (fun w => w = .pickLen) st (if st = 0 then [] else le 4 0)) s1
/-- A run fails: nothing changes but the report; a new pick length stays in force on the network (R24, R72; log 28). -/
def runFail (s : State) (r : Run) (x : WRes) (outcome : Nat) : State :=
  let rep := reportOf (if r.trig = 4 then runView s r else s) (runView s r) r x s.warp.epoch.toNat
  let s1 : State := { s with warp := { s.warp with running := none, report := rep } }
  let s2 := if r.trig = 4 then { applyVals s1 r.vals with net.fromPlen := false } else s1
  runAnswer s2 r outcome
/-- The partner learns the effect item of the command that waits for a run (R478, R479). -/
def runTold (s : State) (r : Run) (n : BitVec 32) : State :=
  forEach (List.range 12) (fun t m =>
    forEach ((mbOf t m).flights.filter (fun f => f.wait = some (.run r.id) || (decide (r.trig = 4) && decide (f.wait = some .pickLen))))
      (fun u f => sendItem u (.acceptance f.entry f.opcode (some [n]))) t) s
/-- A run succeeds: its result and its report wait for the next bolt boundary, and the assignments are sent (R46, R68, R128). -/
def runDone (s : State) (r : Run) (x : Place × List ResRec) : State :=
  let e := s.warp.epoch + 1
  let rep := reportOf (runView s r) (runView s r) r (.ok x) e.toNat
  let s0 : State := { s with warp := { s.warp with running := none, result := some (r, x.1, rep) } }
  let q := sendWait s0 (.placement e x.1 r.vals) true
  let s1 := runTold { q.1 with warp.resItem := q.2 } r q.1.pair.iseqSent
  when q.2.isNone (fun t => asgAll t x.1) s1
/-- The run in progress completes. A run that needs pool memory not yet initialised, or that follows a change of pick length
not yet made, goes on. -/
def runComplete (s : State) : State :=
  match s.warp.running with
  | none => s
  | some r =>
    if r.trig = 4 ∧ (s.net.phase != .running || s.clk.plenStop != 0) = true then s
    else
      let x := if r.full then fullRun (runView s r) else incrRun s (runView s r) r
      match x with
      | .error e => runFail s r x e.1.outcome
      | .ok p => if poolReady s p.1 then runDone s r p else s
/-- PLACEMENT_RUN_COMPLETE. -/
def execPlacementRunComplete (s : State) : Host.Outcome State Fault Refusal := finishV s (runComplete s)

/-! ### The result at its bolt boundary (R46, R71, R91) -/

/-- A branch that DRF_NET disables (R91): no markers, BRPWR low, its nodes never joined. Microstep images stay held, and a mute stays (R140).
A cut ends with it (DESIGN CHOICE, log 115), and transfers that wait or are in progress are dropped without a count or an event (DESIGN
CHOICE, log 116). -/
def branchOff (s : State) (b : Nat) : State :=
  let s1 := modBr s b (fun r =>
    { r with brpwr := false, markers := false, markFrom := none, resume := false, cut := false, readmit := false, xfer := none, retry := none, xfers := [],
             rxBuf := [], held := [], eowNow := false, eowNodes := [], eowPast := [], rejoin := [], joinAck := [],
             rejoinSent := [], runOn := none })
  { s1 with nodes := s1.nodes.map (fun p => if p.1 / 4 = b then (p.1, { image := p.2.image, muted := p.2.muted }) else p), net.toPower := s1.net.toPower.filter (· != b) }
/-- Branches that the values of a run enable and disable (R91). Those enabled while a power-up sequence runs take their place in it. -/
def branchesSet (s t : State) : State :=
  let off := (List.range 16).filter (fun b => brEnabled s b && !brEnabled t b)
  let on := (List.range 16).filter (fun b => !brEnabled s b && brEnabled t b)
  let t1 := forEach off branchOff t
  let t2 := when (off != []) brItem t1
  if on = [] then t2
  else if t2.net.toPower = [] then powerBegin t2 on
  else { t2 with net.toPower := sortAsc (dedup (t2.net.toPower ++ on)) }
/-- The axes that were placed and are placed no more, or whose declaration is deleted, become unplaced (R205). -/
def placeDrops (s t : State) : State :=
  forEach ((List.range 128).filter (fun a => placed s a && !placed t a)) axUnplace t
/-- The declarations that the values of a run delete or change: the axes, which are DISABLED, lose DIS_CMD and FCODE (R69, R205). -/
def declDrops (s t : State) : State :=
  forEach ((List.range 128).filter (fun a => axClass s a != 0 && (List.range 14).any (fun k => pdiff s t (0x0100 + k) a))) (fun u a => axUnplace (stepModDone u a) a) t
/-- The lane or a phase of an axis changed, and the assignment of its node stays: a rekey of the node (R71). -/
def laneRekeys (s t : State) : State :=
  forEach ((List.range 128).filter (fun a => placed s a && placed t a && affected s.warp.place t.warp.place a))
    (fun u a => when (match npOf u (axNode u a) with | some p => asgSame u p | none => false)
      (fun v => modNd v (axNode v a) (reqRekey (ps v))) u) t
/-- Units whose buffer a full run moved (R341), and histories whose pool region moved, lose what they hold. -/
def poolMoves (s t : State) : State :=
  let us := (List.range 8).filter (fun u => s.warp.place.acq.find? (fun p => p.1 = u) != t.warp.place.acq.find? (fun p => p.1 = u))
  let t1 := forEach us (fun v u =>
    let v1 := modUn (unStop v u) u (fun x => { x with caps := [], blocks := [], opens := [] })
    { v1 with kiln.staged := v1.kiln.staged.filter (fun y => y.1 != u) }) t
  forEach ((List.range 128).filter (fun a => placed s a && (plOf s a).map (fun x => (x.poolBase, x.poolSize)) != (plOf t a).map (fun x => (x.poolBase, x.poolSize))))
    histEmpty t1
/-- A placement takes effect: the banks are exchanged and the epoch is raised by 1 (R46, R132). -/
def placePut (s : State) (full : Bool) (pl : Place) : State :=
  let s1 : State := { s with warp := { s.warp with epoch := s.warp.epoch + 1, bankB := !s.warp.bankB, place := pl, placed := true } }
  let found := (List.range 64).filter (fun n => full && ((ndOf s n).lost || (ndOf s n).blocked))
  let s2 := forEach found (fun t n => ndItem (modNd t n (fun d => { d with lost := false, blocked := false })) n) s1
  poolMoves s (placeDrops s s2)
/-- The waiting result takes effect at its bolt boundary, once the partner has it (R68, R478). -/
def placeApply (s : State) : State :=
  match s.warp.result with
  | none => s
  | some (r, pl, rep) =>
    if itemDone s s.warp.resItem then
      let s1 : State := { s with warp := { s.warp with result := none, resItem := none, report := rep },
                                 par.stages := r.sets.foldl (fun t k => tabErase t k) s.par.stages,
                                 net.fromPlen := if r.trig = 4 then false else s.net.fromPlen }
      let s2 := placePut (declDrops s (applyVals s1 r.vals)) r.full pl
      runAnswer (asgAll (laneRekeys s (branchesSet s s2)) pl) r 0
    else s

/-! ### Commands (R391) -/

/-- PLACE_FULL. -/
def placeFullRun (s : State) (m : Nat) (pl : Bytes) : State × CmdRes :=
  checked s [(pl.length = 0, 0x2002), (hasRights s m 1 rCOMMIT, 0x2005)]
    (let r := runRequest s 3 true [] []
     match r.2 with
     | some id => (r.1, .wait (.run id))
     | none => (s, .fin 0x5004 []))
/-- The payload of PLACE_REPORT: the header, the resource records and up to `n` axis records (R73 to R75). Axis records that do
not fit in a completion are not returned (log 24). -/
def placeReportPayload (s : State) (first n : Nat) : Bytes :=
  let r := s.warp.report
  let head := reportBytes { r with axes := [] }
  let axs := ((r.axes.drop first).take (min n ((1008 - head.length) / 16)))
  (reportBytes r).take 32 ++ (r.recs.map resRecBytes).flatten ++ (axs.map axisRecBytes).flatten
/-- PLACE_REPORT. -/
def placeReportRun (s : State) (m : Nat) (pl : Bytes) : State × CmdRes :=
  let w0 := word pl 0
  let n := w0 / 65536 % 256
  checked s [(pl.length = 4 && decide (n ≤ 57), 0x2002), (onlyBits 0xFFFFFF w0, 0x2003), (hasRights s m 1 rREAD, 0x2005)]
    (s, .fin 0 (placeReportPayload s (w0 % 65536) n))
/-- The payload of DRAFT_READ (R132, R133): an entry that is not used reads as 0. -/
def draftPayload (s : State) (first n : Nat) : Bytes :=
  let d := s.warp.place.draft
  let es := (List.range n).map (fun k => match d[first + k]? with | some x => dentWord x | none => 0)
  words [s.warp.epoch.toNat, d.length] ++ (es.map (le 8)).flatten
/-- DRAFT_READ. -/
def draftReadRun (s : State) (m : Nat) (pl : Bytes) : State × CmdRes :=
  let w0 := word pl 0
  let first := w0 % 65536
  let n := w0 / 65536
  checked s [(pl.length = 4 && decide (1 ≤ n) && decide (n ≤ 125), 0x2002), (hasRights s m 1 rREAD, 0x2005), (decide (first + n ≤ 3072), 0x2004)]
    (s, .fin 0 (draftPayload s first n))

/-- PLACE_FULL. -/
def execPlaceFull (e : CmdEntry) (s : State) : Host.Outcome State Fault Refusal := finishD s (command s e 0x0301 placeFullRun)
/-- PLACE_REPORT. -/
def execPlaceReport (e : CmdEntry) (s : State) : Host.Outcome State Fault Refusal := finishD s (command s e 0x0302 placeReportRun)
/-- DRAFT_READ. -/
def execDraftRead (e : CmdEntry) (s : State) : Host.Outcome State Fault Refusal := finishD s (command s e 0x0303 draftReadRun)

end Sys2Proof.Machine
end

