-- ==== Sys2Proof/Machine/Parameters.lean ====
section
/-! DEFINITION. The parameter commands (R383 to R391) and the staging timeout (R387, R398). -/
namespace Sys2Proof.Machine

/-! ### Reads -/

/-- One returned item (R383, R390). -/
def readItem (s : State) (i : PItem) : Bytes :=
  match itemSpec i with
  | none => []
  | some p =>
    match (if i.low = 1 then stagedVal s p i.inst else none) with
    | some v => parItem i.num i.inst true v
    | none => parItem i.num i.inst false (pread s p i.inst)
/-- PAR_READ. -/
def parReadRun (s : State) (m : Nat) (pl : Bytes) : State × CmdRes :=
  parChecked .read s m pl (fun is => (s, .fin 0 (is.map (readItem s)).flatten))

/-! ### Writes -/

/-- Stage one value (R387): the first into an empty area makes its master the owner and starts the timeout. -/
def stagePut (m : Nat) (s : State) (x : PSpec × Nat × Int) : State :=
  let key := setKey x.1 x.2.1
  let g := (tabFind s.par.stages key).getD { owner := m, t0 := s.clk.now, vals := [] }
  { s with par.stages := tabSet s.par.stages key { g with vals := tabSet g.vals (pkey x.1.num x.2.1) x.2.2 } }
/-- The value HST_MASTER_EN takes: its fixed bits as R375 says. -/
def fixVal (s : State) (num : Nat) (v : Int) : Int := if num = 0x0A08 then masterEnFix s v.toNat else v
/-- The items of a write with their values. -/
def writeVals (s : State) (is : List PItem) : List (PSpec × Nat × Int) :=
  is.filterMap (fun i => match itemSpec i with
    | some p => (pvalue p i.raw).map (fun v => (p, i.inst, fixVal s p.num v))
    | none => none)
/-- Values as a table, a later item of the same parameter last. -/
def valTab (xs : List (PSpec × Nat × Int)) : Tab Int := xs.foldl (fun t x => tabSet t (pkey x.1.num x.2.1) x.2.2) []

/-- Disable the debug port (R413): the cell, and the words of master 10 at 0 on every target. -/
def debugOff (s : State) : State :=
  { s with acc := { s.acc with dbgOff := true, words := s.acc.words.filter (fun x => x.1 % 16 != 10) } }
/-- The settings of a write that consume an OTP cell, in their order: the state and the status, 0 if all were taken (R413, R414). -/
def otpWrites (io : IoResult) (m : Nat) : List (PSpec × Nat × Int) → State → State × Nat
  | [], s => (s, 0)
  | x :: xs, s =>
    if x.1.num = 0x0014 ∧ x.2.2 = 1 ∧ s.acc.dbgOff = false then
      let r := otpChange s io 0 m 0x07 0 1 debugOff
      if r.2 = 0 then otpWrites io m xs r.1 else r
    else if x.1.num = 0x0B01 ∧ x.2.2 ≠ s.acc.role then
      let r := otpChange s io 0 m 0x04 s.acc.role x.2.2.toNat (fun t => { t with acc.role := x.2.2.toNat })
      if r.2 = 0 then otpWrites io m xs r.1 else r
    else otpWrites io m xs s

/-- The parameters applied at a bolt boundary (R517). -/
def untiedBolt (num : Nat) : Bool := 0x0A20 ≤ num && num ≤ 0x0A22
/-- A change of DEV_PICK_LEN among the items (R24). -/
def plenChange (s : State) (xs : List (PSpec × Nat × Int)) : Option Int :=
  match tabFind (valTab xs) (pkey 0x0010 0) with
  | some v => if v = pget s 0x0010 0 then none else some v
  | none => none
/-- The untied items of a write wait for their boundaries (R386): what its completion waits for. PAIR_ROLE is the chip's own and
is not mirrored. -/
def untiedPend (s : State) (xs : List (PSpec × Nat × Int)) : State × CmdRes :=
  let id := s.warp.nextId
  let s1 : State := { s with warp.nextId := id + 1 }
  let own := xs.filter (fun x => x.1.num != 0x0B01 && x.1.num != 0x0010)
  let pick := valTab (own.filter (fun x => !untiedBolt x.1.num))
  let bolt := valTab (own.filter (fun x => untiedBolt x.1.num))
  let s2 := when (pick != [] || bolt = []) (fun t => pendAdd t id .pick [] pick (.params pick)) s1
  (when (bolt != []) (fun t => pendAdd t id .bolt [] bolt (.params bolt)) s2, .wait (.applied id))
/-- A change of pick length is asked for: the acquisition units go to IDLE (R24, R341). -/
def plenAsk (s : State) (v : Int) : State :=
  forEach (List.range 8) unStop (runRequest s 4 true [(pkey 0x0010 0, v)] []).1
/-- The effect of a write whose items all pass (R386). -/
def writeEffect (io : IoResult) (s : State) (m : Nat) (xs : List (PSpec × Nat × Int)) : State × CmdRes :=
  let un := xs.filter (fun x => x.1.tset = noSet)
  let o := otpWrites io m un s
  if o.2 ≠ 0 then (o.1, .fin o.2 (le 4 ((xs.findIdx? (fun x => x.1.k && x.1.tset = noSet)).getD 0)))
  else
    let s1 := forEach (xs.filter (fun x => x.1.tset != noSet)) (stagePut m) o.1
    if un = [] then (s1, .fin 0 [])
    else
      let r := untiedPend s1 un
      match plenChange s un with
      | some v => (plenAsk r.1 v, .wait .pickLen)
      | none => r
/-- PAR_WRITE. -/
def parWriteRun (io : IoResult) (s : State) (m : Nat) (pl : Bytes) : State × CmdRes :=
  parChecked .write s m pl (fun is =>
    match writeFails s m is with
    | some p => (s, .fin p.2 (le 4 p.1))
    | none => writeEffect io s m (writeVals s is))

/-! ### Commits -/

/-- Every value staged for some sets (R388). -/
def stagedVals (s : State) (keys : List Nat) : Tab Int :=
  keys.foldl (fun t k => match tabFind s.par.stages k with | some g => tabMerge t (g.vals.map (fun x => (x.1, fixVal s (x.1 / 256) x.2))) | none => t) []
/-- The index and status of the first set that fails (R388). Buffers are allocated one after the other (R350). -/
def commitFail (u : State) : List Nat → Nat → State → Option (Nat × Nat)
  | [], _, _ => none
  | k :: ks, j, s =>
    let st := setStatus s u k
    if st ≠ 0 then some (j, st)
    else commitFail u ks (j + 1) (if k / 256 = 17 then
      match unRegion s (k % 256) (pnat u 0x070B (k % 256)) with | some b => acqPut s (k % 256) b (pnat u 0x070B (k % 256)) | none => s
      else s)
/-- The OTP slot of a safety commit that changes the set (R413, R414, R464). -/
def safConsume (io : IoResult) (s u : State) (m : Nat) : State × Nat :=
  let r := otpChange s io 0 m 0x05 (safCrc s) (safCrcT u.par.force) (fun t => { t with acc.safUsed := t.acc.safUsed + 1 })
  (otpLow r.1 s.acc.safUsed r.1.acc.safUsed 28 32, r.2)
/-- The effect of a commit whose sets all pass (R388, R505). -/
def commitEffect (io : IoResult) (s u : State) (m : Nat) (keys : List Nat) (vals : Tab Int) : State × CmdRes :=
  let kept := keys.findIdx? (fun k => setKept (k / 256))
  let saf := keys.any (fun k => k / 256 = 23) && safDiffers s u
  if kept.isSome && !io.flashOk then (s, .fin 0xF005 (le 4 (kept.getD 0)))
  else
    let c := if saf then safConsume io { s with freeCtr := s.freeCtr + b2n s.pair.en } u m else (s, 0)
    if c.2 ≠ 0 then (c.1, .fin c.2 (le 4 ((keys.findIdx? (fun k => k / 256 = 23)).getD 0)))
    else
      let s1 := if kept.isSome then cfgStore c.1 vals else c.1
      match keys.findIdx? (fun k => decide (k / 256 ≤ 1)) with
      | some j =>
        let net := keys.any (fun k => k / 256 = 1)
        let r := runRequest s1 (if net then 5 else 1) net vals keys
        (match r.2 with
         | some id => (r.1, .wait (.run id))
         | none => (s1, .fin 0x5004 (le 4 j)))
      | none =>
        let id := s1.warp.nextId
        (pendAdd { s1 with warp.nextId := id + 1 } id (if saf && s1.pair.en then .bolt else .pick) keys vals (if saf then .safeSet vals else .params vals),
          .wait (.applied id))
/-- PAR_COMMIT. -/
def parCommitRun (io : IoResult) (s : State) (m : Nat) (pl : Bytes) : State × CmdRes :=
  parChecked .commit s m pl (fun is =>
    let keys := dedup (is.map itemKey)
    match is.findIdx? (fun i => stageOwner s (itemKey i) != some m) with
    | some j => (s, .fin 0x2015 (le 4 j))
    | none =>
      let vals := stagedVals s keys
      let u : State := { s with par.force := tabMerge s.par.force vals }
      match commitFail u (is.map itemKey) 0 s with
      | some (j, st) => (s, .fin st (le 4 j))
      | none => commitEffect io s u m keys vals)
/-- PAR_DISCARD (R389). -/
def parDiscardRun (s : State) (m : Nat) (pl : Bytes) : State × CmdRes :=
  parChecked .discard s m pl (fun is =>
    if is.any (fun i => stageOwner s (itemKey i) != some m) then (s, .fin 0x2015 [])
    else ({ s with par.stages := (is.map itemKey).foldl (fun t k => tabErase t k) s.par.stages }, .fin 0 []))
/-- The name of a set instance (R391): the first member with the instance, for a filter set its channel's first filter. -/
def setName (key : Nat) : Nat := setFirst (key / 256) * 65536 + (if key / 256 = 22 then 64 * (key % 256) else key % 256) * 256
/-- The payload of PAR_STAGED (R391): records in ascending set, each with its name, owner and time left. -/
def stagedPayload (s : State) : Bytes :=
  let rs := s.par.stages.take 83
  let left := fun (g : Stage) => (g.t0 + 60 * second - s.clk.now) / millisecond
  words (rs.length :: (rs.map (fun x => [setName x.1, x.2.owner, left x.2])).flatten)
/-- PAR_STAGED. -/
def parStagedRun (s : State) (m : Nat) (pl : Bytes) : State × CmdRes :=
  checked s [(pl.length = 0, 0x2002), (hasRights s m 0 rREAD, 0x2005)] (s, .fin 0 (stagedPayload s))

/-- PAR_READ. -/
def execParRead (e : CmdEntry) (s : State) : Host.Outcome State Fault Refusal := finishD s (command s e 0x0201 parReadRun)
/-- PAR_WRITE. -/
def execParWrite (e : CmdEntry) (io : IoResult) (s : State) : Host.Outcome State Fault Refusal := finishD s (command s e 0x0202 (parWriteRun io))
/-- PAR_COMMIT. -/
def execParCommit (e : CmdEntry) (io : IoResult) (s : State) : Host.Outcome State Fault Refusal := finishD s (command s e 0x0203 (parCommitRun io))
/-- PAR_DISCARD. -/
def execParDiscard (e : CmdEntry) (s : State) : Host.Outcome State Fault Refusal := finishD s (command s e 0x0204 parDiscardRun)
/-- PAR_STAGED. -/
def execParStaged (e : CmdEntry) (s : State) : Host.Outcome State Fault Refusal := finishD s (command s e 0x0205 parStagedRun)

/-! ### The staging timeout (R387, R398) -/

/-- A commit that has been taken still uses the staged values of a set instance. -/
def stageTaken (s : State) (key : Nat) : Bool :=
  s.par.pends.any (fun p => p.sets.contains key) ||
    ((s.warp.running.toList ++ (s.warp.result.map (·.1)).toList ++ s.warp.queue).any (fun r => r.sets.contains key))
/-- The staging area of a set instance expires. -/
def stageExpire (s : State) (pnum inst key : Nat) : State :=
  match tabFind s.par.stages key with
  | some g => raise { s with par.stages := tabErase s.par.stages key } 0x2101 inst (le 2 pnum ++ [BitVec.ofNat 8 g.owner])
  | none => s
/-- PAR_STAGE_EXPIRED: the set instance that the PNUM of its first member and its instance name (R387, R398). -/
def execParStageExpired (pnum inst : Nat) (s : State) : Host.Outcome State Fault Refusal :=
  finishD s
    (match (List.range 28).find? (fun c => setFirst c = pnum) with
     | some c => when (decide (inst < 256) && !stageTaken s (c * 256 + inst)) (fun t => stageExpire t pnum inst (c * 256 + inst)) s
     | none => s)

end Sys2Proof.Machine
end

