-- ==== Sys2Proof/Machine/Transports.lean ====
section
/-! DEFINITION. The host transports (R368 to R373): the mailbox datagrams of Ethernet and their sessions, ARP and ICMP,
the QSPI registers and rings, and the delivery of completions and events. -/
namespace Sys2Proof.Machine

/-! ### Datagrams (R369) -/

/-- TYPE. -/
def dgType (bs : Bytes) : Nat := word bs 2 % 256
/-- MASTER. -/
def dgMaster (bs : Bytes) : Nat := word bs 2 / 256 % 256
/-- NENT. -/
def dgNent (bs : Bytes) : Nat := word bs 2 / 65536 % 256
/-- SID. -/
def dgSid (bs : Bytes) : BitVec 32 := BitVec.ofNat 32 (word bs 3)
/-- CTR. -/
def dgCtr (bs : Bytes) : Nat := rdLe bs 16 8
/-- What stands between the header and the tag. -/
def dgBody (bs : Bytes) : Bytes := (bs.drop 24).take (bs.length - 40)
/-- TVER, MAGIC and LEN agree with a datagram of at most 1,472 bytes (R368, R369). -/
def dgFormOk (bs : Bytes) : Bool :=
  decide (40 ≤ bs.length) && decide (bs.length ≤ 1472) && word bs 0 % 256 = 1 && word bs 0 / 65536 = 0x5453 && word bs 1 / 65536 = bs.length
/-- The tag of the bytes before it. -/
def dgTag (key bs : Bytes) : Bytes := (hmac key bs).take 16
/-- The tag of a datagram matches. -/
def dgTagOk (key bs : Bytes) : Bool := dgTag key (bs.take (bs.length - 16)) == bs.drop (bs.length - 16)
/-- A datagram from its fields, with its tag. -/
def dgMake (key : Bytes) (type master nent : Nat) (sid : BitVec 32) (ctr : Nat) (body : Bytes) : Bytes :=
  let h := words [1 + 0x5453 * 65536, (40 + body.length) * 65536, type + master * 256 + nent * 65536, sid.toNat] ++ le 8 ctr ++ body
  h ++ dgTag key h
/-- K_s (R369). -/
def sessKey (km nh nd : Bytes) (master : Nat) (sid : BitVec 32) : Bytes :=
  hmac km (ascii "SPN128-S" ++ nh ++ nd ++ le 1 master ++ le 4 sid.toNat)

/-- The bytes of each of `n` entries packed back to back, none if they do not agree with NENT. An entry whose length is
beyond the end takes all that is left (R361). -/
def dgWalk : Nat → Bytes → Option (List Bytes)
  | 0, bs => if bs = [] then some [] else none
  | n + 1, bs =>
    let len := 16 + 4 * cdiv (word bs 1 % 65536) 4
    if bs = [] then none
    else if bs.length < 16 || 1008 < word bs 1 % 65536 || bs.length < len then some [bs]
    else (dgWalk n (bs.drop len)).map (fun r => bs.take len :: r)

/-! ### Sessions (R370 to R372) -/

/-- Sessions of a master. -/
def sessOf (s : State) (m : Nat) : SessPair := tabGet {} s.eth.sess m
/-- Change the sessions of a master. -/
def modSess (s : State) (m : Nat) (f : SessPair → SessPair) : State := { s with eth.sess := tabMod {} s.eth.sess m f }
/-- Ethernet is served: READY has risen and the MAC is not off (R375, R496). -/
def macOn (s : State) (mac : Nat) : Bool := s.boot.ready && pnat s 0x0A00 mac != 0
/-- An Ethernet master. -/
def ethMaster (m : Nat) : Bool := 1 ≤ m && m ≤ 4

/-- A datagram fails the checks of R371: dropped and counted, with MB_AUTH_FAIL once per MAC and bolt. A header that names
no Ethernet master counts in no block. -/
def dgDrop (s : State) (mac m : Nat) : State :=
  let s1 := when (ethMaster m) (fun t => modMb t m (fun b => { b with dropAuth := satInc 32 b.dropAuth })) s
  if s1.eth.authFail.contains mac then s1
  else raise { s1 with eth.authFail := mac :: s1.eth.authFail } 0x1101 (if ethMaster m then m else noInst) (le 1 mac)

/-- Whether CTR is new to a session (R371). -/
def ctrNew (x : Sess) (ctr : Nat) : Bool := decide (x.ctrHi < ctr + 64) && !x.seen.contains ctr
/-- The session after it has used a datagram. -/
def sessUse (now mac ip port ctr : Nat) (x : Sess) : Sess :=
  let hi := max x.ctrHi ctr
  { x with mac := mac, ip := ip, port := port, t := now, ctrHi := hi, seen := (ctr :: x.seen).filter (fun c => decide (hi < c + 64)) }
/-- A session whose key slot is live (R411). -/
def sessLive (s : State) (x : Sess) : Bool := (keyOf s x.slot).state = 1
/-- The session a datagram names, and whether it is the opening one. -/
def sessNamed (s : State) (bs : Bytes) : Option (Bool × Sess) :=
  let p := sessOf s (dgMaster bs)
  match p.cur.filter (fun x => x.sid == dgSid bs), p.opening.filter (fun x => x.sid == dgSid bs) with
  | some x, _ => some (false, x)
  | none, some x => some (true, x)
  | none, none => none
/-- The session of a DATA or CLOSE datagram that passes every check of R371, and the bytes of its entries. -/
def dgUsable (s : State) (bs : Bytes) : Option (Bool × Sess × List Bytes) :=
  if dgFormOk bs && ethMaster (dgMaster bs) then
    match sessNamed s bs, dgWalk (dgNent bs) (dgBody bs) with
    | some (o, x), some es => if sessLive s x && dgTagOk x.key bs && ctrNew x (dgCtr bs) then some (o, x, es) else none
    | _, _ => none
  else none

/-- The session that a used datagram leaves in force: an opening one becomes the open one (R370 step 3). -/
def sessPut (s : State) (m : Nat) (o : Bool) (x : Sess) : State :=
  if o then modMb (modSess s m (fun _ => { cur := some x, opening := none })) m (fun b => { b with sessions := satInc 16 b.sessions })
  else modSess s m (fun p => { p with cur := some x })

/-- A DATA datagram arrives (R371): its entries go to the command ring of the master. -/
def dataReceive (s : State) (mac ip port : Nat) (bs : Bytes) : State :=
  match dgUsable s bs with
  | none => dgDrop s mac (dgMaster bs)
  | some (o, x, es) =>
    forEach es (fun t b => takeEntry t (Fin.ofNat 12 (dgMaster bs)) b)
      (sessPut s (dgMaster bs) o (sessUse s.clk.now mac ip port (dgCtr bs) x))

/-- MB_SESSION_CLOSED with its cause (R372). -/
def sessClosed (s : State) (m cause : Nat) : State := raise s 0x1102 m (le 1 cause)
/-- The open session of a master closes (R372). -/
def sessClose (s : State) (m cause : Nat) : State :=
  if (sessOf s m).cur.isSome then sessClosed (modSess s m (fun p => { p with cur := none })) m cause else s
/-- Every session closes at a change of role; an opening one is forgotten (R372). -/
def sessRole (s : State) : State :=
  forEach [1, 2, 3, 4] (fun t m => modSess (sessClose t m 3) m (fun p => { p with opening := none })) s

/-- A CLOSE datagram arrives (R371, R372). -/
def closeReceive (s : State) (mac : Nat) (bs : Bytes) : State :=
  match dgUsable s bs with
  | none => dgDrop s mac (dgMaster bs)
  | some (o, _, es) =>
    if es.isEmpty then
      if o then modSess s (dgMaster bs) (fun p => { p with opening := none }) else sessClose s (dgMaster bs) 1
    else dgDrop s mac (dgMaster bs)

/-- A session identifier that no session has and that is not the 0 of HELLO: the first of them from one on (R369, R370; log 5). -/
def sidNew (s : State) (x : BitVec 32) : BitVec 32 :=
  let used : List (BitVec 32) := 0 :: ([1, 2, 3, 4].map (fun m => ((sessOf s m).cur.toList ++ (sessOf s m).opening.toList).map (·.sid))).flatten
  (((List.range 10).map (fun k => x + BitVec.ofNat 32 k)).find? (fun y => !used.contains y)).getD x

/-- The form of a HELLO (R369, R370): 56 bytes with NENT, SID and CTR 0. -/
def helloForm (bs : Bytes) : Bool :=
  dgFormOk bs && bs.length = 56 && ethMaster (dgMaster bs) && dgNent bs = 0 && dgSid bs = 0 && dgCtr bs = 0
/-- The slot whose key tags a HELLO. -/
def helloSlot (s : State) (bs : Bytes) : Option Nat :=
  (liveSlots s (dgMaster bs)).find? (fun i => helloForm bs && dgTagOk (keyOf s i).key bs)
/-- A HELLO that passes is answered and begins a session (R370 step 2); any other fails under R371 (R409). -/
def helloReceive (s : State) (mac ip port : Nat) (bs : Bytes) : State :=
  let m := dgMaster bs
  match helloSlot s bs with
  | none => dgDrop s mac m
  | some i =>
    let nd := le 16 (Config.nonce s.eth.draws).toNat
    let sid := sidNew s (Config.newSid s.eth.draws)
    let ks := sessKey (keyOf s i).key (dgBody bs) nd m sid
    let x : Sess := { sid := sid, key := ks, slot := i, mac := mac, ip := ip, port := port, ctrHi := 0, seen := [], txCtr := 0, t := s.clk.now }
    let ack := dgMake ks 2 m 0 sid 0 (nd ++ le 4 (mbOf s m).sNext.toNat ++ le 4 (pnat s 0x0A09 m))
    let s1 := modSess s m (fun p => { p with opening := some x })
    { s1 with eth.draws := s1.eth.draws + 1, eth.out := tabSet s1.eth.out mac (ip, port, ack) }

/-- A datagram reaches the mailbox of a MAC: an IPv4 datagram in one piece to its address and to HST_UDP_PORT (R368). -/
def toMailbox (s : State) (mac : Nat) (dst : UdpTo) : Bool :=
  macOn s mac && !dst.v6 && !dst.frag && dst.ip = pnat s 0x0A01 mac && dst.port = pnat s 0x0A04 0

/-- ETH_HELLO_RECEIVE. A datagram of another TYPE is none of this row. -/
def execEthHelloReceive (mac : MacNo) (dst : UdpTo) (src : UdpFrom) (dg : Bytes) (s : State) : Host.Outcome State Fault Refusal :=
  finishD s (when (toMailbox s mac dst && dgType dg = 1) (fun t => helloReceive t mac src.ip src.port dg) s)

/-- ETH_DATA_RECEIVE. -/
def execEthDataReceive (mac : MacNo) (dst : UdpTo) (src : UdpFrom) (dg : Bytes) (s : State) : Host.Outcome State Fault Refusal :=
  finishD s (when (toMailbox s mac dst && dgType dg = 3) (fun t => dataReceive t mac src.ip src.port dg) s)

/-- ETH_CLOSE_RECEIVE. -/
def execEthCloseReceive (mac : MacNo) (dst : UdpTo) (_src : UdpFrom) (dg : Bytes) (s : State) : Host.Outcome State Fault Refusal :=
  finishD s (when (toMailbox s mac dst && dgType dg = 4) (fun t => closeReceive t mac dg) s)

/-- SESSION_OPEN_TIMEOUT: 2 s have passed since the HELLO (R370). -/
def execSessionOpenTimeout (m : MasterNo) (s : State) : Host.Outcome State Fault Refusal :=
  finishD s (when (sessOf s m).opening.isSome (fun t => modSess t m (fun p => { p with opening := none })) s)

/-- SESSION_TIMEOUT: no usable datagram for HST_SESS_TMO (R372). -/
def execSessionTimeout (m : MasterNo) (s : State) : Host.Outcome State Fault Refusal := finishD s (sessClose s m 2)

/-- The entries of a ring that one datagram takes, and those it leaves, with room for some bytes and entries. -/
def dgPack : Nat → Nat → List RingEntry → List RingEntry × List RingEntry
  | _, _, [] => ([], [])
  | _, 0, xs => ([], xs)
  | room, n + 1, x :: xs =>
    if (entryBytes x).length ≤ room then
      let r := dgPack (room - (entryBytes x).length) n xs
      (x :: r.1, r.2)
    else ([], x :: xs)
/-- A completion. -/
def isCpl (x : RingEntry) : Bool := match x with | .cpl _ => true | .evt _ _ => false
/-- Send one DATA datagram of a master to the address of the last datagram used, completions first (R371). -/
def datagramSend (s : State) (m : Nat) : State :=
  match (sessOf s m).cur with
  | none => s
  | some x =>
    let ring := (mbOf s m).ring
    let r := dgPack 1432 255 (ring.filter isCpl ++ ring.filter (fun y => !isCpl y))
    if ring.isEmpty || !sessLive s x || !macOn s x.mac then s
    else
      let dg := dgMake x.key 3 m r.1.length x.sid (x.txCtr + 1) (r.1.map entryBytes).flatten
      let s1 := modSess (modMb s m (fun b => { b with ring := r.2 })) m (fun p => { p with cur := some { x with txCtr := x.txCtr + 1 } })
      { s1 with eth.out := tabSet s1.eth.out x.mac (x.ip, x.port, dg) }

/-- DATAGRAM_SEND. -/
def execDatagramSend (m : MasterNo) (s : State) : Host.Outcome State Fault Refusal := finishD s (datagramSend s m)

/-- Answer a request on a MAC whose address it names (R368). -/
def macAnswer (s : State) (mac ip target port : Nat) (data : Bytes) : State :=
  when (macOn s mac && pnat s 0x0A01 mac = target) (fun t => { t with eth.out := tabSet t.eth.out mac (ip, port, data) }) s

/-- ARP_REQUEST: answered with the address asked for. -/
def execArpRequest (mac : MacNo) (targetIp senderIp : Nat) (s : State) : Host.Outcome State Fault Refusal :=
  finishD s (macAnswer s mac senderIp targetIp 0 (be 4 targetIp))

/-- ICMP_ECHO_REQUEST: answered with its data, unless it comes in a fragmented datagram. -/
def execIcmpEchoRequest (mac : MacNo) (dst : IcmpTo) (srcIp : Nat) (data : Bytes) (s : State) : Host.Outcome State Fault Refusal :=
  finishD s (if dst.frag then s else macAnswer s mac srcIp dst.ip 1 data)

/-! ### QSPI (R373) -/

/-- A pointer write that breaks the rules is ignored and sets RING_ERR. -/
def ringErr (s : State) : State := { s with qspi.ringErr := true }

/-- The bytes of a slot of the command ring. -/
def cmdSlot (s : State) (i : Nat) : Bytes := padTo 1024 (tabGet [] s.qspi.cmdMem (i % 64))
/-- Write a slot of the command ring. -/
def cmdSlotPut (s : State) (i : Nat) (bs : Bytes) : State := { s with qspi.cmdMem := tabSet s.qspi.cmdMem (i % 64) (bs.take 1024) }
/-- A write of CMD_HEAD: the entries between CMD_TAIL and CMD_HEAD are taken in order. `slots` are what the host has written into these
slots before it, from CMD_TAIL on; a slot it does not give stands as it is. -/
def cmdHeadWrite (s : State) (head : BitVec 16) (slots : List Bytes) : State :=
  let n := (head - s.qspi.cmdTail).toNat
  let i0 := s.qspi.cmdTail.toNat
  let s0 := forEach (List.range (min slots.length 64)) (fun t k => cmdSlotPut t (i0 + k) (slots.getD k [])) s
  if 64 < n then ringErr s0
  else forEach (List.range n) (fun t k => takeEntry t 5 (cmdSlot t (i0 + k))) { s0 with qspi.cmdHead := head, qspi.cmdTail := head }

/-- QSPI_CMD_HEAD_WRITE. -/
def execQspiCmdHeadWrite (head : BitVec 16) (slots : List Bytes) (s : State) : Host.Outcome State Fault Refusal :=
  finishD s (when s.boot.ready (fun t => cmdHeadWrite t head slots) s)

/-- A write of CPL_TAIL frees slots of the completion ring. -/
def cplTailWrite (s : State) (tail : BitVec 16) : State :=
  let n := (tail - s.qspi.cplTail).toNat
  if (s.qspi.cplHead - s.qspi.cplTail).toNat < n then ringErr s
  else modMb { s with qspi.cplTail := tail } 5 (fun b => { b with ring := b.ring.drop n })

/-- QSPI_CPL_TAIL_WRITE. -/
def execQspiCplTailWrite (tail : BitVec 16) (s : State) : Host.Outcome State Fault Refusal :=
  finishD s (when s.boot.ready (fun t => cplTailWrite t tail) s)

/-- The W1C bits of IRQ_STAT. -/
def irqClear (s : State) (mask : BitVec 32) : State :=
  { s with qspi.readyChg := s.qspi.readyChg && !mask.getLsbD 2, qspi.roleChg := s.qspi.roleChg && !mask.getLsbD 3,
           qspi.safeChg := s.qspi.safeChg && !mask.getLsbD 4, qspi.ringErr := s.qspi.ringErr && !mask.getLsbD 5 }

/-- QSPI_IRQ_STAT_CLEAR. -/
def execQspiIrqStatClear (mask : BitVec 32) (s : State) : Host.Outcome State Fault Refusal :=
  finishD s (when s.boot.ready (fun t => irqClear t mask) s)

/-- Replace byte `i` of a register. -/
def regByte (v : BitVec 32) (i : Nat) (b : Byte) : BitVec 32 :=
  BitVec.ofNat 32 (v.toNat - v.toNat / 256 ^ i % 256 * 256 ^ i + b.toNat * 256 ^ i)
/-- One byte of a QSPI write: IRQ0_EN, IRQ1_EN or the command ring; every other address is read-only, has a row of its own or is
unmapped (R373). -/
def qspiByte (s : State) (addr : Nat) (b : Byte) : State :=
  if addr / 4 = 5 then { s with qspi.irq0En := regByte s.qspi.irq0En (addr % 4) b }
  else if addr / 4 = 6 then { s with qspi.irq1En := regByte s.qspi.irq1En (addr % 4) b }
  else if addr / 0x10000 = 1 then
    let i := addr % 0x10000 / 1024
    let o := addr % 1024
    cmdSlotPut s i ((cmdSlot s i).take o ++ b :: (cmdSlot s i).drop (o + 1))
  else s
/-- QSPI_REGISTER_WRITE: a transfer of bytes of ascending address, which may run across the map (R373). Before READY it is ignored
(R496). -/
def execQspiRegisterWrite (addr : BitVec 24) (bytes : Bytes) (s : State) : Host.Outcome State Fault Refusal :=
  finishD s (when s.boot.ready (fun t => forEach ((List.range bytes.length).zip bytes) (fun u p => qspiByte u (addr.toNat + p.1) p.2) t) s)

/-- The byte a QSPI read gives at an address of the map (R373): the direct status registers, the boot status register of R497, the slots
of the two rings, and 0 where nothing is mapped. Before READY the boot status register alone answers (R496). -/
def qspiRead (s : State) (addr : Nat) : Byte :=
  if addr / 4 = 12 then (le 4 (bootStat s)).getD (addr % 4) 0
  else if s.boot.ready = false then 0
  else if addr < 0x100 then (words (statRegs s 5)).getD addr 0
  else if addr / 0x10000 = 1 then (cmdSlot s (addr % 0x10000 / 1024)).getD (addr % 1024) 0
  else if addr / 0x20000 = 1 then (tabGet [] s.qspi.cplMem (addr % 0x20000 / 1024)).getD (addr % 1024) 0
  else 0
/-- What a QSPI transfer with an instruction byte does: a read, a write, or nothing until HQ_CS_N rises (R373). -/
def qspiOp (code : Nat) : Option Bool :=
  if code = 0x0B ∨ code = 0xEB then some false else if code = 0x02 ∨ code = 0x38 then some true else none

/-! ### Completions and events (R366, R367) -/

/-- COMPLETION_WRITE. -/
def execCompletionWrite (m : MasterNo) (s : State) : Host.Outcome State Fault Refusal := finishD s (writeWaiting s m)

/-- The oldest completion has waited for more than 1 s. -/
def ringStall (s : State) (m : Nat) : State :=
  if (mbOf s m).waiting.isEmpty || (mbOf s m).stalled then s
  else raise (modMb s m (fun b => { b with stalled := true })) 0x1104 m []

/-- MB_RING_STALL. -/
def execMbRingStall (m : MasterNo) (s : State) : Host.Outcome State Fault Refusal := finishD s (ringStall s m)

/-- EVENT_DELIVER: behind every completion that waits (R366). -/
def execEventDeliver (m : MasterNo) (s : State) : Host.Outcome State Fault Refusal :=
  finishD s (when (mbOf s m).waiting.isEmpty (fun t => evtPut t m) s)

end Sys2Proof.Machine
end

