-- ==== Sys2Proof/Machine/Pair.lean ====
section
/-! DEFINITION. The Selvedge and the pair (18): the link, state frames and items, synchronisation, takeover, collision and
the planned swap. -/
namespace Sys2Proof.Machine

/-! ### Acknowledgements and the end of SYNC (R478, R480) -/

/-- The payload of a command that waited for the partner: that of KEY_PROVISION is the check value (R410). -/
def partnerPayload (f : Flight) : Bytes := if f.opcode = 0x0A03 then le 4 (keyCheck ((f.entry.payload.drop 4).take 32)) else []

/-- Complete the commands that wait for the partner, those of items for which a condition holds. -/
def partnerDone (s : State) (p : BitVec 32 → Bool) : State :=
  forEach (List.range 12) (fun t m =>
    forEach ((mbOf t m).flights.filter (fun f => match f.wait with | some (.partner k) => p k | _ => false))
      (fun u f => produce u m f 0 (partnerPayload f)) t) s

/-- The item of a number is acknowledged (R478): its effect applies from its p_e on. -/
def ackItem (s : State) (n : BitVec 32) : State :=
  partnerDone
    { s with pair := { s.pair with iseqAcked := n,
                                   outbox := s.pair.outbox.map (fun o => if o.item.iseq = n ∧ o.sentAt.isSome = true then { o with acked := true } else o) } }
    (fun k => k = n && s.pair.outbox.any (fun o => o.item.iseq = n && o.sentAt.isSome))

/-- LSTATE goes to DOWN (R480): nothing waits for the partner any more, and a swap that has not begun is abandoned (R488). The
causes are numbered 1 link, 2 silence, 3 unacknowledged item, 4 the partner has left SYNC, 5 another protocol
version (DESIGN CHOICE, log 30). -/
def pairDown (s : State) (cause : Nat) : State :=
  if s.pair.lstate = 0 then s
  else
    let s1 : State :=
      { s with pair := { s.pair with lstate := 0, drops := satInc 16 s.pair.drops, outbox := [], bulkOut := [], swapAt := none, bulk := [], bulkEnd := false,
                                     bulkDone := false, bulkPct := 0, frames := 0, syncBolts := 0 } }
    let s2 := raise s1 0xE102 noInst (le 1 cause)
    partnerDone (when s.pair.swapAt.isSome (fun t => completeWaits t (fun w => w = .swap) 0xE002 []) s2) (fun _ => true)

/-- This chip's role, by which ties are decided: not fused acts as role A (R413). -/
def pairRole (s : State) : Nat := if roleB s then 2 else 1
/-- The fused role of the partner, read as R413 reads it. -/
def partnerRole (p : PartnerId) : Nat := if p.role = 2 then 2 else 1

/-- The declared axes. -/
def pairAxes (s : State) : List Nat := (List.range 128).filter (fun a => axClass s a != 0)

/-- What items hold of an axis, for the bulk (R478, R489), with its extended count. -/
def axisBulk (s : State) (a : Nat) : List ItemBody :=
  let x := axOf s a
  let k := Fin.ofNat 128 a
  let deb := fun (w : SwInput) => let d := debOf x.inp w; ItemBody.debounced k w d.lvl d.cEdge d.chat
  [.axisState k (axStNat x.sm.st) x.sm.react x.sm.fcode x.sm.disCmd, .count k x.fb.cExt, offsBody a .flags x.fb 0, .queue k x.prof.queue x.prof.act x.prof.limStop,
   .homing k x.hm] ++ ([SwInput.limP, .limN, .home].filter (fun w => (debOf x.inp w).init)).map deb
/-- What items hold of a group, for the bulk. -/
def grpBulk (s : State) (g : Nat) : ItemBody :=
  let r := grpOf s g
  .group (Fin.ofNat 16 g) r.queue r.act r.mem r.l r.lead r.shape r.vm r.hold r.qdec
/-- What items hold of a node, for the bulk. -/
def nodeBulk (s : State) (n : Nat) : List ItemBody :=
  let d := ndOf s n
  let k := Fin.ofNat 64 n
  (if d.joined || d.muted || d.lost then [.network k d.admitted (d.muted || d.muteDue) d.integrated d.lost d.tRt d.desc d.asg] else []) ++
    (if d.image = [] then [] else [.microstep k d.image])
/-- The acceptance of a command in flight, for the bulk: what its items were before the bulk is not told again (R479). -/
def flightBulk (f : Flight) : List ItemBody :=
  match f.wait with
  | some .done => []
  | some (.enable _) => [.acceptance f.entry f.opcode (some [])]
  | _ => [.acceptance f.entry f.opcode none]
/-- The journal, S_next and the commands in flight of a master, for the bulk. -/
def masterBulk (s : State) (m : MasterNo) : List ItemBody :=
  let b := mbOf s m
  [.nextSeq m b.sNext] ++ (b.journal.reverse.map (fun c => ItemBody.journal m c.seq c.opcode c.tag c.status c.psl c.payload)) ++ (b.flights.map flightBulk).flatten
/-- Everything held by items (R489 step 2): parameters, the placement, network states, axes and groups, access tables and key slots, the
safety set, the journal and S_next of every master, and the addresses of the CAN channels. -/
def bulkOf (s : State) : List ItemBody :=
  [.base s.pair.iseqSent, .allParams s.par.force] ++ (if s.warp.placed then [.placement s.warp.epoch s.warp.place []] else []) ++
    ((List.range 64).map (nodeBulk s)).flatten ++ [.branches (brMask s (·.brpwr)) (brMask s (·.cut))] ++
    ((pairAxes s).map (axisBulk s)).flatten ++ ((List.range 16).filter (fun g => !(grpMembers s g).isEmpty)).map (grpBulk s) ++
    (List.range 32).map (fun t => .access t (accWords s t) (tabGet 0 s.acc.counts t)) ++
    (List.range 8).map (fun i => let k := keyOf s i; .key (Fin.ofNat 8 i) k.state k.master k.key) ++
    [.safeSet (safMembers.map (fun p => (pkey p.1 p.2, pget s p.1 p.2)))] ++ ((List.range 12).map (fun m => masterBulk s (Fin.ofNat 12 m))).flatten ++
    (List.range 3).map (fun c => .canAddr (Fin.ofNat 3 c) (canOf s c).sa)
/-- Changes that have been decided and not yet applied are told again behind the bulk. -/
def bulkWaits (s : State) : State :=
  let s1 := forEach s.par.pends (fun t p => (sendWait t (if p.sets.any (fun k => k / 256 = 23) then .safeSet p.vals else .params p.vals) (decide (p.at' = .bolt))).1) s
  match s.warp.result with
  | some (r, pl, _) => (sendWait s1 (.placement (s.warp.epoch + 1) pl r.vals) true).1
  | none => s1
/-- Bulk begins: the standby will be loaded (R489). The active controller takes what it holds now, and what it produces later waits
behind it. -/
def bulkBegin (s : State) : State :=
  let out := if s.pair.active then bulkOf s else []
  let t : State := { s with pair := { s.pair with lstate := 2, noSeg := 0, outbox := [], inbox := [], iseqMiss := [], bulk := [], bulkEnd := false, bulkDone := false,
                                                  bulkPct := 0, frames := 0, bulkOut := out, bulkAll := out.length,
                                                  saOut := if s.pair.active then (List.range 3).map (fun c => (c, (canOf s c).sa)) else [] } }
  when s.pair.active bulkWaits t

/-- The identities are compared (R480, R489 step 1): without a usable partner the link stays DOWN, which counts as no entry to it (log
113). -/
def identities (s : State) (p : PartnerId) : State :=
  let stay : State := { s with pair.lstate := 0 }
  if partnerRole p = pairRole s then raise stay 0xE107 noInst []
  else if p.pver ≠ s.boot.pver then raise stay 0xE108 noInst []
  else bulkBegin s

/-- The Selvedge works: READY, a pair, and transmission not stopped (R22, R471). -/
def selvedge (s : State) : Bool := s.boot.ready && s.pair.en && !s.clk.txStopped

/-- SELVEDGE_LINK_UP: the link is up, and TRAINING begins (R472, R480, R489 step 1). The row carries what the partner sends of itself; it
is judged with the partner's first valid state frame (DEDUCED, log 113). -/
def execSelvedgeLinkUp (partner : PartnerId) (s : State) : Host.Outcome State Fault Refusal :=
  finishD s (when (selvedge s && !s.pair.link) (fun t =>
    { t with pair := { t.pair with link := true, partner := some partner, noSeg := 0, lstate := 1 } }) s)

/-- SELVEDGE_LINK_DOWN (R472). -/
def execSelvedgeLinkDown (_cause : LinkDownCause) (s : State) : Host.Outcome State Fault Refusal :=
  finishD s (when s.pair.link (fun t => pairDown { t with pair.link := false } 1) s)

/-! ### State frames (R473 to R477) -/

/-- Bytes of the record of an axis of a class (R55). -/
def recSize (cls : Nat) : Nat := if cls = 1 then 40 else if cls = 2 then 24 else if cls = 3 then 20 else if cls = 4 then 8 else 0
/-- Two bits of a sign: 0b01 positive, 0b11 negative. -/
def sgnBits (x : Int) : Nat := if 0 < x then 1 else if x < 0 then 3 else 0
/-- The sign of two bits. -/
def bitsSgn (n : Nat) : Int := if n = 1 then 1 else if n = 3 then -1 else 0
/-- Picks left of a running boost (R238). -/
def boostLeft (s : State) (m : AxMod) : Nat := match m.boost with | some p => 64 - min 64 (psDiff (ps s) p) | none => 0
/-- Q and V of an axis's record: those of the path for the lead of a group whose entry is active (R477). -/
def recQV (s : State) (a : Nat) : Int × Int :=
  let g := grpOf s (axGroup s a)
  if inGroup s a && g.act && g.lead = some a then (g.q, g.v) else ((axOf s a).prof.q, (axOf s a).prof.v)

/-- The record of an axis in a state frame (R477). -/
def recOut (s : State) (a : Nat) : Bytes :=
  let x := axOf s a
  let l := x.lp
  let c := axClass s a
  let qv := recQV s a
  let head := leS 8 qv.1 ++ leS 4 qv.2
  let clow := leS 2 x.fb.cExt
  if c = 1 then
    head ++ leS 4 (rshr l.iv 8) ++ leS 4 (rshr l.id 24) ++ leS 4 (rshr l.iq 24) ++ leS 4 l.vFb ++ leS 2 l.iqRef ++
      le 2 (boostLeft s x.md + min 15 x.md.buvRun * 128) ++
      le 1 (b2n l.shi + 2 * b2n l.slo + 4 * sgnBits l.sd + 16 * sgnBits l.sq) ++ clow ++ leS 2 l.ubus ++ leS 1 l.bu ++ le 1 (min 255 l.gaps) ++ zeros 1
  else if c = 2 then
    head ++ leS 4 l.vFb ++ leS 3 (rshr l.iv 16) ++ leS 2 l.iqRef ++ leS 2 (rshr l.ib 24) ++ le 1 (b2n l.shi + 2 * b2n l.slo + 4 * b2n l.sb)
  else if c = 3 then
    head ++ le 2 (match l.vNzPs with | some p => min 0xFFFF (psDiff (ps s) p) | none => 0xFFFF) ++ (if axEnc s a = 0 then zeros 2 else clow) ++ zeros 4
  else if c = 4 then clow ++ zeros 6
  else []

/-- A segment without its delimiters: common header, body and CRC (R473). -/
def segment (s : State) (skind : Nat) (body : Bytes) : Bytes :=
  let h := words [1 + skind * 16 + body.length * 65536, (ps s).toNat] ++ body
  h ++ le 4 (crc32c h)
/-- The state frame of the present pick (R474, R476): a standby's has no records. That of the swap pick still comes from the former active
controller, and the new one sends none of records in it (R488). -/
def stateFrame (s : State) : Bytes :=
  let as := if (isStandby s && s.pair.swapSt != 1) || s.pair.swapSt = 2 then [] else pairAxes s
  segment s 1 (words [s.warp.epoch.toNat, s.boot.pver + s.pair.lstate * 256 + as.length * 65536, s.pair.iseqSent.toNat, s.pair.iseqRcv.toNat, 0] ++
    (as.map (recOut s)).flatten)

/-- A segment that arrives with a valid CRC is a state frame of this version. -/
def frameValid (seg : Bytes) : Bool :=
  decide (32 ≤ seg.length) && rdLe seg (seg.length - 4) 4 = crc32c (seg.take (seg.length - 4)) && word seg 0 % 256 = 0x11 &&
    decide (word seg 0 / 65536 + 12 = seg.length)

/-- The count of an axis with which the pick of a stamp began: its last decode before that pick. -/
def cntBefore (f : AxFb) (p : BitVec 32) : Int := ((f.hist.find? (fun h => h.2 != p && reached h.2 p)).map (·.1)).getD f.cExt
/-- CLOW of a record corrects the count (R477). -/
def clowIn (p : BitVec 32) (v : Int) (x : Axis) : Axis :=
  let d := wrapS 16 (v - cntBefore x.fb p)
  { x with fb := fbMove x.fb d }

/-- The fields of a record other than Q and V, taken into an axis (R477). `p` is the frame's pick. -/
def recIn (cls : Nat) (enc : Bool) (p : BitVec 32) (r : Bytes) (x : Axis) : Axis :=
  if cls = 1 then
    let f := rdLe r 32 1
    let bst := rdLe r 30 2
    clowIn p (rdLeS r 33 2)
      { x with lp := { x.lp with iv := rdLeS r 12 4 * 2 ^ 8, id := rdLeS r 16 4 * 2 ^ 24, iq := rdLeS r 20 4 * 2 ^ 24, vFb := rdLeS r 24 4,
                                 iqRef := rdLeS r 28 2, shi := nbit f 0, slo := nbit f 1, sd := bitsSgn (nbits f 2 2), sq := bitsSgn (nbits f 4 2),
                                 ubus := rdLeS r 35 2, bu := (rdLe r 37 1 : Int), gaps := rdLe r 38 1 },
               md := { x.md with boost := if bst % 128 = 0 then none else some (p - BitVec.ofNat 32 (64 - bst % 128)), buvRun := nbits bst 7 4 } }
  else if cls = 2 then
    let f := rdLe r 23 1
    { x with lp := { x.lp with vFb := rdLeS r 12 4, iv := rdLeS r 16 3 * 2 ^ 16, iqRef := rdLeS r 19 2, ib := rdLeS r 21 2 * 2 ^ 24,
                               shi := nbit f 0, slo := nbit f 1, sb := nbit f 2 } }
  else if cls = 3 then
    let y := { x with lp := { x.lp with vNzPs := if rdLe r 12 2 = 0xFFFF then none else some (p - BitVec.ofNat 32 (rdLe r 12 2)) } }
    if enc then clowIn p (rdLeS r 14 2) y else y
  else clowIn p (rdLeS r 0 2) x
/-- Q and V of a record, taken into the axis or, for the lead of an active group entry, into the path (R477). -/
def qvIn (s : State) (a : Nat) (q v : Int) : State :=
  let g := grpOf s (axGroup s a)
  if inGroup s a && g.act && g.lead = some a then modGrp s (axGroup s a) (fun x => { x with q := q, v := v })
  else modProf s a (fun x => { x with q := q, v := v, posRef := asr q 1, vRef := v })
/-- Take the records of a state frame. -/
def recsIn (p : BitVec 32) : List Nat → Bytes → State → State
  | [], _, s => s
  | a :: as, bs, s =>
    let c := axClass s a
    let s1 := modAx s a (recIn c (axEnc s a != 0) p bs)
    let s2 := if c = 4 then s1 else qvIn s1 a (rdLeS bs 0 8) (rdLeS bs 8 4)
    recsIn p as (bs.drop (recSize c)) s2

/-- A valid segment has arrived. -/
def segSeen (s : State) : State := { s with pair := { s.pair with segNow := true, noSeg := 0 } }
/-- The standby holds the active state from now on: SYNC is entered (R480). -/
def syncEnter (s : State) : State :=
  raise { s with pair := { s.pair with lstate := 3, syncBolts := 0, syncT := s.clk.now } } 0xE101 noInst []

/-- A valid state frame (R476): the partner's epoch, link state and acknowledgement; a standby, and in the swap pick the new active
controller (R488), takes its records. In TRAINING it brings the comparison of the identities, and a frame of a partner that had been given
up begins TRAINING again (logs 30 and 113). -/
def frameIn (s : State) (seg : Bytes) : State :=
  let w1 := word seg 3
  let p : BitVec 32 := BitVec.ofNat 32 (word seg 1)
  let s1 := segSeen { s with pair.pEpoch := BitVec.ofNat 32 (word seg 2) }
  if w1 % 256 ≠ s1.boot.pver then
    if s1.pair.lstate = 0 then s1 else if s1.pair.lstate = 1 then raise { s1 with pair.lstate := 0 } 0xE108 noInst [] else raise (pairDown s1 5) 0xE108 noInst []
  else if s1.pair.lstate = 0 then
    (match s1.pair.partner with | some q => if partnerRole q = pairRole s1 then s1 else { s1 with pair.lstate := 1 } | none => s1)
  else if s1.pair.lstate = 1 then (match s1.pair.partner with | some q => identities s1 q | none => s1)
  else
    let s2 := ackItem s1 (BitVec.ofNat 32 (word seg 5))
    if parsesOnly s2 then
      let as := pairAxes s2
      let fits := w1 / 65536 = as.length && seg.length = 32 + nsum (as.map (fun a => recSize (axClass s2 a)))
      let held := s2.pair.lstate = 3 || s2.pair.bulkDone
      if held && fits then
        let s3 : State := { s2 with pair := { s2.pair with frameP := p, frames := if s2.pair.frameP = p then s2.pair.frames else min 63 (s2.pair.frames + 1) } }
        recsIn p as ((seg.drop 28).take (seg.length - 32)) s3
      else s2
    else if s2.pair.lstate = 2 && w1 / 256 % 4 = 3 then syncEnter s2
    else if s2.pair.lstate = 3 && w1 / 256 % 4 != 3 then pairDown s2 4
    else s2

/-- STATE_FRAME_RECEIVE: a segment whose CRC fails, or that is no state frame, is discarded and counted (R473). -/
def execStateFrameReceive (seg : Bytes) (s : State) : Host.Outcome State Fault Refusal :=
  finishD s (when (selvedge s && s.pair.link) (fun t =>
    if frameValid seg then frameIn t seg else { t with pair.segBad := satInc 32 t.pair.segBad }) s)

/-! ### What an item does on the standby (R475, R478) -/

/-- STATE of a number (R204). -/
def axStOf (n : Nat) : AxSt :=
  match n with | 0 => .disabled | 1 => .ready | 2 => .enabled | 3 => .moving | 4 => .hold | 5 => .fault | _ => .safeOff
/-- The state of an axis (kind 0x01): with it goes whether its profile runs (R291). -/
def axStateIn (s : State) (a st react fcode : Nat) (dis : Bool) : State :=
  let n := axStOf st
  modAx s a (fun x =>
    let again := n = .fault && x.sm.st = .fault && x.sm.react = react
    { x with sm := { x.sm with st := n, react := react, fcode := fcode, disCmd := dis, qsT := if again then x.sm.qsT else ps s,
                               qsRest := if again then x.sm.qsRest else none },
             fb := if n = .disabled ∧ dis = false ∧ (x.sm.st ≠ .disabled ∨ x.sm.disCmd = true) then { x.fb with valid := false, rebase := false } else x.fb,
             prof := { x.prof with live := n = .enabled || n = .moving || n = .hold || (n = .fault && react = 1) } })
/-- The queue of an axis (kind 0x02); an entry that has become active notes the values of R288. -/
def queueIn (es : List MoveEntry) (act lim : Bool) (p : AxProf) : AxProf :=
  let q : AxProf := { p with queue := es, act := act, limStop := lim }
  if act && !p.act then
    let d := sgn (2 * ((es.head?.map (·.target)).getD 0) - p.q)
    { q with qAct := p.q, vAct := p.v, s0 := if d = 0 then sgn p.v else d, ovsTurn := 0, ovsTgt := 0 }
  else q
/-- Feedback offsets (kind 0x03): a rebase of R252, which moves the queue and the counts of the inputs too; a shift of R318, which moves the
reference; an index correction of R258, which moves the count alone; or a baseline of R250, which restarts the estimation and the Hall
check. -/
def offsIn (k : OfsKind) (dc kTot : Int) (ph : Option Int) (refd : Bool) (miss : Nat) (hofs : Int) (x : Axis) : Axis :=
  let d := dc * 65536
  let f := { fbMove x.fb dc with kTot := kTot, idxPh := ph.isSome, ph := ph.getD x.fb.ph, refd := refd, idxMiss := miss, homeOfs := hofs }
  match k with
  | .flags => { x with fb := f }
  | .correction => { x with fb := { f with idxCorr := wrapS 8 (-dc) } }
  | .turn => { x with fb := f, prof := profShift (-d) x.prof, inp := inShift (-dc) x.inp }
  | .home => { x with fb := f, prof := { x.prof with posRef := x.prof.posRef + d, q := x.prof.q + 2 * d } }
  | .baseline =>
    { x with fb := { f with hist := [], edge := none, vPer := 0, vmode := false, still := false, rebase := false, hallBad := 0,
                            hallO := match x.fb.sector with | some h => nmod ((h : Int) - f.cExt) 6 | none => nmod ((f.hallO : Int) - dc) 6 } }
/-- A debounced change or a chatter clear (kind 0x04) that the active controller made in the pick of stamp p (R306, R321). -/
def debIn (p : BitVec 32) (lvl : Bool) (c : Int) (chat : Bool) (d : Deb) : Deb :=
  let e := { d with lvl := lvl, cEdge := c, chat := chat, init := true }
  if lvl = d.lvl then e else { e with run := 0, chg := p :: d.chg.filter (fun q => decide (psDiff p q < 32)), lastChg := p }

/-- What a chip's own flash and OTP answer to a change that comes over the Selvedge (DESIGN CHOICE, log 30: they take it). -/
def ioFine : IoResult := { auditOk := true, flashOk := true, otpOk := true }
/-- Applied parameter sets (kind 0x07): kept sets go to this chip's own flash (R505), the debug port is disabled in both chips
(R413), the nodes of a branch that the values disable have never joined (R91), and a change of pick length stops the markers of both at one bolt boundary (R24); the set is sent again when the run of the
change succeeds, and then changes nothing. -/
def paramsIn (s : State) (vals : Tab Int) : State :=
  let s0 := applyVals s vals
  let s1 := forEach ((List.range 16).filter (fun b => brEnabled s b && !brEnabled s0 b)) branchOff s0
  let s2 := when (!(keptVals vals).isEmpty) (fun t => cfgStore t vals) s1
  let s3 := when (tabGet 0 vals (pkey 0x0014 0) = 1 && !s2.acc.dbgOff) (fun t => (otpChange t ioFine 0 9 0x07 0 1 debugOff).1) s2
  match tabFind vals (pkey 0x0010 0) with
  | some v => if v = s.clk.plen then s3 else { s3 with clk := { s3.clk with plenStop := 1, plenNew := v.toNat }, pair.judge := false }
  | none => s3
/-- A node (kind 0x09). -/
def netIn (adm muted integ lost : Bool) (tRt : Int) (desc : Bytes) (asg : Option SlotAsg) (d : Node) : Node :=
  { d with admitted := adm, joined := d.joined || adm, muted := muted, integrated := integ, lost := lost, tRt := tRt, desc := desc, asg := asg,
           asgPrev := if asg = d.asg then d.asgPrev else d.asg, asgBegun := d.asgBegun && decide (asg = d.asg) }
/-- BRPWR and cuts of the branches (kind 0x09, R93). The 100 ms of a cut count from here on this chip too (R92). -/
def branchesIn (s : State) (pw ct : BitVec 16) : State :=
  forEach (List.range 16) (fun t b => modBr t b (fun r =>
    { r with brpwr := pw.getLsbD b, cut := ct.getLsbD b, cutT := if ct.getLsbD b && !r.cut then s.clk.now else r.cutT })) s
/-- Rights words of a target with their count (kind 0x0A). -/
def accessIn (s : State) (tgt : Nat) (ws : List (BitVec 16)) (n : Nat) : State :=
  forEach ((List.range 12).zip ws) (fun t p => if rightsOf t p.1 tgt = p.2 then t else { t with acc.words := tabSet t.acc.words (tgt * 16 + p.1) p.2 })
    { s with acc.counts := tabSet s.acc.counts tgt n }
/-- A key slot (kind 0x0A, R412): programmed or revoked as on the active chip, or a mismatch. -/
def keyIn (s : State) (i st m : Nat) (key : Bytes) : State :=
  let k := keyOf s i
  let prog := fun (t : State) => (otpChange t ioFine i 9 0x02 0 (keyCheck key) (fun u => modKey u i (fun _ => { state := 1, master := m, key := key }))).1
  let revoke := fun (t : State) =>
    raise (otpChange t ioFine i 9 0x03 (keyCheck key) 0 (fun u => modKey u i (fun x => { x with state := 2 }))).1 0xB102 noInst [BitVec.ofNat 8 i, BitVec.ofNat 8 m]
  if st = k.state ∧ (st = 0 ∨ (k.master = m ∧ k.key = key)) then s
  else if st = 1 ∧ k.state = 0 then prog s
  else if st = 2 ∧ k.state = 0 then revoke (prog s)
  else if st = 2 ∧ k.state = 1 then revoke s
  else raise s 0xB106 noInst [BitVec.ofNat 8 i]
/-- The safety set of the active chip (kind 0x0B, R462): a different set is committed with a slot of this chip. -/
def safeSetIn (s : State) (vals : Tab Int) : State :=
  let u : State := { s with par.force := tabMerge s.par.force vals }
  if safCrcT u.par.force = safCrcT s.par.force then { s with dmp.mismatch := false }
  else if s.acc.safUsed < 32 then
    let s1 := cfgStore (applyVals (safConsume ioFine s u 9).1 vals) vals
    { s1 with dmp.mismatch := false }
  else raise (safSetFind { s with dmp.mismatch := true }) 0xD10A noInst []

/-- The journal entry of a master (kind 0x06): its command is no longer in flight, and S_next is behind it (R362). The status of
a forwarded PAIR_SWAP, a command of master 9, completes the command that was forwarded (R487). -/
def journalIn (s : State) (m : Nat) (c : Cpl) : State :=
  let s1 := modMb s m (fun b =>
    { b with journal := if b.journal.any (fun x => x.seq == c.seq) then b.journal
                        else journalPut (if reached b.sNext (c.seq + 1) then c.seq + 1 else b.sNext) c b.journal,
             sNext := if reached b.sNext (c.seq + 1) then c.seq + 1 else b.sNext })
  let s2 : State := { s1 with pair.accepted := s1.pair.accepted.filter (fun a => !(a.entry.master.val == m && a.entry.seq == c.seq)) }
  when (m = 9 && c.opcode = 0x0D01 && c.status != 0) (fun t => completeWaits t (fun w => w = .swap) c.status []) s2
/-- The acceptance of a command (kind 0x05). -/
def acceptIn (s : State) (e : CmdEntry) (op : Nat) (eff : Option (List (BitVec 32))) : State :=
  let s1 := modMb s e.master (fun b => { b with sNext := if reached b.sNext (e.seq + 1) then e.seq + 1 else b.sNext })
  let old := s1.pair.accepted.filter (fun a => !(a.entry.master == e.master && a.entry.seq == e.seq))
  { s1 with pair.accepted := old ++ [{ entry := e, opcode := op, effects := eff }] }

/-- The whole table of the active controller, with every value that this chip holds and the other has at its default. -/
def allVals (s : State) (vals : Tab Int) : Tab Int :=
  tabMerge (s.par.force.map (fun x => (x.1, pdefault (x.1 / 256) (x.1 % 256)))) vals
/-- The effect of an item. -/
def itemIn (s : State) (b : ItemBody) : State :=
  match b with
  | .axisState a st r f d => axStateIn s a st r f d
  | .queue a es act lim => modProf s a (queueIn es act lim)
  | .group g es act mem len lead sh vm hold qd =>
    modGrp s g (fun x => { x with queue := es, act := act, mem := mem, l := len, lead := lead, shape := sh, vm := vm, hold := hold, qdec := qd })
  | .feedbackOfs a w dc k ph rf miss ho => modAx s a (offsIn w dc k ph rf miss ho)
  | .debounced a sw lvl ce ch => modAx s a (fun x => { x with inp := limLatch (debSet x.inp sw (debIn (ps s - 1) lvl ce ch (debOf x.inp sw))) })
  | .homing a hm => modAx s a (fun x => { x with hm := hm })
  | .acceptance e op eff => acceptIn s e op eff
  | .journal m q op tag st psl pl =>
    journalIn s m { seq := q, opcode := op, tag := tag, rep := false, notAcc := false, status := st, psl := psl, payload := pl }
  | .params vals => paramsIn s vals
  | .placement e pl vals => let t := placePut (declDrops s (paramsIn s vals)) false pl; { t with warp.epoch := e }
  | .network n adm mu it lo t d g => modNd s n (netIn adm mu it lo t d g)
  | .branches pw ct => branchesIn s pw ct
  | .access t ws n => accessIn s t ws n
  | .key i st m k => keyIn s i st m k
  | .safeRelease mask => releaseItem s mask
  | .safeSet vals => safeSetIn s vals
  | .microstep n img => modNd s n (fun d => { d with image := img })
  | .allParams vals => paramsIn s (allVals s vals)
  | .count a c => modFb s a (fun f => { f with cExt := c })
  | .nextSeq m q => modMb s m (fun b => { b with sNext := q })
  | .base n => { s with pair := { s.pair with iseqRcv := n, iseqMiss := [] } }
  | .swapPick p => { s with pair.swapAt := some p }
  | .canAddr c sa => modCan s c (fun x => if x.mode = 2 then { x with sa := sa } else x)

/-- Items whose matter has already taken place: they take effect when they arrive (DESIGN CHOICE, log 30). -/
def itemNow (b : ItemBody) : Bool := match b with | .acceptance _ _ _ => true | .journal _ _ _ _ _ _ _ => true | _ => false
/-- Complete the commands of a failed active controller that wait for an item to be applied (R479). -/
def itemApplied (s : State) (n : BitVec 32) : State :=
  forEach (List.range 12) (fun t m =>
    forEach ((mbOf t m).flights.filter (fun f => f.wait = some (.item n))) (fun u f => produce u m f 0 (partnerPayload f)) t) s
/-- Apply the items whose p_e has come, in their order (R478). -/
def itemsDue (s : State) : State :=
  if s.pair.lstate = 2 ∧ s.pair.bulkDone = false then s
  else
    let due := sortBy (fun (x y : Item) => !reached y.iseq x.iseq) (s.pair.inbox.filter (fun i => reached i.pe (ps s)))
    forEach due (fun t i => itemApplied (itemIn t i.body) i.iseq) { s with pair.inbox := s.pair.inbox.filter (fun i => !reached i.pe (ps s)) }

/-- A number lies in a run of numbers. -/
def inRun (n : BitVec 32) (r : BitVec 32 × Nat) : Bool := decide (psDiff n r.1 < r.2)
/-- The item of a number has arrived. -/
def itemHeld (p : Pair) (n : BitVec 32) : Bool := reached n p.iseqRcv && !p.iseqMiss.any (inRun n)
/-- Runs of missing numbers without one of them. -/
def runDrop (n : BitVec 32) (rs : List (BitVec 32 × Nat)) : List (BitVec 32 × Nat) :=
  ((rs.map (fun r => if inRun n r then [(r.1, psDiff n r.1), (n + 1, r.2 - psDiff n r.1 - 1)] else [r])).flatten).filter (fun r => r.2 != 0)
/-- Note that the item of a number has arrived; those that it has overtaken are missing until their repeat (R473). -/
def itemNote (n : BitVec 32) (p : Pair) : Pair :=
  if reached n p.iseqRcv then { p with iseqMiss := runDrop n p.iseqMiss }
  else
    let k := psDiff n (p.iseqRcv + 1)
    { p with iseqRcv := n, iseqMiss := if k = 0 then p.iseqMiss else p.iseqMiss ++ [(p.iseqRcv + 1, k)] }
/-- An item arrives at a standby: it is acknowledged by its number and held. A repeated one is acknowledged only, and the boundary that it
names now counts if it still waits. -/
def itemTake (s0 : State) (it : Item) : State :=
  let s : State := { segSeen s0 with pair := { (segSeen s0).pair with acksOut := s0.pair.acksOut ++ [it.iseq] } }
  if itemHeld s.pair it.iseq then { s with pair.inbox := s.pair.inbox.map (fun i => if i.iseq = it.iseq then it else i) }
  else
    let s1 : State := { s with pair := itemNote it.iseq s.pair }
    if itemNow it.body && (s.pair.lstate != 2 || s.pair.bulkDone) then itemIn s1 it.body else { s1 with pair.inbox := s1.pair.inbox ++ [it] }

/-- A segment with a wrong CRC is discarded and counted; its sender repeats it (R473). -/
def segCheck (ok : Bool) (f : State → State) (s : State) : State := if ok then f s else { s with pair.segBad := satInc 32 s.pair.segBad }
/-- ITEM_RECEIVE (R478). In the swap pick the new active controller still takes the former one's items (R488). -/
def execItemReceive (it : ItemSeg) (s : State) : Host.Outcome State Fault Refusal :=
  finishV s (when (selvedge s && s.pair.link && parsesOnly s && decide (2 ≤ s.pair.lstate)) (segCheck it.crcOk (fun t => itemTake t it.item)) s)

/-- ITEM_ACK_RECEIVE: the item of the number is acknowledged (R478). -/
def execItemAckReceive (ack : AckSeg) (s : State) : Host.Outcome State Fault Refusal :=
  finishD s (when (selvedge s && s.pair.link) (segCheck ack.crcOk (fun t => ackItem (segSeen t) ack.iseq)) s)

/-- An item has not been acknowledged within 8 picks of its first sending. -/
def itemLate (s : State) (o : OutItem) : Bool := !o.acked && (match o.sentAt with | some p => decide (8 ≤ psDiff (ps s) p) | none => false)
/-- ITEM_ACK_TIMEOUT: an item has not been acknowledged for 8 picks (R478, R480). -/
def execItemAckTimeout (s : State) : Host.Outcome State Fault Refusal :=
  finishD s (when (inSync s && s.pair.outbox.any (itemLate s)) (fun t => pairDown t 3) s)

/-- PARTNER_SILENCE_TIMEOUT: no valid segment for 8 picks (R480). -/
def execPartnerSilenceTimeout (s : State) : Host.Outcome State Fault Refusal :=
  finishD s (when (decide (8 ≤ s.pair.noSeg)) (fun t => pairDown t 2) s)

/-! ### Resynchronisation (R489) -/

/-- The number of the last item that the bulk contains is known as soon as it arrives: later items are held from it on (R489). -/
def bulkBase (s : State) (b : ItemBody) : State := match b with | .base _ => itemIn s b | _ => s
/-- BULK_SEGMENT_RECEIVE: a bulk segment is staged (R489 step 3). -/
def execBulkSegmentReceive (pct : Nat) (seg : BulkSeg) (s : State) : Host.Outcome State Fault Refusal :=
  finishD s (when (selvedge s && s.pair.link && isStandby s && s.pair.lstate = 2 && !s.pair.bulkEnd) (segCheck seg.crcOk (fun t =>
    let u := forEach seg.items bulkBase (segSeen t)
    { u with pair := { u.pair with bulk := u.pair.bulk ++ seg.items.filter (fun b => match b with | .base _ => false | _ => true), bulkPct := min 100 pct } })) s)

/-- BULK_COMPLETE: the whole bulk is staged, and it will be applied at the next bolt boundary (R489 step 3). -/
def execBulkComplete (s : State) : Host.Outcome State Fault Refusal :=
  finishD s (when (isStandby s && s.pair.lstate = 2 && !s.pair.bulkEnd) (fun t => { t with pair := { t.pair with bulkEnd := true, bulkPct := 100 } }) s)
/-- The staged bulk is applied at a bolt boundary (R489 step 3). -/
def bulkApply (s : State) : State :=
  if isStandby s = true ∧ s.pair.lstate = 2 ∧ s.pair.bulkEnd = true ∧ s.pair.bulkDone = false then
    forEach s.pair.bulk itemIn { s with pair := { s.pair with bulk := [], bulkDone := true, frames := 0 } }
  else s

/-- PAIR_IN_SYNC: one full bolt of state frames without loss. -/
def execPairInSync (s : State) : Host.Outcome State Fault Refusal :=
  finishD s (when (isStandby s && s.pair.lstate = 2 && s.pair.bulkDone && decide (32 ≤ s.pair.frames)) syncEnter s)

/-! ### The markers and down frames a standby reads (R35, R161, R483) -/

/-- STANDBY_MARKER_RECEIVE: a valid marker of the active controller, of its cold bolt or running (R35, R483). Only a running one begins
the judgement of silent picks; after a change of pick length, the first one at the new length, which ends the wait for it (R24). -/
def execStandbyMarkerReceive (_b : BranchNo) (m : MarkerSeen) (s : State) : Host.Outcome State Fault Refusal :=
  finishD s (when (isStandby s) (fun t =>
    let wait := t.clk.plenStop = 2 && !(m.running && markerPlen m.value = t.clk.plenNew)
    let u : State := { t with clk := { t.clk with pstamp := markerStamp m.running m.value, plen := markerPlen m.value, started := true, markers := true,
                                                  plenStop := if t.clk.plenStop = 2 && !wait then 0 else t.clk.plenStop },
                              pair := { t.pair with judge := t.pair.judge || (m.running && !wait) } }
    { u with clk.pickOut := pickOutNow u }) s)

/-- The records of a down frame: node, KREQ of each (R115, R220 to R222). -/
def downReqs : Nat → Bytes → List (Nat × Nat)
  | 0, _ => []
  | _, [] => []
  | k + 1, p =>
    let edge := rdLe p 0 2 / 32 % 4 = 1
    let n := if edge then 14 else 8
    (rdLe p 0 2 / 1024, rdLe p (n - 1) 1 / 64) :: downReqs k (p.drop n)
/-- A node's record carried KREQ: its strongest value and its first pick since the last transmission (R161). -/
def kreqNote (p : BitVec 32) (k : Nat) (d : Node) : Node :=
  { d with kreqSeen := match d.kreqSeen with | some (j, n0) => some (max j k, n0) | none => some (k, p) }
/-- The records of a down frame: as many as NREC says, to the end of the payload, with reserved bits 0 (R111, R115, R219 to R222). -/
def downRecsOk : Nat → Bytes → Bool
  | 0, p => p.isEmpty
  | k + 1, p =>
    let fmt := rdLe p 0 2 / 32 % 4
    let n := if fmt = 1 then 14 else 8
    let body := rdLe p 2 (n - 2)
    let res := if fmt = 0 then nbits body 45 1 else if fmt = 1 then nbits body 90 4 else if fmt = 2 then nbits body 18 18 else nbits body 25 20
    decide (n ≤ p.length) && decide (rdLe p 0 2 % 8 = 0) && decide (res = 0) && downRecsOk k (p.drop n)
/-- A down frame passes R109 and R111 on its branch (R114). -/
def downValid (b : Nat) (f : Bytes) : Bool :=
  decide (10 ≤ f.length) && rdLe f (f.length - 4) 4 = crc32c (f.take (f.length - 4)) && rdLe f 0 2 = 16384 + b * 256 + 16 + 1 &&
    decide (frTspec f / 2 ^ 28 = 0) && decide (frTspec f / 256 % 256 ≤ 32) && downRecsOk (frTspec f / 256 % 256) (frPayload f)
/-- STANDBY_DOWN_FRAME_READ: a frame that fails R109 or R111 is corrupted and not read. -/
def execStandbyDownFrameRead (b : BranchNo) (frame : Bytes) (s : State) : Host.Outcome State Fault Refusal :=
  finishD s (when (isStandby s && brEnabled s b && downValid b frame) (fun t =>
    forEach ((downReqs 32 (frPayload frame)).filter (fun p => p.2 != 0)) (fun u p => modNd u p.1 (kreqNote (ps u) p.2))
      (modBr t b (fun r => { r with downRead := true }))) s)

/-! ### The pick that ends, as the pair judges it (R480, R482) -/

/-- What the pair notes at the end of a pick: silence, segments, and the down frames a standby has missed. -/
def pairPickEnd (s : State) : State :=
  let sb := isStandby s
  let read := (List.range 16).any (fun b => (brOf s b).downRead)
  let quiet := sb && s.pair.judge && !s.pair.segNow && !read
  let p := s.pair
  let s1 : State :=
    { s with pair := { p with silent := if quiet then min 255 (p.silent + 1) else 0, syncHeld := if quiet then p.syncHeld else p.lstate = 3,
                              noSeg := if p.segNow then 0 else min 255 (p.noSeg + 1), segNow := false,
                              frames := if sb && p.frameP != ps s then 0 else p.frames } }
  if sb then
    let miss := (brList s).filter (fun b => !(brOf s b).downRead)
    let s2 := forEach miss (fun t b => forEach [4 * b, 4 * b + 1, 4 * b + 2, 4 * b + 3] (fun u n => modNd u n (fun d => { d with downMiss := true })) t) s1
    { s2 with brs := s2.brs.map (fun q => (q.1, { q.2 with downRead := false })) }
  else s1
/-- Kinds 0x01 to 0x06 are of the axis class (R478). -/
def itemAxis (b : ItemBody) : Bool :=
  match b with
  | .axisState .. | .queue .. | .group .. | .feedbackOfs .. | .debounced .. | .homing .. | .acceptance .. | .journal .. => true
  | _ => false
/-- Put an item on the link: for the first time, or again because no acknowledgement has come (R473). A boundary that has passed is named
anew (R478). -/
def outPut (s : State) (o : OutItem) : State :=
  let it : Item := { o.item with pe := if reached o.item.pe (ps s) then peName s o.bolt else o.item.pe }
  let sent : OutItem := { o with item := it, sentAt := some (o.sentAt.getD (ps s)) }
  { s with pair := { s.pair with outbox := s.pair.outbox.map (fun x => if x.item.iseq = it.iseq then sent else x), itemsOut := s.pair.itemsOut ++ [it],
                                 spent := s.pair.spent + Config.itemLen it.iseq.toNat } }
/-- Put items on the link in their order, up to the first that does not fit in the pick (R474). -/
def outAll : List OutItem → State → State
  | [], s => s
  | o :: os, s => if Config.itemLen o.item.iseq.toNat ≤ linkRoom s then outAll os (outPut s o) else s
/-- The bodies of the bulk that the rest of a pick takes, at least one (R474), and what is left of it. -/
def bulkTake : List ItemBody → Nat → Bool → List ItemBody × List ItemBody
  | [], _, _ => ([], [])
  | b :: bs, room, first =>
    let n := Config.bulkLen bs.length
    if first || decide (n ≤ room) then let r := bulkTake bs (room - n) false; (b :: r.1, r.2) else ([], b :: bs)
/-- Send bulk in the capacity that remains (R474 item 3), with its progress. -/
def bulkSend (s : State) : State :=
  let r := bulkTake s.pair.bulkOut (selCap s.clk.plen - s.pair.frameOut.length - s.pair.spent) true
  { s with pair := { s.pair with bulkNow := r.1, bulkOut := r.2, bulkPct := if s.pair.bulkOut = [] then s.pair.bulkPct else (s.pair.bulkAll - r.2.length) * 100 / max 1 s.pair.bulkAll } }
/-- The address of a CAN channel has changed: the partner learns it (R490). -/
def canTell (s : State) : State :=
  forEach (List.range 3) (fun t c =>
    let sa := (canOf t c).sa
    if (tabFind t.pair.saOut c).getD 0xFE = sa then t
    else sendItem { t with pair.saOut := tabSet t.pair.saOut c sa } (.canAddr (Fin.ofNat 3 c) sa)) s
/-- The Selvedge at the start of a pick (R474): the state frame; then the items that wait or have not been acknowledged, axis kinds first;
then bulk. Items that have taken effect are forgotten. Items wait behind the bulk (R489). -/
def pairPickStart (s : State) : State :=
  if selvedge s && s.pair.link then
    let s0 : State := { s with pair := { s.pair with frameOut := stateFrame s, spent := 0, itemsOut := [], acksOut := [], bulkNow := [], forward := none,
                                                     outbox := s.pair.outbox.filter (fun o => !(o.acked && reached o.item.pe (ps s))) } }
    let s1 := when (mirroring s0) canTell s0
    let due := s1.pair.outbox.filter (fun o => !o.acked && o.sentAt != some (ps s))
    let s2 := when ((s1.pair.active || s1.pair.swapSt = 1) && s1.pair.bulkOut.isEmpty)
      (outAll (due.filter (fun o => itemAxis o.item.body) ++ due.filter (fun o => !itemAxis o.item.body))) s1
    when (s2.pair.active && s2.pair.lstate = 2) bulkSend s2
  else s

/-! ### Takeover (R479, R482, R483) -/

/-- The first pick as active: the restorations of R483 step 3, profile steps that catch up from pick p, coding (R161: a channel whose state is not known stays so until its key), echo outputs
(R267), acquisition (R341, R353) and sessions (R372). -/
def takeRun (s : State) (p : BitVec 32) : State :=
  let s1 := forEach (pairAxes s) (fun t a =>
    modAx t a (fun x =>
      let n := if boostOn s x.md then 1 else pnat s 0x0403 a
      let bq : Biq := { x1 := x.lp.iqRef * 256, x2 := x.lp.iqRef * 256, y1 := x.lp.iqRef * 256, y2 := x.lp.iqRef * 256 }
      { x with lp := { x.lp with bq0 := bq, bq1 := bq }, md := { x.md with cA := n, cB := n, cC := n }, sm := { x.sm with missRun := 0 },
               prof := { x.prof with catchUp := some p } })) s
  let s2 := forEach (List.range 16) (fun t g => if (grpMembers t g).isEmpty then t else modGrp t g (fun x => { x with catchUp := some p, mark := none })) s1
  let s3 := forEach ((List.range 64).filter (fun n => (ndOf s2 n).chans.any (fun c => c.st != .live)))
    (fun t n => modNd t n (fun d => { d with sync := .wait false (ps t) })) s2
  let s4 := forEach (List.range 4) (fun t e => setEffect t t (12 * 256 + e)) s3
  let s5 := forEach (List.range 8) unStop s4
  sessRole { forEach (List.range 128) (fun t a => if (tabFind t.kiln.hists a).isSome then histEmpty t a else t) s5 with kiln.trace := [] }

/-- The role passes to this controller: it sends on every powered branch that is not cut (R483). -/
def leadTake (s : State) : State :=
  let s1 := roleSet { s with net := { s.net with phase := .running, contentions := 0 } } true
  { s1 with brs := s1.brs.map (fun q => (q.1, { q.2 with markers := q.2.brpwr && !q.2.cut && !s1.clk.txStopped })),
            pair := { s1.pair with silent := 0, collide := 0, lastTko := ps s1 }, clk := { s1.clk with markers := true } }
/-- The role passes from this controller: it sends nothing, its lanes run nothing, and its acquisition units go to IDLE (R182, R353, R484,
R488). The commands in flight that a standby does not serve are the new active controller's (R479). -/
def leadGive (s : State) : State :=
  let s0 := forEach (List.range 12) (fun t m => modMb t m (fun b => { b with flights := b.flights.filter (fun f => opStandby f.opcode || f.wait = some .done) })) (forEach (List.range 8) unIdle s)
  let s1 := roleSet { s0 with net := { s0.net with phase := .following, toPower := [] } } false
  sessRole { s1 with brs := s1.brs.map (fun q => (q.1, { q.2 with markers := false, markFrom := none, resume := false, readmit := false, rxBuf := [], held := [],
                                                                  xfer := none, retry := none, xfers := [] })),
                     lanes := s1.lanes.map (fun q => (q.1, lnClear q.2)),
                     pair := { s1.pair with silent := 0, collide := 0, judge := true, inbox := [], accepted := [] } }

/-- What the completion of a command that the former active controller executed still waits for on this side (R479): the axis to
enable, the markers of the branch, the download of the image it holds, or the application of its last effect item; none where it
is met. `swapSt` tells whether a swap has brought the role. -/
def flightWaits (s : State) (op : Nat) (pl : Bytes) (es : List (BitVec 32)) : Option Wait :=
  let w0 := word pl 0
  if op = 0x0601 then (if [AxSt.enabled, .moving, .hold].contains (axOf s (w0 % 128)).sm.st then none else some (.enable (w0 % 128)))
  else if op = 0x0405 then some (.readmit (w0 % 16))
  else if op = 0x0407 then (if (ndOf s (w0 % 64)).integrated then some (.mstab (w0 % 64)) else none)
  else match es.getLast? with | some k => if s.pair.inbox.any (fun i => i.iseq == k) then some (.item k) else none | none => none
/-- A command of the former active controller goes on under what its completion waits for: an axis is to be enabled, an image downloaded. -/
def flightGoes (s : State) (w : Wait) : State :=
  match w with
  | .enable a => modSm s a (fun x => { x with enaDue := true })
  | .mstab n => imageSend s n
  | _ => s
/-- A command whose acceptance the new active controller holds without its journal entry is in flight (R479): with every effect item held,
it is completed when its condition is met; else the effect items held are discarded and it is executed from the start. PAIR_SWAP itself
ends with a status `st`: done at the swap pick, and abandoned at a takeover (R488). -/
def flightTake (st : Nat) (s : State) (a : Acceptance) : State :=
  let m := a.entry.master.val
  if (mbOf s m).flights.any (fun f => f.entry.seq == a.entry.seq) then s
  else
    let put := fun (t : State) (w : Option Wait) => modMb t m (fun b => { b with flights := b.flights ++ [{ entry := a.entry, opcode := a.opcode, wait := w }] })
    let done := fun (v : Nat) (pl : Bytes) => let f : Flight := { entry := a.entry, opcode := a.opcode, wait := none }; produce (put s none) m f v pl
    let es := a.effects.getD []
    if a.effects.isSome && es.all (itemHeld s.pair) then
      if a.opcode = 0x0D01 then done st []
      else
        match flightWaits s a.opcode a.entry.payload es with
        | some w => put (flightGoes s w) (some w)
        | none => done 0 (if a.opcode = 0x0407 then words [1] else partnerPayload { entry := a.entry, opcode := a.opcode, wait := none })
    else put { s with pair.inbox := s.pair.inbox.filter (fun i => !es.contains i.iseq) } none

/-- The standby takes over in the present pick (R483). -/
def takeOver (s : State) : State :=
  let p := s.pair.frameP
  let s1 := loomPickStart (takeRun (leadTake s) p)
  let s2 := raise { s1 with clk := { s1.clk with pickOut := pickOutNow s1 },
                            pair := { s1.pair with takeovers := satInc 16 s1.pair.takeovers, accepted := [] } } 0xE103 noInst (le 4 p.toNat)
  forEach s.pair.accepted (flightTake 0xE002) { s2 with clk.lastMarker := some (false, markerValue s2) }

/-- PAIR_TAKEOVER: two consecutive silent picks have ended (R482). SYNC is that of the standby before the silence (R481; DESIGN CHOICE,
log 30). -/
def execPairTakeover (s : State) : Host.Outcome State Fault Refusal :=
  finishD s (when (selvedge s && isStandby s && s.pair.judge && decide (2 ≤ s.pair.silent)) (fun t =>
    if t.pair.lstate = 3 || t.pair.syncHeld then takeOver t
    else raise { t with pair := { t.pair with judge := false, silent := 0 } } 0xE109 noInst []) s)

/-! ### Collision (R484) -/

/-- This controller yields: its epoch is lower, or on equal epochs it has role B. -/
def yields (s : State) : Bool := decide (s.warp.epoch.toNat < s.pair.pEpoch.toNat) || (s.warp.epoch = s.pair.pEpoch && roleB s)
/-- PAIR_COLLISION: two consecutive colliding picks. -/
def execPairCollision (s : State) : Host.Outcome State Fault Refusal :=
  finishD s (when (s.pair.en && s.net.phase = .running && decide (2 ≤ s.pair.collide)) (fun t =>
    let u : State := { t with pair := { t.pair with collide := 0, collisions := satInc 16 t.pair.collisions } }
    if yields u then raise (pairDown (leadGive u) 1) 0xE106 noInst []
    else raise u 0xE105 noInst []) s)

/-! ### Planned swap (R486 to R488) -/

/-- The conditions of R487. Whether the partner verifies firmware is the partner's matter: a free value (log 2). -/
def swapCond (s : State) : State × Bool :=
  let partner := Config.freeBool s.freeCtr
  ({ s with freeCtr := s.freeCtr + 1 },
   s.pair.active && inSync s && decide (32 ≤ s.pair.syncBolts) && s.warp.running.isNone && s.warp.queue.isEmpty && !s.fw.programming &&
     !(List.range 12).any (fun m => (mbOf s m).flights.any (fun f => f.wait = some .fwVerify)) && !partner)
/-- Name the swap pick: pick 0 of the second bolt after acceptance (R488). The partner learns it by an item. -/
def swapName (s : State) : State :=
  let p := s.pair.swapAt.getD (nextBolt s + 32)
  sendItem { s with pair.swapAt := some p } (.swapPick p)
/-- PAIR_SWAP as the standby forwards it: a command of master 9 with the next number of that master (R403, R487). -/
def swapForward (s : State) : State :=
  { s with pair.forward := some { master := 9, seq := (mbOf s 9).sNext, tag := 0, fence := false, payload := [] } }
/-- PAIR_SWAP (R487): a standby forwards it to the active controller. -/
def pairSwapRun (s : State) (m : Nat) (pl : Bytes) : State × CmdRes :=
  checked s [(pl.length = 0, 0x2002), (hasRights s m 7 rCOMMIT, 0x2005)]
    (if isStandby s then (if inSync s then (swapForward s, .wait .swap) else (s, .fin 0xE002 []))
     else
       let c := swapCond s
       if c.2 then (swapName c.1, .wait .swap) else (c.1, .fin 0xE002 []))
/-- PAIR_SWAP. -/
def execPairSwap (e : CmdEntry) (s : State) : Host.Outcome State Fault Refusal := finishD s (command s e 0x0D01 pairSwapRun)

/-- The pair has been in SYNC for PAIR_SWAP_AUTO hours, up to the bolt in which the clock of the model stands (R486). -/
def swapHours (s : State) : Bool :=
  pnat s 0x0B02 0 != 0 && decide (s.pair.syncT + pnat s 0x0B02 0 * 3600 * second ≤ s.clk.now + 32 * tPick s)
/-- The active controller starts a swap itself: a command of master 0 (R486), accepted, mirrored and in flight as one of a host. -/
def swapAuto (s : State) : State :=
  let e : CmdEntry := { master := 0, seq := (mbOf s 0).sNext, tag := 0, fence := false, payload := [] }
  let t := takeIn s e 0x0D01
  settle 0 { entry := e, opcode := 0x0D01, wait := none } t.pair.iseqSent (swapName t, .wait .swap)
/-- PAIR_SWAP_AUTO_EXPIRY: the pair has been in SYNC for PAIR_SWAP_AUTO hours; the swap starts at the first bolt at which R487 allows it
(R486), unless one is under way. -/
def execPairSwapAutoExpiry (s : State) : Host.Outcome State Fault Refusal :=
  finishD s (when (s.pair.active && inSync s && swapHours s && s.pair.swapAt.isNone) (fun t =>
    let c := swapCond t
    if c.2 then swapAuto c.1 else c.1) s)

/-- The swap pick (R488): the active controller becomes standby, the other takes the role; nothing is computed in this pick. -/
def swapPick (s : State) : State :=
  let done := fun (t : State) (st : Nat) =>
    raise { t with pair := { t.pair with swapAt := none, swapSt := st, swaps := satInc 16 t.pair.swaps, lastTko := ps t } } 0xE104 noInst []
  if s.pair.active then done (leadGive (completeWaits s (fun w => w = .swap) 0 [])) 1
  else
    let s1 := leadTake (completeWaits s (fun w => w = .swap) 0 [])
    done { s1 with clk := { s1.clk with pickOut := pickOutNow s1, lastMarker := some (false, markerValue s1) } } 2
/-- PAIR_SWAP_PICK. -/
def execPairSwapPick (s : State) : Host.Outcome State Fault Refusal :=
  finishD s (when (s.pair.swapAt = some (ps s) && inSync s) swapPick s)
/-- The pick after the swap pick: the new active runs under R483 from the state frame of the swap pick, with the commands of the former one
that are in flight (R479); the former one is standby. -/
def swapEnd (s : State) : State :=
  if s.pair.swapSt = 0 ∨ s.pair.lastTko = ps s then s
  else if s.pair.swapSt = 2 then
    forEach s.pair.accepted (flightTake 0) (takeRun { s with pair := { s.pair with swapSt := 0, accepted := [] } } s.pair.frameP)
  else { s with pair := { s.pair with swapSt := 0, outbox := [] } }

/-! ### PAIR_STATUS (R493) -/

/-- The words of PAIR_STATUS. -/
def pairWords (s : State) : List Nat :=
  let p := s.pair
  let id := p.partner
  let role := (id.map (·.role)).getD 0
  let csid := (id.map (fun x => x.csid.toNat)).getD 0
  let pver := (id.map (·.pver)).getD 0
  [p.lstate + 8 * b2n p.active + role % 4 * 16, csid / 2 ^ 32 % 8 + p.bulkPct * 256 + pver % 256 * 65536, csid % 2 ^ 32, p.pEpoch.toNat, p.lastTko.toNat,
   p.segBad, p.drops + p.collisions * 65536, p.takeovers + p.swaps * 65536]
/-- The execution of PAIR_STATUS. -/
def pairStatusRun (s : State) (m : Nat) (pl : Bytes) : State × CmdRes :=
  checked s [(pl.length = 0, 0x2002), (hasRights s m 7 rREAD, 0x2005)] (s, .fin 0 (words (pairWords s)))
/-- PAIR_STATUS. -/
def execPairStatus (e : CmdEntry) (s : State) : Host.Outcome State Fault Refusal := finishD s (command s e 0x0D02 pairStatusRun)

end Sys2Proof.Machine
end

