-- ==== Sys2Proof/Machine/StartUp.lean ====
section
/-! DEFINITION. Reset, supply and start-up (R495 to R499, R523, R525), images (R500 to R503), firmware update (R504), memory
initialisation and scrubbing (R506 to R509), and the die temperature (R529). -/
namespace Sys2Proof.Machine

/-! ### Reset -/

/-- The chip is held in reset: nRESET is low, or a monitored rail is below its threshold (R495, R523). -/
def heldReset (s : State) : Bool := s.boot.nresetLow || !s.boot.badRails.isEmpty

/-- The Damper at a restart: every group in RESTART with cause 0x1 but those whose LOCKOUT the retention register keeps (R446, R496). An
internal fault halts it until nRESET (R460). The level of nSAFE_RST is that of its pin. -/
def dmpReset (d : Damper) (hard : Bool) : Damper :=
  { sogs := ((List.range 4).filter (fun g => d.retain.getLsbD g)).map (fun g => (g, { st := 3, cause := (sogOf d g).cause })),
    retain := d.retain, halted := !hard && d.halted, pinLow := d.pinLow }

/-- The chip starts again at step 1 of R495 with a CAUSE (R497). What the boot flash, the OTP cells and the audit log hold stays; what lasts
until nRESET stays through any other restart: the role and PAIR_EN in effect (R413, R471), stopped transmission (R22), stopped
lanes (R181) and a halted Damper. Counters of free values go on. -/
def chipReset (s : State) (cause : Nat) : State :=
  let hard := decide (cause = 0)
  let b := s.boot
  { State.reset with
    boot := { nresetLow := b.nresetLow, badRails := b.badRails, cause := cause, prefB := b.prefB, dirTrial := b.dirTrial, dirFails := b.dirFails,
              cfgA := b.cfgA, cfgB := b.cfgB, dieTemp := b.dieTemp,
              afterReady := if cause = 1 then [(0xF107, noInst)] else if cause = 3 then [(0xF104, noInst)] else [] },
    clk := { txStopped := !hard && s.clk.txStopped },
    lanes := if hard then [] else (s.lanes.filter (fun q => q.2.dead)).map (fun q => (q.1, { dead := true, stopped := true })),
    acc := { words := s.acc.words, counts := s.acc.counts, keys := s.acc.keys, role := s.acc.role, roleNow := if hard then 0 else s.acc.roleNow,
             safUsed := s.acc.safUsed, arb := s.acc.arb, dbgOff := s.acc.dbgOff, log := s.acc.log, nextAseq := s.acc.nextAseq },
    pair := { en := !hard && s.pair.en },
    eth := { draws := s.eth.draws },
    dmp := dmpReset s.dmp hard,
    freeCtr := s.freeCtr }

/-- NRESET_ASSERT: a low pulse of under 1 µs never resets, one of 4 µs or more always does, and between the two the outcome is open:
a free value (R525, log 2). -/
def execNresetAssert (lowNs : Nat) (s : State) : Host.Outcome State Fault Refusal :=
  finishAll s
    (let low := fun (t : State) => chipReset { t with boot.nresetLow := true } 0
     if lowNs < 1000 then s
     else if 4000 ≤ lowNs then low s
     else
       let t : State := { s with freeCtr := s.freeCtr + 1 }
       if Config.freeBool s.freeCtr then low t else t)

/-- NRESET_RELEASE: start-up begins with PLL lock (R495). -/
def execNresetRelease (s : State) : Host.Outcome State Fault Refusal := finishD s { s with boot.nresetLow := false }

/-- Millivolts of a rail's Damper window, reset threshold and release threshold (R523). -/
def railLimits (r : Rail) : (Nat × Nat) × Nat × Nat :=
  match r with
  | .vddCore => ((740, 860), 700, 720)
  | .vdda18 => ((1660, 1940), 1550, 1600)
  | .vddio33 => ((3050, 3550), 2800, 2900)

/-- A rail leaves its window: for 50 µs it is an internal fault of the Damper (R460). Below the supervisor's threshold, for 1 µs or more,
it first opens every group and then resets the chip; the core supply takes the retention register with it (R446, R523). -/
def supplyOut (s : State) (rail : Rail) (mV durNs : Nat) : State :=
  let l := railLimits rail
  let under := decide (mV < l.2.1) && decide (1000 ≤ durNs)
  let window := (decide (mV < l.1.1) || decide (l.1.2 < mV)) && decide (50000 ≤ durNs)
  let s1 := when (dmpLive s && (under || window)) dmpFault s
  if under then
    let s2 := if rail = .vddCore then { s1 with dmp.retain := 0 } else s1
    chipReset { s2 with boot.badRails := if s2.boot.badRails.contains rail then s2.boot.badRails else rail :: s2.boot.badRails } 0
  else s1

/-- SUPPLY_OUT_OF_RANGE. -/
def execSupplyOutOfRange (rail : Rail) (mV durNs : Nat) (s : State) : Host.Outcome State Fault Refusal := finishAll s (supplyOut s rail mV durNs)

/-- SUPPLY_RESTORED: the internal reset is released once every rail is above its release threshold. -/
def execSupplyRestored (rail : Rail) (mV : Nat) (s : State) : Host.Outcome State Fault Refusal :=
  finishD s (when (decide ((railLimits rail).2.2 < mV)) (fun t => { t with boot.badRails := t.boot.badRails.filter (fun r => r != rail) }) s)

/-! ### Start-up (R495) -/

/-- Start-up is at a step: the one before it has completed, and nothing holds or has stopped it. -/
def atStep (s : State) (k : Nat) : Bool := !heldReset s && !s.boot.halted && s.boot.stage = k
/-- Start-up stops with an ERR until nRESET (R495). -/
def bootStop (s : State) (err : Nat) : State := { s with boot := { s.boot with err := err, halted := true } }

/-- PLL_LOCK_ACHIEVED: the time stamp starts at 0 (R21, R495 step 1). Lock found again later restarts nothing. -/
def execPllLockAchieved (s : State) : Host.Outcome State Fault Refusal :=
  finishD s
    (if atStep s 0 = true ∧ s.clk.locked = false then
      { s with clk := { s.clk with locked := true, now := 0, pickT0 := 0 }, boot := { s.boot with stage := 1, err := 0 } }
     else when (!heldReset s && decide (1 ≤ s.boot.stage)) (fun t => { t with clk.locked := true }) s)

/-- The codes of one branch after self-calibration, with the events due after READY (R89, R499). -/
def calPut (s : State) (p : Nat × CalCode) : State :=
  let d := min p.2.drv 31
  let t := clamp (-128) 127 p.2.trim
  let dl := decide (d = 0 ∨ d = 31)
  let tl := decide (t = -128 ∨ t = 127)
  let s1 := modBr s p.1 (fun r => { r with drv := d, trim := t, drvLim := dl, trimLim := tl })
  { s1 with boot.afterReady := s1.boot.afterReady ++ List.replicate (b2n dl + b2n tl) (0x3106, p.1) }

/-- SELF_CALIBRATION_DONE (R499). -/
def execSelfCalibrationDone (codes : List CalCode) (s : State) : Host.Outcome State Fault Refusal :=
  finishD s (when (atStep s 1) (fun t => forEach ((List.range 16).zip codes) calPut { t with boot.stage := 2 }) s)

/-- DDR_TRAINING_DONE: retried once, then start-up stops (R495 step 3). -/
def execDdrTrainingDone (ok : Bool) (s : State) : Host.Outcome State Fault Refusal :=
  finishD s (when (atStep s 2) (fun t =>
    if ok then { t with boot.stage := 3 }
    else if t.boot.ddrRetried then bootStop t 2 else { t with boot.ddrRetried := true }) s)

/-- Steps 1 and 2 of image selection (R503). -/
def imageSelect (b : Boot) : Boot :=
  let b1 := if b.dirTrial && b.dirFails = 3 then
      { b with prefB := !b.prefB, dirTrial := false, dirFails := 0, afterReady := b.afterReady ++ [(0xF105, noInst)] } else b
  if b1.dirTrial then { b1 with dirFails := min 3 (b1.dirFails + 1) } else b1

/-- DDR_ZEROING_DONE: the fixed regions are zero (R506), and image selection begins. -/
def execDdrZeroingDone (ok : Bool) (s : State) : Host.Outcome State Fault Refusal :=
  finishM s (when (atStep s 3) (fun t => if ok then { t with ddr := [], boot := { imageSelect t.boot with stage := 4 } } else bootStop t 3) s)

/-- An image is valid (R502). -/
def imageOk (s : State) (i : ImageInfo) : Bool :=
  i.magic = 0x5446 && i.hver = 1 && i.fwline = 4 && decide (1 ≤ i.blen) && decide (i.blen ≤ 6291328) && decide (s.acc.arb ≤ i.arb) && decide (i.arb ≤ 64) && i.hashOk && i.sigOk

/-- The preferred image boots, or the other one, or start-up stops (R503 steps 3 and 4). -/
def imageBoot (s : State) (a b : ImageInfo) : State :=
  let img := fun (isB : Bool) => if isB then b else a
  let boot := fun (isB : Bool) =>
    { s with boot := { s.boot with stage := 5, slotB := isB, trial := s.boot.dirTrial && isB == s.boot.prefB, arb := (img isB).arb, pver := (img isB).pver } }
  if imageOk s (img s.boot.prefB) then boot s.boot.prefB
  else if imageOk s (img (!s.boot.prefB)) then boot (!s.boot.prefB)
  else bootStop s 4

/-- IMAGE_VERIFIED. -/
def execImageVerified (slotA slotB : ImageInfo) (s : State) : Host.Outcome State Fault Refusal :=
  finishD s (when (atStep s 4) (fun t => imageBoot t slotA slotB) s)

/-- The configuration area: copies that fail their check are not valid, and the newer valid one sets the kept parameters (R505). -/
def cfgLoad (s : State) (chk : FlashCheck) : State :=
  let a : CfgCopy := if chk.copyAOk then s.boot.cfgA else {}
  let b : CfgCopy := if chk.copyBOk then s.boot.cfgB else {}
  let s1 : State := { s with boot := { s.boot with cfgA := a, cfgB := b } }
  let cur := if cfgB? s1.boot then b else a
  if cur.written then { s1 with par.force := cur.pars } else { s1 with boot.afterReady := s1.boot.afterReady ++ [(0xF106, noInst)] }
/-- The access tables: an image that fails restores the default tables (R408). -/
def tablesLoad (s : State) (chk : FlashCheck) : State :=
  if chk.tablesOk then s
  else
    let s1 := auditAdd { s with acc := { s.acc with words := [], counts := [] } } 0 0 0x08 (otpSnap s.acc) 0 0
    { s1 with boot.afterReady := s1.boot.afterReady ++ [(0xB103, noInst)] }
/-- The audit check (R414, R419): a last record ahead of the cells is named as not applied, then the chain and the anchor are checked. A
record of this start-up's restored tables stands behind that last one. -/
def auditCheck (s : State) (chk : FlashCheck) : State :=
  let s1 := match s.acc.log.dropWhile (fun r => r.kind = 8) with
    | r :: _ => if kindOtp r.kind && r.snap != otpSnap s.acc then auditAdd s 0 0 0x09 (otpSnap s.acc) 0 r.aseq else s
    | [] => s
  { s1 with acc := { s1.acc with chainOk := chk.chainBadAt.isNone, anchorOk := anchorHolds s1.acc } }
/-- AUDIT_BROKEN with the first ASEQ in doubt: the record whose chain fails, else the oldest kept. -/
def auditEvent (s : State) (chk : FlashCheck) : State :=
  let oldest := ((s.acc.log.getLast?).map (·.aseq)).getD 0
  when (!(s.acc.chainOk && s.acc.anchorOk)) (fun t => raise t 0xB104 noInst (le 4 (chk.chainBadAt.getD oldest))) s
/-- The booted image in trial is confirmed, and the anti-rollback counter raised to its level (R413, R503). Without an audit record nothing
is consumed, and where the cells fail, the steps that rose stay risen; how many is free (R414; log 127). -/
def trialConfirm (s : State) (io : IoResult) : State :=
  if s.boot.trial then
    let s1 : State := { s with boot := { s.boot with trial := false, dirTrial := false, dirFails := 0 } }
    if s.acc.arb < s.boot.arb then
      let up := fun (v : Nat) (t : State) => { t with acc.arb := v }
      let s2 := auditAdd s1 0 0 0x06 (otpSnap (up s.boot.arb s1).acc) s.acc.arb s.boot.arb
      let d := drawNat s2
      let s3 := if io.otpOk then up s.boot.arb s2 else up (s.acc.arb + d.2 % (s.boot.arb - s.acc.arb + 1)) d.1
      if io.auditOk then otpLow s3 s.acc.arb s3.acc.arb 60 64 else s1
    else s1
  else s

/-- Firmware start and READY (R495 steps 6 and 7, R496). -/
def firmwareStart (s : State) (chk : FlashCheck) : State :=
  let s1 := auditCheck (tablesLoad (cfgLoad s chk) chk) chk
  let fresh := s1.boot.cause = 0
  let en := if fresh then pnat s1 0x0B00 0 = 1 else s1.pair.en
  let s2 : State :=
    { s1 with acc.roleNow := if fresh then s1.acc.role else s1.acc.roleNow,
              pair := { s1.pair with en := en, active := !en },
              par.force := tabSet s1.par.force (pkey 0x0A08 0) (masterEnFix s1 (pnat s1 0x0A08 0) : Int),
              boot := { s1.boot with stage := 7, ready := true, afterReady := [] },
              qspi.readyChg := true }
  let s3 := auditEvent (forEach s1.boot.afterReady (fun t e => raise t e.1 e.2 []) (trialConfirm s2 chk.io)) chk
  let s4 := forEach (List.range 3) canRestart s3
  when (!s4.clk.txStopped) powerUp s4

/-- FIRMWARE_START_DONE. -/
def execFirmwareStartDone (chk : FlashCheck) (s : State) : Host.Outcome State Fault Refusal :=
  finishD s (when (atStep s 5) (fun t => firmwareStart t chk) s)

/-- WATCHDOG_EXPIRY: firmware that runs has not serviced the watchdog for 100 ms (R498). -/
def execWatchdogExpiry (s : State) : Host.Outcome State Fault Refusal :=
  finishAll s (when (!heldReset s && !s.boot.halted && decide (5 ≤ s.boot.stage)) (fun t => chipReset t 1) s)

/-- PLL_LOCK_LOSS: transmission on every branch and the Selvedge stops until nRESET (R22). In step 1 of start-up the lock is not found:
ERR reads 0x1 while it is retried (R495; DESIGN CHOICE, log 46). -/
def execPllLockLoss (s : State) : Host.Outcome State Fault Refusal :=
  finishD s (if atStep s 0 = true ∧ s.clk.locked = false then { s with boot.err := 1 } else when (!heldReset s && s.clk.locked) (fun t =>
    let u : State :=
      { t with clk := { t.clk with locked := false, txStopped := true, markers := false, pickOut := 0 }, net := { t.net with phase := .off, toPower := [] },
               brs := t.brs.map (fun q => (q.1, { q.2 with markers := false, markFrom := none, resume := false })) }
    if t.boot.ready then raise (pairDown { u with pair.link := false } 1) 0xF101 noInst []
    else { u with boot.afterReady := u.boot.afterReady ++ [(0xF101, noInst)] }) s)

/-! ### DDR (R506 to R509) -/

/-- DDR_INIT_GRANULE: the next pool granule is zeroed; the last one sets DDR_DONE. -/
def execDdrInitGranule (s : State) : Host.Outcome State Fault Refusal :=
  finishD s (when (s.boot.ready && decide (s.boot.granule < 3840)) (fun t =>
    let u : State := { t with boot.granule := t.boot.granule + 1 }
    if u.boot.granule = 3840 then raise { u with boot.ddrDone := true } 0xF103 noInst [] else u) s)

/-- First burst of the pool. -/
def poolBurst : Nat := 4194304
/-- The scrubber may read a burst: pool granules once they have been zeroed (R509). -/
def scrubReady (s : State) : Bool :=
  s.boot.ready && (decide (s.boot.scrubAt < poolBurst) || decide ((s.boot.scrubAt - poolBurst) / 16384 < s.boot.granule))
/-- The scrubber goes on to the next burst; a pass ends behind the last one. -/
def scrubNext (s : State) : State :=
  if s.boot.scrubAt = 67108863 then { s with boot := { s.boot with scrubAt := 0, scrubT := s.clk.now } }
  else { s with boot.scrubAt := s.boot.scrubAt + 1 }
/-- Mark block `k` of a list as lost. -/
def blockLose (k : Nat) (ks : List KBlock) : List KBlock :=
  ks.take k ++ ((ks.drop k).take 1).map (fun b => { b with lost := true }) ++ ks.drop (k + 1)
/-- Mark block `k` of what captures hold as lost. -/
def capsLose : Nat → List Capture → List Capture
  | _, [] => []
  | k, c :: cs => if k < c.blocks.length then { c with blocks := blockLose k c.blocks } :: cs else c :: capsLose (k - c.blocks.length) cs
/-- An uncorrectable error in a burst of the pool (R507): the block that holds the word, in the region that holds the burst, is not used
again. Which block of the region that is, or none, is free (log 125). -/
def poolLose (s : State) (burst : Nat) : State :=
  let g := (burst - poolBurst) / 16384
  let d := drawNat s
  match s.warp.place.acq.find? (fun p => decide (p.2.1 ≤ g) && decide (g < p.2.1 + p.2.2)) with
  | some p =>
    modUn d.1 p.1 (fun x =>
      let n := nsum (x.caps.map (fun c => c.blocks.length))
      let k := d.2 % (n + x.blocks.length + 1)
      { x with caps := capsLose k x.caps, blocks := if k < n then x.blocks else blockLose (k - n) x.blocks })
  | none =>
    match s.warp.place.axes.find? (fun p => !p.unplaced && decide (p.poolBase ≤ g) && decide (g < p.poolBase + p.poolSize)) with
    | some p => modHi d.1 p.axis (fun h => { h with blocks := blockLose (d.2 % (h.blocks.length + 1)) h.blocks })
    | none => s
/-- What one scrubbed burst meets (R507). -/
def scrubBurst (s : State) (ecc : EccResult) : State :=
  match ecc with
  | .clean => scrubNext s
  | .corrected => scrubNext { s with boot.corr := satInc 32 s.boot.corr }
  | .uncorrectable =>
    if s.boot.scrubAt < poolBurst then chipReset s 3
    else
      let at' := s.boot.scrubAt
      scrubNext { poolLose s at' with
        boot := { s.boot with uncorr := satInc 16 s.boot.uncorr,
                              lostBursts := if s.boot.lostBursts.contains at' then s.boot.lostBursts else at' :: s.boot.lostBursts } }
/-- DDR_SCRUB_BURST. -/
def execDdrScrubBurst (ecc : EccResult) (s : State) : Host.Outcome State Fault Refusal := finishAll s (when (scrubReady s) (fun t => scrubBurst t ecc) s)

/-- TJ_HIGH: the sensor has read 150 °C or more for 1 s; raised again only after the reading has fallen below 145 °C (R529). While picks
run, the reading is the one each of them samples; before that the row brings it (DESIGN CHOICE, log 126). Before READY the event waits. -/
def execTjHigh (s : State) : Host.Outcome State Fault Refusal :=
  finishD s (when (!heldReset s && (!s.clk.started || decide (150 * 256 ≤ s.boot.dieTemp)) && !s.boot.tjHigh) (fun t =>
    let u : State := { t with boot := { t.boot with tjHigh := true, dieTemp := if t.clk.started then t.boot.dieTemp else max t.boot.dieTemp (150 * 256) } }
    if t.boot.ready then raise u 0xF108 noInst [] else { u with boot.afterReady := u.boot.afterReady ++ [(0xF108, noInst)] }) s)

/-! ### Firmware update (R504) -/

/-- Base of the firmware update staging region (R57). -/
def stagingBase : Nat := 0x08400000
/-- FW_VERIFY commands that wait complete with a status. -/
def fwAnswer (s : State) (st : Nat) : State := completeWaits s (fun w => w = .fwVerify) st []
/-- A command of the firmware update addresses target 5 with UPDATE. -/
def fwRights (s : State) (m : Nat) : Bool × Nat := (hasRights s m 5 rUPDATE, 0x2005)

/-- FW_BEGIN: an update in progress is discarded, and the target slot is erased in the background. A restart that a completed
FW_ACTIVATE has begun still comes (R504). -/
def fwBeginRun (s : State) (m : Nat) (pl : Bytes) : State × CmdRes :=
  checked s [(pl.length = 8, 0x2002), fwRights s m, (decide (129 ≤ word pl 0) && decide (word pl 0 ≤ 6291456), 0xF002)]
    ({ fwAnswer s 0xF001 with fw := { begun := true, bytes := word pl 0, iver := word pl 1, erasing := true, restartDue := s.fw.restartDue } }, .fin 0 [])

/-- FW_DATA: bytes at an offset of the staging region. -/
def fwDataRun (s : State) (m : Nat) (pl : Bytes) : State × CmdRes :=
  let n := pl.length - 4
  let off := word pl 0
  checked s
    [(decide (8 ≤ pl.length) && decide (pl.length ≤ 1004), 0x2002), fwRights s m, (s.fw.begun, 0xF001), (decide (off + n ≤ s.fw.bytes), 0x2004)]
    ({ s with ddr := memWriteBytes s.ddr (stagingBase + off) (pl.drop 4), fw.filled := s.fw.filled ++ [(off, n)] }, .fin 0 [])

/-- How far ranges in ascending order cover the bytes from 0. -/
def covered (rs : List (Nat × Nat)) : Nat :=
  (sortBy (fun (x y : Nat × Nat) => decide (x.1 < y.1)) rs).foldl (fun e r => if r.1 ≤ e then max e (r.1 + r.2) else e) 0
/-- The staged image (R501). -/
def staged (s : State) : Bytes := memReadBytes s.ddr stagingBase s.fw.bytes
/-- The status of the staged image under R502. -/
def stagedStatus (s : State) (img : Bytes) : Nat :=
  let blen := word img 3
  let body := (img.drop 128).take blen
  let ok := word img 0 / 65536 = 0x5446 && word img 0 % 256 = 1 && word img 2 / 256 % 256 = 4 && decide (1 ≤ blen) && decide (blen ≤ 6291328) &&
    decide (128 + blen ≤ img.length) && decide (word img 2 % 256 ≤ 64) && sha256 body == (img.drop 16).take 32 && Config.sigOk (img.take 48) ((img.drop 48).take 64)
  if !ok then 0xF002 else if word img 2 % 256 < s.acc.arb then 0xF003 else 0

/-- FW_VERIFY: the staged image is checked, and the slot is programmed once its erase has ended. -/
def fwVerifyRun (s : State) (m : Nat) (pl : Bytes) : State × CmdRes :=
  checked s [(pl.length = 0, 0x2002), fwRights s m, (s.fw.begun && !s.fw.programming && decide (s.fw.bytes ≤ covered s.fw.filled), 0xF001)]
    (let st := stagedStatus s (staged s)
     if st ≠ 0 then (s, .fin st [])
     else if s.fw.erasing then (s, .wait .fwVerify)
     else if s.fw.eraseBad then (s, .fin 0xF004 [])
     else ({ s with fw := { s.fw with programming := true, verified := false } }, .wait .fwVerify))

/-- FW_SLOT_ERASE_DONE: a verification that waits for the erase goes on to programming. -/
def execFwSlotEraseDone (ok : Bool) (s : State) : Host.Outcome State Fault Refusal :=
  finishD s (when s.fw.erasing (fun t =>
    let u : State := { t with fw := { t.fw with erasing := false, eraseBad := !ok } }
    let waits := (List.range 12).any (fun m => (mbOf u m).flights.any (fun f => f.wait = some .fwVerify))
    if waits && ok then { u with fw := { u.fw with programming := true, verified := false } } else fwAnswer u 0xF004) s)

/-- FW_SLOT_PROGRAM_DONE: programming and read-back have ended. -/
def execFwSlotProgramDone (ok : Bool) (s : State) : Host.Outcome State Fault Refusal :=
  finishD s (when s.fw.programming (fun t => fwAnswer { t with fw := { t.fw with programming := false, verified := ok } } (if ok then 0 else 0xF004)) s)

/-- Every axis is DISABLED, READY or SAFE_OFF. -/
def axesIdle (s : State) : Bool := (List.range 128).all (fun a => axIn s a [.disabled, .ready, .safeOff])
/-- FW_ACTIVATE: the verified slot becomes preferred, in trial (R491, R504). -/
def fwActivateRun (s : State) (m : Nat) (pl : Bytes) : State × CmdRes :=
  checked s
    [(pl.length = 0, 0x2002), fwRights s m, (s.fw.verified, 0xF001), (!(s.pair.en && s.pair.active && inSync s), 0xE003), (s.pair.en || axesIdle s, 0xF001)]
    ({ s with boot := { s.boot with prefB := !s.boot.slotB, dirTrial := true, dirFails := 0 }, fw.restartDue := true }, .fin 0 [])

/-- FW_BEGIN. -/
def execFwBegin (e : CmdEntry) (s : State) : Host.Outcome State Fault Refusal := finishD s (command s e 0x0E01 fwBeginRun)
/-- FW_DATA. -/
def execFwData (e : CmdEntry) (s : State) : Host.Outcome State Fault Refusal := finishM s (command s e 0x0E02 fwDataRun)
/-- FW_VERIFY. -/
def execFwVerify (e : CmdEntry) (s : State) : Host.Outcome State Fault Refusal := finishD s (command s e 0x0E03 fwVerifyRun)
/-- FW_ACTIVATE. -/
def execFwActivate (e : CmdEntry) (s : State) : Host.Outcome State Fault Refusal := finishD s (command s e 0x0E04 fwActivateRun)
/-- FW_ACTIVATE_RESTART (R504). -/
def execFwActivateRestart (s : State) : Host.Outcome State Fault Refusal := finishAll s (when s.fw.restartDue (fun t => chipReset t 2) s)

end Sys2Proof.Machine
end

