-- ==== Sys2Proof/Machine/Cycle.lean ====
section
/-! DEFINITION. The start of a pick and the end of a bolt (R25, R28), and the alignment to a host clock (R37 to R39). -/
namespace Sys2Proof.Machine

/-! ### Host clock (R37 to R39) -/

/-- PTP messages are used on this MAC (R37, R517). -/
def ptpOn (s : State) (mac : Nat) : Bool :=
  s.boot.ready && pnat s 0x0A20 0 = 1 && pnat s 0x0A21 0 = mac && pnat s 0x0A00 mac != 0
/-- A message of the supported subset and of the configured domain (R37). -/
def ptpValid (s : State) (mac : Nat) (msg : PtpMsg) : Bool :=
  ptpOn s mac && !msg.ipv6 && !msg.otherProfile && (match msg.kind with | .peerDelay => false | _ => true) && decide (msg.domain ≤ 127) &&
    pnat s 0x0A22 0 = msg.domain
/-- A Sync that left at host time `h` and arrived at time stamp `t` gives a sample: the host time at its arrival (R37, R38). -/
def ptpSync (t h : Nat) (p : Ptp) : Ptp := { p with sync := none, last := some (t, h), sample := some (t, h + p.delayNs) }
/-- Half of the round trip of a delay request that left at time stamp `sent` and arrived at host time `h`, and of the last Sync (R37). -/
def ptpDelay (sent h : Nat) (p : Ptp) : Nat :=
  match p.last with
  | some (t, h0) => (((h : Int) - h0 + ((t : Int) - sent) * 5 / 2) / 2).toNat
  | none => p.delayNs
/-- What a valid message does to the clock (R37). -/
def ptpTake (msg : PtpMsg) (p : Ptp) : Ptp :=
  match msg.kind with
  | .sync true => { p with sync := some (msg.seq, msg.tstamp) }
  | .sync false => ptpSync msg.tstamp msg.hostNs p
  | .followUp => match p.sync with | some (q, t) => if q = msg.seq then ptpSync t msg.hostNs p else p | none => p
  | .delayResp sent => { p with delayNs := ptpDelay sent msg.hostNs p }
  | _ => p
/-- PTP_MESSAGE_RECEIVE (R37). -/
def execPtpMessageReceive (mac : MacNo) (msg : PtpMsg) (s : State) : Host.Outcome State Fault Refusal :=
  finishD s (when (ptpValid s mac msg)
    (fun t => { t with clk.now := max t.clk.now msg.tstamp, ptp := { ptpTake msg t.ptp with lastT := some msg.tstamp } }) s)
/-- PTP_TIMEOUT: no valid message for 8 s (R39). -/
def execPtpTimeout (s : State) : Host.Outcome State Fault Refusal :=
  finishD s (when (pnat s 0x0A20 0 = 1) ptpInvalid s)

/-- H0 of the mapping in nanoseconds. -/
def ptpH0 (p : Ptp) : Nat := p.h0s * 1000000000 + p.h0ns
/-- The host time of a time stamp under the mapping in force, in nanoseconds (R38). -/
def hostOf (p : Ptp) (t : Nat) : Int := ptpH0 p + tdiv (((t : Int) - p.t0) * 5 * (2 ^ 40 + p.rho)) (2 ^ 41)
/-- A jump of host time larger than 1 ms (R39). -/
def ptpJump (p : Ptp) (t h : Nat) : Bool := decide (1000000 < iabs ((h : Int) - hostOf p t))
/-- The mapping of the bolt (R38). How ρ follows from the messages is not stated: it is a free value that is never the mark of an
invalid mapping (log 7). A jump is recorded in the event log, under a CODE that spec/ does not give, and that is not 0 (R13, R39; log 7). -/
def ptpBolt (s : State) : State :=
  match s.ptp.sample with
  | none => s
  | some (t, h) =>
    let r := wrapS 32 (Config.rho s.ptp.t0 (ptpH0 s.ptp) t h)
    let jump := mapped s && ptpJump s.ptp t h
    let s1 : State := { s with ptp := { s.ptp with t0 := t, h0s := h / 1000000000, h0ns := h % 1000000000, rho := if r = -2147483648 then -2147483647 else r,
                                                   sample := none, lost := false } }
    if jump then
      let d := drawNat s1
      { d.1 with log := logAdd d.1 (1 + d.2 % 65535) noInst [] (ps s) }
    else s1

/-! ### The end of a bolt -/

/-- The mean of R138. -/
def boltMean (sum : Int) (n : Nat) : Int := asr (tdiv (sum * 65536) n + 32768) 16
/-- The bolt mean of one node, with the timing adjustment it leads to (R103, R138). A newer adjustment replaces one that still waits. -/
def nodeMean (s : State) (n : Nat) : State :=
  let d := ndOf s n
  let s1 :=
    if d.nDelta = 0 then s
    else
      let m := boltMean d.sumDelta d.nDelta
      let t := modNdc s n (fun c => { c with ofsMean := m })
      if decide (8 < iabs m) && d.admitted && !d.muted && sending s then
        modBr t (n / 4) (fun b => { b with xfers := b.xfers.filter (fun x => x.node != n || xferRank x.kind != 3) ++
          [{ node := n, kind := .timing (clamp (-16) 16 m), reps := 0 }] })
      else t
  if d.nDelta = 0 ∧ d.viol = 0 then s1 else modNd s1 n (fun x => { x with sumDelta := 0, nDelta := 0, viol := 0 })

/-- The corrupted join frames of one tap (R99). -/
def tapBolt (b : Nat) (s : State) (tap : Nat) : State :=
  let r := brOf s b
  let k := if r.joinBadNow.contains tap then min 8 (tabGet 0 r.joinCorr tap + 1) else 0
  let s1 := modBr s b (fun x => { x with joinCorr := tabSet x.joinCorr tap k })
  if k = 8 ∧ r.collRaised.contains tap = false then
    raise (modBr s1 b (fun x => { x with collRaised := tap :: x.collRaised })) 0x3104 (4 * b + tap) [BitVec.ofNat 8 b]
  else s1

/-- Energy outside windows over the bolts of a branch (R141). Only the active controller cuts (R143). -/
def eowBolt (s : State) (b : Nat) : State :=
  let r := brOf s b
  if r.eowNow then
    let past := (r.eowNodes :: r.eowPast).take 3
    let s1 := modBrc (modBr s b (fun x => { x with eowNow := false, eowNodes := [], eowPast := past })) b (fun c => { c with eow := satInc 32 c.eow })
    if sending s && decide (past.length = 3) && decide (2 ≤ (dedup past.flatten).length) then branchCut (raise s1 0x3108 b []) b else s1
  else if r.eowPast = [] then s
  else modBr s b (fun x => { x with eowPast := [] })

/-- A branch at the end of a bolt: its nodes' means, its join slots, babbling, and the rejoin table of the next bolt (R549). -/
def branchBolt (s : State) (b : Nat) : State :=
  let s1 := forEach [0, 1, 2, 3] (fun t i => nodeMean t (4 * b + i)) s
  let s2 := when ((brOf s1 b).joinBadNow != [] || (brOf s1 b).joinCorr != [])
    (fun t => modBr (forEach [0, 1, 2, 3] (tapBolt b) t) b (fun x => { x with joinBadNow := [] })) s1
  eowBolt s2 b
/-- The rejoin table of a branch for the next bolt (R106, R549). A standby follows it for the gates it classifies (R143). -/
def rejoinBolt (s : State) (b : Nat) : State :=
  let t := rejoinTable s b
  let s1 := when ((brOf s b).rejoin != t || (brOf s b).tabSent) (fun u => modBr u b (fun r => { r with rejoin := t, tabSent := false })) s
  when (!isStandby s) (forEach (lostTaps s b) (fun u i => rejoinBlock u (4 * b + i))) s1

/-- The quadrature errors, statistics and once-a-bolt events of an axis (R163, R185, R214, R259). -/
def axisBolt (s : State) (a : Nat) : State :=
  let x := axOf s a
  let s1 := when (x.sm.once.contains 0x610E && !isStandby s) (fun t => raise t 0x610E a (le 4 (axState x.sm))) s
  modAx s1 a (fun y =>
    { y with sm := { y.sm with once := [] }, fb := { y.fb with qBolt := min 255 y.fb.qNow, qNow := 0 },
             cnt := { overrunBolt y.cnt with smax := y.cnt.smaxNow, smaxNow := 0 } })

/-- The statistics of a lane (R183). -/
def laneBolt (s : State) (l : Nat) : State :=
  let x := laneOf s l
  if x = {} ∧ lncOf s l = {} then s
  else
    modLane (modLnc s l (fun c => { c with fBolt := x.fNow.1, fPickIdx := x.fNow.2, postBolt := x.postNow, busyBolt := x.busyNow % 2 ^ 32 })) l
      (fun y => { y with fNow := (0, 0), postNow := 0, busyNow := 0, fullRaised := [] })

/-- The drops of an echo output in a bolt (R270). -/
def echoBolt (s : State) (e : Nat) : State :=
  let d := (ecOf s e).dropped
  if d = 0 then s else raise (modEc s e (fun x => { x with dropped := 0 })) 0x8105 e (le 4 d)

/-- The first bolt of a cold start has ended without a difference: the controller leads, and its first full run starts ahead of
what waits, or waits itself for one in progress (R94, R97, R68, R71). After a change of pick length the run of that change takes its place. -/
def coldEnd (s : State) : State :=
  let s1 := { leadNow s with net.firstRunDue := false }
  let r : Run := { id := s1.warp.nextId, trig := 6, full := true, vals := [], sets := [], nodes := [] }
  let s2 : State := { s1 with warp.nextId := s1.warp.nextId + 1 }
  if s1.warp.running.any (fun x => x.trig = 4) then s1
  else if warpBusy s1 then { s2 with warp.queue := r :: s2.warp.queue } else runStart s2 r

/-- The phases in which a change of pick length can begin its silence. -/
def plenCan (p : NetPhase) : Bool := p = .running || p = .coldBolt || p = .listening || p = .backoff || p = .following
/-- The markers stop for a change of pick length (R24), once the partner has the change (R478): a standby waits for the markers of the
new length. -/
def plenBolt (s : State) : State :=
  if s.clk.plenStop = 1 ∧ plenCan s.net.phase = true then
    if isStandby s then { s with clk := { s.clk with plenStop := 2, plenT := s.clk.now }, pair.judge := false }
    else if itemDone s s.clk.plenItem && reached s.clk.plenAt (ps s) then plenSilence s else s
  else s

/-- What takes effect at the boundary (R25): the placement, the values of commits, the mapping. No Draft change takes effect at the
swap pick (R488). -/
def boltApply (s : State) : State :=
  let s1 := if s.pair.swapAt = some (ps s) then s else placeApply s
  ptpBolt (applyBound s1 .bolt)
/-- What is counted and judged over the bolt that ends. -/
def boltCount (s : State) : State :=
  let s1 := forEach (List.range 16) branchBolt s
  let s2 := forEach ((List.range 128).filter (fun a => axClass s1 a != 0)) axisBolt s1
  let s3 := forEach [0, 1, 2, 3] echoBolt (forEach (List.range 8) laneBolt (forEach (List.range 8) laneLast s2))
  let s4 := forEach [0, 1, 2] canBolt s3
  let s5 := if isStandby s4 then s4 else kilnBolt s4
  { s5 with eth.authFail := [], pair.syncBolts := if inSync s5 then satInc 16 s5.pair.syncBolts else 0 }
/-- What a pick that ends leaves: its axis commands (R207), echo steps, the staging check, the pair, and the collision of R484. -/
def pickEnd (s0 : State) : State :=
  let s := axisCmds s0
  let s1 := when (s.clk.started && !isStandby s) (fun t => stagingCheck (echoPick t)) s
  let hit := s.pair.en && s.net.phase = .running && (List.range 16).any (fun b => (brOf s b).rbNow)
  let s2 := pairPickEnd s1
  { s2 with pair.collide := if hit then s2.pair.collide + 1 else 0 }
/-- The boundary is the start of pick 0 of the next bolt: what takes effect there bears its pick stamp (R25). -/
def boltTick (s : State) : State :=
  let t0 := s.clk.pickT0 + tPick s
  { s with clk := { s.clk with boltDone := true, afterDl := false, now := max s.clk.now t0, pickT0 := t0, pstamp := s.clk.pstamp + 1 },
           brs := s.brs.map (fun p => (p.1, { p.2 with win := 0, tabSent := false })) }
/-- The end of a bolt. -/
def boltEnd (s : State) : State :=
  let s1 := boltTick (boltCount (pickEnd s))
  let s2 := when (s1.net.phase = .coldBolt && !s1.net.readbackBad) coldEnd s1
  let s3 := boltApply (plenBolt (itemsDue (bulkApply s2)))
  when (sending s3 || isStandby s3) (fun t => forEach (brList t) rejoinBolt t) s3
/-- BOLT_BOUNDARY: it comes once, at the end of pick 31 of a bolt and before the pick that follows. -/
def execBoltBoundary (s : State) : Host.Outcome State Fault Refusal :=
  finishV s (when (s.clk.locked && s.clk.started && psPick (ps s) = 31 && !s.clk.boltDone) boltEnd s)

/-! ### The start of a pick -/

/-- The pick timer advances, unless BOLT_BOUNDARY has taken it to this pick; the pick stamp restarts at 0 with a cold start
(R25). -/
def pickTick (s : State) : State :=
  let t0 := if !s.clk.started then s.clk.now else if s.clk.boltDone then s.clk.pickT0 else s.clk.pickT0 + tPick s
  let p := if !s.clk.started then 0 else if s.clk.boltDone then s.clk.pstamp else s.clk.pstamp + 1
  { s with clk := { s.clk with pickT0 := t0, now := max s.clk.now t0, pstamp := p, started := true, boltDone := false, afterDl := false } }
/-- A branch at the start of a pick: what the last pick left is cleared, and markers start where they are due (R91, R92). -/
def branchPick (s : State) (b : Nat) : State :=
  let r := brOf s b
  let on := sending s && ((r.resume && itemDone s r.resumeItem) || match r.markFrom with | some k => decide (psPick (ps s) = 0) && boltReached s k | none => false)
  let s1 := if r = {} then s
    else modBr s b (fun x =>
      { x with rbNow := false, joinAck := [], win := 0, calDone := false, runOn := none, markers := x.markers || on, resume := x.resume && !on, resumeItem := if on then none else x.resumeItem, markFrom := if on then none else x.markFrom })
  when (!(brOf s1 b).cut && ((brOf s1 b).markers || !brEnabled s1 b)) (fun t => completeWaits t (fun w => w = .readmit b) 0 []) s1
/-- A node at the start of a pick: an acknowledged join takes effect with the marker (R101), a mute that is due begins (R139), and the
gate of the last pick is forgotten. -/
def nodePick (s0 : State) (n : Nat) : State :=
  let s := if (ndOf s0 n).admitDue then (if branchOn s0 (n / 4) then nodeAdmit s0 n else modNd s0 n (fun d => { d with admitDue := false })) else s0
  let d := ndOf s n
  let go := d.muteDue && itemDone s d.muteItem
  if d = {} then s
  else modNd s n (fun x =>
    { x with gateNow := false, accNow := false, muted := x.muted || go, muteDue := x.muteDue && !go, muteItem := if go then none else x.muteItem })
/-- The safe output group of an axis as its state sees it (R461): SAFE_OFF is entered when the group opens, and left when it closes (R205).
A standby only follows what it sees; an opening that the active controller has not taken yet stays to be taken. -/
def axisSafe (s : State) (a : Nat) : State :=
  let x := (axOf s a).sm
  let opn := !sogClosedFor s a
  let seen := opn && (!isStandby s || x.sogOpen || x.st = .safeOff || x.st = .disabled)
  let s1 := if seen = x.sogOpen then s else modSm s a (fun m => { m with sogOpen := seen })
  if isStandby s then s1 else if !opn then axSafeOn s1 a else if x.sogOpen then s1 else axSafeOff s1 a

/-- The marker of the pick goes out on every branch that carries markers, with the PICK_OUT pulse (R34, R35, R112, R113). From the
swap pick on, the former active controller sends none (R488). -/
def markerSend (s : State) (readbackBad : List BranchNo) : State :=
  let go := sending s && !(s.pair.swapAt = some (ps s) && inSync s) && (List.range 16).any (fun b => (brOf s b).markers)
  if go then
    let s1 : State := { s with clk := { s.clk with markers := true, pickOut := pickOutNow s, lastMarker := some (s.net.phase = .coldBolt, markerValue s) } }
    let bad := (readbackBad.map (·.val)).filter (fun b => (brOf s b).markers)
    if bad = [] then s1
    else
      let s2 := forEach bad (fun t b => eowNote t b none true) s1
      if s2.net.phase = .coldBolt then contend { s2 with clk.pickOut := 0 } else s2
  else { s with clk := { s.clk with markers := false, pickOut := 0 } }

/-- The start of a pick. -/
def pickBegin (s : State) (readbackBad : List BranchNo) : State :=
  let s1 := pickTick (if s.clk.boltDone then s else pickEnd s)
  let s2 := loomPickEnd s1
  let s3 := applyBound (itemsDue (swapEnd s2)) .pick
  let s4 := forEach (List.range 64) nodePick (forEach (List.range 16) branchPick s3)
  let s5 := loomPickStart s4
  let s6 := forEach ((List.range 128).filter (fun a => axClass s5 a != 0)) axisSafe s5
  pairPickStart (markerSend (unlistedRun flightsMax s6) readbackBad)
/-- PICK_START: the pick timer runs from PLL lock on. `readbackBad` are the branches on which the readback of the marker differs
(R94, R137). -/
def execPickStart (readbackBad : List BranchNo) (s : State) : Host.Outcome State Fault Refusal :=
  finishV s (when s.clk.locked (fun t => pickBegin t readbackBad) s)

end Sys2Proof.Machine
end

