-- ==== Sys2Proof/Machine/Dispatch.lean ====
section
/-! DEFINITION. The dispatcher: one arm for each row of spec/opcode_table.json, calling the meaning of that row. -/
namespace Sys2Proof.Machine

/-- The effect of a row on everything but the queue of waiting rows. -/
def exec (i : Instr) (s : State) : Host.Outcome State Fault Refusal :=
  match i with
  | .nresetAssert lowNs => Sys2Proof.Machine.execNresetAssert lowNs s
  | .nresetRelease => Sys2Proof.Machine.execNresetRelease s
  | .supplyOutOfRange rail mV durNs => Sys2Proof.Machine.execSupplyOutOfRange rail mV durNs s
  | .pllLockAchieved => Sys2Proof.Machine.execPllLockAchieved s
  | .selfCalibrationDone codes => Sys2Proof.Machine.execSelfCalibrationDone codes s
  | .ddrTrainingDone ok => Sys2Proof.Machine.execDdrTrainingDone ok s
  | .ddrZeroingDone ok => Sys2Proof.Machine.execDdrZeroingDone ok s
  | .imageVerified slotA slotB => Sys2Proof.Machine.execImageVerified slotA slotB s
  | .firmwareStartDone chk => Sys2Proof.Machine.execFirmwareStartDone chk s
  | .watchdogExpiry => Sys2Proof.Machine.execWatchdogExpiry s
  | .pllLockLoss => Sys2Proof.Machine.execPllLockLoss s
  | .ddrInitGranule => Sys2Proof.Machine.execDdrInitGranule s
  | .ddrScrubBurst ecc => Sys2Proof.Machine.execDdrScrubBurst ecc s
  | .pickStart readbackBad => Sys2Proof.Machine.execPickStart readbackBad s
  | .boltBoundary => Sys2Proof.Machine.execBoltBoundary s
  | .ptpMessageReceive mac msg => Sys2Proof.Machine.execPtpMessageReceive mac msg s
  | .ptpTimeout => Sys2Proof.Machine.execPtpTimeout s
  | .brpwrStaggerExpiry => Sys2Proof.Machine.execBrpwrStaggerExpiry s
  | .coldStartListenEnd => Sys2Proof.Machine.execColdStartListenEnd s
  | .foreignMarkerReceive b running value => Sys2Proof.Machine.execForeignMarkerReceive b running value s
  | .csBackoffExpiry => Sys2Proof.Machine.execCsBackoffExpiry s
  | .pickLenSilenceEnd => Sys2Proof.Machine.execPickLenSilenceEnd s
  | .standbyRestartTimeout => Sys2Proof.Machine.execStandbyRestartTimeout s
  | .calibrationWindow b drv trim => Sys2Proof.Machine.execCalibrationWindow b drv trim s
  | .downFrameTransmit b => Sys2Proof.Machine.execDownFrameTransmit b s
  | .upSlotGateClose n obs => Sys2Proof.Machine.execUpSlotGateClose n obs s
  | .nodeMuted n => Sys2Proof.Machine.execNodeMuted n s
  | .nodeLost n => Sys2Proof.Machine.execNodeLost n s
  | .energyOutsideWindows b burst readback => Sys2Proof.Machine.execEnergyOutsideWindows b burst readback s
  | .joinSlotGateClose b tap obs => Sys2Proof.Machine.execJoinSlotGateClose b tap obs s
  | .frameParse p => Sys2Proof.Machine.execFrameParse p s
  | .heldJobEnter b => Sys2Proof.Machine.execHeldJobEnter b s
  | .acyclicWindow b k => Sys2Proof.Machine.execAcyclicWindow b k s
  | .acyclicReplyReceive b obs frame => Sys2Proof.Machine.execAcyclicReplyReceive b obs frame s
  | .descriptorRetryExpiry n => Sys2Proof.Machine.execDescriptorRetryExpiry n s
  | .branchCutHoldExpiry b => Sys2Proof.Machine.execBranchCutHoldExpiry b s
  | .placementRunStart => Sys2Proof.Machine.execPlacementRunStart s
  | .placementRunComplete => Sys2Proof.Machine.execPlacementRunComplete s
  | .buildDeadline dieTemp obs => Sys2Proof.Machine.execBuildDeadline dieTemp obs s
  | .axisJobComplete a t => Sys2Proof.Machine.execAxisJobComplete a t s
  | .debouncedChange a sw => Sys2Proof.Machine.execDebouncedChange a sw s
  | .chatterClear a sw => Sys2Proof.Machine.execChatterClear a sw s
  | .hardStopDetect a => Sys2Proof.Machine.execHardStopDetect a s
  | .fbLost a => Sys2Proof.Machine.execFbLost a s
  | .interpolationJobComplete g t => Sys2Proof.Machine.execInterpolationJobComplete g t s
  | .profileJobComplete a t => Sys2Proof.Machine.execProfileJobComplete a t s
  | .qstopEnd a => Sys2Proof.Machine.execQstopEnd a s
  | .qstopTimeout a => Sys2Proof.Machine.execQstopTimeout a s
  | .stepperHoldTimer a => Sys2Proof.Machine.execStepperHoldTimer a s
  | .bootUv a => Sys2Proof.Machine.execBootUv a s
  | .boostExpiry a => Sys2Proof.Machine.execBoostExpiry a s
  | .overtemp a => Sys2Proof.Machine.execOvertemp a s
  | .codeResyncStall n => Sys2Proof.Machine.execCodeResyncStall n s
  | .laneMicrocodeParityError e => Sys2Proof.Machine.execLaneMicrocodeParityError e s
  | .stateEcc e => Sys2Proof.Machine.execStateEcc e s
  | .echoStep e => Sys2Proof.Machine.execEchoStep e s
  | .trigPinEdge pin rising tt frac => Sys2Proof.Machine.execTrigPinEdge pin rising tt frac s
  | .captureClose u => Sys2Proof.Machine.execCaptureClose u s
  | .acqDecimationLower u => Sys2Proof.Machine.execAcqDecimationLower u s
  | .acqRateApply u => Sys2Proof.Machine.execAcqRateApply u s
  | .kilnBlockWrite => Sys2Proof.Machine.execKilnBlockWrite s
  | .histPostFaultFreeze a => Sys2Proof.Machine.execHistPostFaultFreeze a s
  | .ethHelloReceive mac dst src dg => Sys2Proof.Machine.execEthHelloReceive mac dst src dg s
  | .ethDataReceive mac dst src dg => Sys2Proof.Machine.execEthDataReceive mac dst src dg s
  | .ethCloseReceive mac dst src dg => Sys2Proof.Machine.execEthCloseReceive mac dst src dg s
  | .sessionOpenTimeout m => Sys2Proof.Machine.execSessionOpenTimeout m s
  | .sessionTimeout m => Sys2Proof.Machine.execSessionTimeout m s
  | .datagramSend m => Sys2Proof.Machine.execDatagramSend m s
  | .arpRequest mac targetIp senderIp => Sys2Proof.Machine.execArpRequest mac targetIp senderIp s
  | .icmpEchoRequest mac dst srcIp data => Sys2Proof.Machine.execIcmpEchoRequest mac dst srcIp data s
  | .qspiCmdHeadWrite head slots => Sys2Proof.Machine.execQspiCmdHeadWrite head slots s
  | .qspiCplTailWrite tail => Sys2Proof.Machine.execQspiCplTailWrite tail s
  | .qspiIrqStatClear mask => Sys2Proof.Machine.execQspiIrqStatClear mask s
  | .qspiRegisterWrite addr bytes => Sys2Proof.Machine.execQspiRegisterWrite addr bytes s
  | .canGatewayMessage c src data => Sys2Proof.Machine.execCanGatewayMessage c src data s
  | .completionWrite m => Sys2Proof.Machine.execCompletionWrite m s
  | .mbRingStall m => Sys2Proof.Machine.execMbRingStall m s
  | .eventDeliver m => Sys2Proof.Machine.execEventDeliver m s
  | .parStageExpired pnum inst => Sys2Proof.Machine.execParStageExpired pnum inst s
  | .mstabLoadTimeout n => Sys2Proof.Machine.execMstabLoadTimeout n s
  | .outputOverrideEnd a => Sys2Proof.Machine.execOutputOverrideEnd a s
  | .nop e => Sys2Proof.Machine.execNop e s
  | .statusRead e => Sys2Proof.Machine.execStatusRead e s
  | .evlogRead e => Sys2Proof.Machine.execEvlogRead e s
  | .parRead e => Sys2Proof.Machine.execParRead e s
  | .parWrite e io => Sys2Proof.Machine.execParWrite e io s
  | .parCommit e io => Sys2Proof.Machine.execParCommit e io s
  | .parDiscard e => Sys2Proof.Machine.execParDiscard e s
  | .parStaged e => Sys2Proof.Machine.execParStaged e s
  | .placeFull e => Sys2Proof.Machine.execPlaceFull e s
  | .placeReport e => Sys2Proof.Machine.execPlaceReport e s
  | .draftRead e => Sys2Proof.Machine.execDraftRead e s
  | .netStatsRead e => Sys2Proof.Machine.execNetStatsRead e s
  | .netStatsClear e => Sys2Proof.Machine.execNetStatsClear e s
  | .nodeReadmit e => Sys2Proof.Machine.execNodeReadmit e s
  | .branchCut e => Sys2Proof.Machine.execBranchCut e s
  | .branchReadmit e => Sys2Proof.Machine.execBranchReadmit e s
  | .axisRekey e => Sys2Proof.Machine.execAxisRekey e s
  | .mstabLoad e => Sys2Proof.Machine.execMstabLoad e s
  | .loomStatsRead e => Sys2Proof.Machine.execLoomStatsRead e s
  | .loomStatsClear e => Sys2Proof.Machine.execLoomStatsClear e s
  | .hostStatsRead e => Sys2Proof.Machine.execHostStatsRead e s
  | .hostStatsClear e => Sys2Proof.Machine.execHostStatsClear e s
  | .axisEnable e => Sys2Proof.Machine.execAxisEnable e s
  | .axisDisable e => Sys2Proof.Machine.execAxisDisable e s
  | .faultReset e => Sys2Proof.Machine.execFaultReset e s
  | .outputOverride e => Sys2Proof.Machine.execOutputOverride e s
  | .move e => Sys2Proof.Machine.execMove e s
  | .groupMove e => Sys2Proof.Machine.execGroupMove e s
  | .halt e => Sys2Proof.Machine.execHalt e s
  | .home e => Sys2Proof.Machine.execHome e s
  | .acqArm e => Sys2Proof.Machine.execAcqArm e s
  | .acqDisarm e => Sys2Proof.Machine.execAcqDisarm e s
  | .acqForce e => Sys2Proof.Machine.execAcqForce e s
  | .acqRelease e => Sys2Proof.Machine.execAcqRelease e s
  | .acqReadCapture e ecc => Sys2Proof.Machine.execAcqReadCapture e ecc s
  | .acqReadStream r => Sys2Proof.Machine.execAcqReadStream r s
  | .histRead e ecc => Sys2Proof.Machine.execHistRead e ecc s
  | .histFreeze e => Sys2Proof.Machine.execHistFreeze e s
  | .histRestart e => Sys2Proof.Machine.execHistRestart e s
  | .accRead e => Sys2Proof.Machine.execAccRead e s
  | .accWrite e io => Sys2Proof.Machine.execAccWrite e io s
  | .keyProvision e io => Sys2Proof.Machine.execKeyProvision e io s
  | .keyRevoke e io => Sys2Proof.Machine.execKeyRevoke e io s
  | .auditRead e => Sys2Proof.Machine.execAuditRead e s
  | .canAbortRequeue e => Sys2Proof.Machine.execCanAbortRequeue e s
  | .canStatsRead e => Sys2Proof.Machine.execCanStatsRead e s
  | .canTx e => Sys2Proof.Machine.execCanTx e s
  | .safeReset e => Sys2Proof.Machine.execSafeReset e s
  | .safeStatus e => Sys2Proof.Machine.execSafeStatus e s
  | .pairSwap e => Sys2Proof.Machine.execPairSwap e s
  | .pairStatus e => Sys2Proof.Machine.execPairStatus e s
  | .fwBegin e => Sys2Proof.Machine.execFwBegin e s
  | .fwData e => Sys2Proof.Machine.execFwData e s
  | .fwVerify e => Sys2Proof.Machine.execFwVerify e s
  | .fwActivate e => Sys2Proof.Machine.execFwActivate e s
  | .fwSlotEraseDone ok => Sys2Proof.Machine.execFwSlotEraseDone ok s
  | .fwActivateRestart => Sys2Proof.Machine.execFwActivateRestart s
  | .canFrameReceive c f t => Sys2Proof.Machine.execCanFrameReceive c f t s
  | .canFrameSent c => Sys2Proof.Machine.execCanFrameSent c s
  | .canBusError c kind => Sys2Proof.Machine.execCanBusError c kind s
  | .canBoffDelayExpiry c => Sys2Proof.Machine.execCanBoffDelayExpiry c s
  | .canBusOn c => Sys2Proof.Machine.execCanBusOn c s
  | .canAutoRequeue c => Sys2Proof.Machine.execCanAutoRequeue c s
  | .canTxExpired c => Sys2Proof.Machine.execCanTxExpired c s
  | .canClaimWaitExpiry c => Sys2Proof.Machine.execCanClaimWaitExpiry c s
  | .canTpTimeout c peer rx => Sys2Proof.Machine.execCanTpTimeout c peer rx s
  | .damperEvaluation => Sys2Proof.Machine.execDamperEvaluation s
  | .sogLsOnDelay g => Sys2Proof.Machine.execSogLsOnDelay g s
  | .sinSample levels => Sys2Proof.Machine.execSinSample levels s
  | .sinDiscrepancy p => Sys2Proof.Machine.execSinDiscrepancy p s
  | .safeMessageReceive src data t => Sys2Proof.Machine.execSafeMessageReceive src data t s
  | .smUnpaired net => Sys2Proof.Machine.execSmUnpaired net s
  | .smTimeout => Sys2Proof.Machine.execSmTimeout s
  | .darkTestStart g => Sys2Proof.Machine.execDarkTestStart g s
  | .darkTestSample g mid => Sys2Proof.Machine.execDarkTestSample g mid s
  | .darkTestOverdue g => Sys2Proof.Machine.execDarkTestOverdue g s
  | .midReadbackSample levels => Sys2Proof.Machine.execMidReadbackSample levels s
  | .damperClockCheck devPermille => Sys2Proof.Machine.execDamperClockCheck devPermille s
  | .damperFault kind => Sys2Proof.Machine.execDamperFault kind s
  | .nsafeRstEdge level => Sys2Proof.Machine.execNsafeRstEdge level s
  | .safeRstStuck => Sys2Proof.Machine.execSafeRstStuck s
  | .safeResetWindowExpiry net => Sys2Proof.Machine.execSafeResetWindowExpiry net s
  | .selvedgeLinkUp partner => Sys2Proof.Machine.execSelvedgeLinkUp partner s
  | .selvedgeLinkDown cause => Sys2Proof.Machine.execSelvedgeLinkDown cause s
  | .stateFrameReceive seg => Sys2Proof.Machine.execStateFrameReceive seg s
  | .itemReceive it => Sys2Proof.Machine.execItemReceive it s
  | .itemAckReceive ack => Sys2Proof.Machine.execItemAckReceive ack s
  | .itemAckTimeout => Sys2Proof.Machine.execItemAckTimeout s
  | .partnerSilenceTimeout => Sys2Proof.Machine.execPartnerSilenceTimeout s
  | .bulkSegmentReceive pct seg => Sys2Proof.Machine.execBulkSegmentReceive pct seg s
  | .bulkComplete => Sys2Proof.Machine.execBulkComplete s
  | .pairInSync => Sys2Proof.Machine.execPairInSync s
  | .pairTakeover => Sys2Proof.Machine.execPairTakeover s
  | .pairCollision => Sys2Proof.Machine.execPairCollision s
  | .pairSwapPick => Sys2Proof.Machine.execPairSwapPick s
  | .pairSwapAutoExpiry => Sys2Proof.Machine.execPairSwapAutoExpiry s
  | .supplyRestored rail mV => Sys2Proof.Machine.execSupplyRestored rail mV s
  | .standbyMarkerReceive b m => Sys2Proof.Machine.execStandbyMarkerReceive b m s
  | .standbyDownFrameRead b frame => Sys2Proof.Machine.execStandbyDownFrameRead b frame s
  | .acyclicReplyGateClose g => Sys2Proof.Machine.execAcyclicReplyGateClose g s
  | .fwSlotProgramDone ok => Sys2Proof.Machine.execFwSlotProgramDone ok s
  | .cannotClaimDelayExpiry c => Sys2Proof.Machine.execCannotClaimDelayExpiry c s
  | .tjHigh => Sys2Proof.Machine.execTjHigh s

end Sys2Proof.Machine
end

