-- ==== Sys2Proof/WellFormed.lean ====
section
/-! DEFINITION. The operands that the surroundings can give a row: what the interface named by the row's rule can carry.
A meaning is total on ill-formed operands too. -/
namespace Sys2Proof

/-- A command entry carries at most 1,008 payload bytes (R358). -/
def CmdEntry.wf (e : CmdEntry) : Bool := decide (e.payload.length ≤ 1008)

/-- A CAN frame: a standard identifier has 11 bits, a classical frame up to 8 bytes, an FD frame one of the lengths of
the format and no remote frame (R426). -/
def CanFrame.wf (f : CanFrame) : Bool :=
  (f.ide || decide (f.ident.toNat < 2048)) &&
  (if f.fdf then decide (f.data.length ≤ 8 ∨ f.data.length ∈ [12, 16, 20, 24, 32, 48, 64]) && !f.remote
   else decide (f.data.length ≤ 8))

/-- A gate observation: a frame is no longer than a slot of 1,023 byte-times, and energy that stands at opening or at
close is energy (R135). -/
def GateObs.wf (o : GateObs) : Bool :=
  decide (o.frame.length ≤ 1023) && (o.energy || (!o.energyAtOpen && !o.energyAtClose && o.start.isNone))

/-- The operands of a row are what its interface can carry. -/
def Instr.wf : Instr → Bool
  | .upSlotGateClose _ o => o.wf
  | .joinSlotGateClose _ _ o => o.wf
  | .selfCalibrationDone cs => decide (cs.length = 16) && cs.all (fun c => decide (c.drv < 32 ∧ -128 ≤ c.trim ∧ c.trim ≤ 127))
  | .acyclicWindow _ k => decide (k < 16)
  | .safeMessageReceive _ d _ => decide (d.length ≤ 64)
  | .canFrameReceive _ f _ => f.wf
  | .qspiCmdHeadWrite _ slots => decide (slots.length ≤ 64)
  | .bulkSegmentReceive pct _ => decide (pct ≤ 100)
  | .nop e | .statusRead e | .evlogRead e | .parRead e | .parDiscard e | .parStaged e | .placeFull e | .placeReport e
  | .draftRead e | .netStatsRead e | .netStatsClear e | .nodeReadmit e | .branchCut e | .branchReadmit e | .axisRekey e
  | .mstabLoad e | .loomStatsRead e | .loomStatsClear e | .hostStatsRead e | .hostStatsClear e | .axisEnable e
  | .axisDisable e | .faultReset e | .outputOverride e | .move e | .groupMove e | .halt e | .home e | .acqArm e
  | .acqDisarm e | .acqForce e | .acqRelease e | .histFreeze e | .histRestart e | .accRead e
  | .auditRead e | .canAbortRequeue e | .canStatsRead e | .canTx e | .safeReset e | .safeStatus e | .pairSwap e
  | .pairStatus e | .fwBegin e | .fwData e | .fwVerify e | .fwActivate e => e.wf
  | .parWrite e _ | .parCommit e _ | .accWrite e _ | .keyProvision e _ | .keyRevoke e _ => e.wf
  | .acqReadCapture e _ | .histRead e _ => e.wf
  | .acqReadStream r => r.e.wf
  | _ => true

end Sys2Proof
end

