-- ==== Sys2Proof/Safety.lean ====
section
/-! DEFINITION. The terms in which statements are made: when a command is taken at once, what its completion is, what stays
outside the mailboxes, the invariants of the memory and of the safety island, and which rows belong to the island. -/
namespace Sys2Proof.Machine

/-! ### Commands -/

/-- No command of any master is in flight. -/
def heddleFree (s : State) : Bool := (List.range 12).all (fun m => (mbOf s m).flights.isEmpty)

/-- The entry is accepted (R361 to R363) and its command is the one the Heddle takes (R364, R365): the part is READY, the entry is
well-formed and the next one of an enabled master with credit, and no other command is in flight. -/
def entryTakes (s : State) (e : CmdEntry) : Bool :=
  s.boot.ready && decide (e.payload.length ≤ 1008) && (e.seq == (mbOf s e.master).sNext) &&
    nbit (masterEnFix s (pnat s 0x0A08 0)) e.master && decide (0 < pnat s 0x0A09 e.master) && heddleFree s

/-- An entry that is taken at a part that is no standby, which serves every opcode (R380). -/
def takesNow (s : State) (e : CmdEntry) : Bool := entryTakes s e && !isStandby s

/-- The state in which a command that is taken at once executes: its entry is in flight, and the turn is noted. -/
def taken (s : State) (e : CmdEntry) (op : Nat) : State := noteTurn (accept s e op) e.master op

/-- The completion of an entry (R359), produced in the pick of a state. -/
def cplOf (s : State) (e : CmdEntry) (op st : Nat) (pl : Bytes) : Cpl :=
  { seq := e.seq, opcode := op, tag := e.tag, rep := false, notAcc := false, status := st, psl := (ps s).toNat % 2 ^ 24, payload := pl }

/-- The latest completion in the journal of the entry's master (R362). -/
def answered (s t : State) (e : CmdEntry) (op st : Nat) (pl : Bytes) : Prop :=
  (mbOf t e.master).journal.head? = some (cplOf s e op st pl)

/-- The command of an entry is in flight and its completion waits for something. -/
def awaits (t : State) (e : CmdEntry) (w : Wait) : Prop :=
  (mbOf t e.master).flights.any (fun f => f.entry == e && f.wait == some w) = true

/-- Nothing but mailboxes, turns, the event log and what carries completions and items away has changed. -/
def quiet (s t : State) : Prop :=
  t = { s with mbs := t.mbs, log := t.log, qspi := t.qspi, hed := t.hed, cans := t.cans, pair := t.pair }

/-- The entry and the opcode of a row that carries a command (R379). -/
def rowCommand : Instr → Option (CmdEntry × Nat)
  | .nop e => some (e, 0x0100)
  | .statusRead e => some (e, 0x0101)
  | .evlogRead e => some (e, 0x0102)
  | .parRead e => some (e, 0x0201)
  | .parWrite e _ => some (e, 0x0202)
  | .parCommit e _ => some (e, 0x0203)
  | .parDiscard e => some (e, 0x0204)
  | .parStaged e => some (e, 0x0205)
  | .placeFull e => some (e, 0x0301)
  | .placeReport e => some (e, 0x0302)
  | .draftRead e => some (e, 0x0303)
  | .netStatsRead e => some (e, 0x0401)
  | .netStatsClear e => some (e, 0x0402)
  | .nodeReadmit e => some (e, 0x0403)
  | .branchCut e => some (e, 0x0404)
  | .branchReadmit e => some (e, 0x0405)
  | .axisRekey e => some (e, 0x0406)
  | .mstabLoad e => some (e, 0x0407)
  | .loomStatsRead e => some (e, 0x0501)
  | .loomStatsClear e => some (e, 0x0502)
  | .axisEnable e => some (e, 0x0601)
  | .axisDisable e => some (e, 0x0602)
  | .faultReset e => some (e, 0x0603)
  | .outputOverride e => some (e, 0x0604)
  | .move e => some (e, 0x0701)
  | .groupMove e => some (e, 0x0702)
  | .halt e => some (e, 0x0703)
  | .home e => some (e, 0x0704)
  | .acqArm e => some (e, 0x0801)
  | .acqDisarm e => some (e, 0x0802)
  | .acqForce e => some (e, 0x0803)
  | .acqRelease e => some (e, 0x0804)
  | .acqReadCapture e _ => some (e, 0x0805)
  | .acqReadStream r => some (r.e, 0x0806)
  | .histRead e _ => some (e, 0x0807)
  | .histFreeze e => some (e, 0x0808)
  | .histRestart e => some (e, 0x0809)
  | .hostStatsRead e => some (e, 0x0901)
  | .hostStatsClear e => some (e, 0x0902)
  | .accRead e => some (e, 0x0A01)
  | .accWrite e _ => some (e, 0x0A02)
  | .keyProvision e _ => some (e, 0x0A03)
  | .keyRevoke e _ => some (e, 0x0A04)
  | .auditRead e => some (e, 0x0A05)
  | .canAbortRequeue e => some (e, 0x0B01)
  | .canStatsRead e => some (e, 0x0B02)
  | .canTx e => some (e, 0x0B03)
  | .safeReset e => some (e, 0x0C01)
  | .safeStatus e => some (e, 0x0C02)
  | .pairSwap e => some (e, 0x0D01)
  | .pairStatus e => some (e, 0x0D02)
  | .fwBegin e => some (e, 0x0E01)
  | .fwData e => some (e, 0x0E02)
  | .fwVerify e => some (e, 0x0E03)
  | .fwActivate e => some (e, 0x0E04)
  | _ => none

/-- A row that carries a command answers a next state in which the command has completed with status 0 and a payload, and the
next state has a property. -/
def completes (i : Instr) (s : State) (e : CmdEntry) (op : Nat) (pl : Bytes) (P : State → Prop) : Prop :=
  ∃ t, exec i s = .next t ∧ answered s t e op 0 pl ∧ P t

/-- A row that carries a command answers a next state in which the command waits for something before its completion, and the next
state has a property. -/
def completesLater (i : Instr) (s : State) (e : CmdEntry) (w : Wait) (P : State → Prop) : Prop :=
  ∃ t, exec i s = .next t ∧ awaits t e w ∧ P t

/-- The only command in flight is one that waits to act on an axis at the end of the pick (R207). -/
def actsAtEnd (s : State) (m op a : Nat) (f : Flight) : Prop :=
  m < 12 ∧ (mbOf s m).flights = [f] ∧ f.wait = some (.axis op a) ∧ ∀ k < 12, k ≠ m → (mbOf s k).flights = []

/-- A command in flight has completed with a status and without a payload: its completion is the latest in its master's journal. -/
def ended (s t : State) (m : Nat) (f : Flight) (st : Nat) : Prop := (mbOf t m).journal.head? = some (cplMake s f st [])

/-- A channel has at most taken more firmware frames and gateway messages: nothing is taken out of its FIFO, and nothing else changes. -/
def canGrows (x y : Can) : Prop :=
  x.fifo <+: y.fifo ∧ y = { x with fifo := y.fifo, headT := y.headT, fwQ := y.fwQ, fwWait := y.fwWait, gwQ := y.gwQ, tpTx := y.tpTx }

/-! ### Other rows -/

/-- A row answers a next state that has a property. -/
def goes (i : Instr) (s : State) (P : State → Prop) : Prop := ∃ t, exec i s = .next t ∧ P t

/-- An event is the newest record of the log (R397), and nothing else was recorded. -/
def raised (s t : State) (code inst : Nat) (pl : Bytes) : Prop := t.log = logAdd s code inst pl (ps s)

/-- An event is in the log. -/
def logged (t : State) (code inst : Nat) : Prop := ∃ r ∈ t.log.recs, r.code = code ∧ r.inst = inst

/-- The part starts again at step 1 of start-up with a CAUSE (R495, R497): the network is off, every parameter at its reset value and
every group in RESTART but those in LOCKOUT (R446); what the boot flash, the OTP cells and the audit log hold stays. -/
def restarted (s t : State) (cause : Nat) : Prop :=
  t.pending = s.pending ∧ t.boot.stage = 0 ∧ t.boot.ready = false ∧ t.boot.cause = cause ∧ t.clk.locked = false ∧ t.net.phase = .off ∧
  t.par.force = [] ∧ t.par.stages = [] ∧ t.axes = [] ∧ t.mbs = [] ∧ t.ddr = [] ∧
  t.acc.words = s.acc.words ∧ t.acc.counts = s.acc.counts ∧ t.acc.keys = s.acc.keys ∧ t.acc.role = s.acc.role ∧ t.acc.log = s.acc.log ∧
  otpSnap t.acc = otpSnap s.acc ∧ t.boot.cfgA = s.boot.cfgA ∧ t.boot.cfgB = s.boot.cfgB ∧ t.boot.prefB = s.boot.prefB ∧
  t.dmp.retain = s.dmp.retain ∧ ∀ g : Fin 4, (sogOf t.dmp g).st = if s.dmp.retain.getLsbD g then 3 else 2

/-- A controller that leads, with no command in flight, no item of a partner held and no swap named: what a boundary applies is its own. -/
def calm (s : State) : Prop :=
  s.clk.locked = true ∧ s.net.phase = .running ∧ heddleFree s = true ∧ s.pair.inbox = [] ∧ s.pair.swapSt = 0 ∧ s.pair.swapAt = none

/-- Validated values are the only ones that wait, for a boundary of a kind: nothing of theirs waits for a partner, a node or a buffer. -/
def onlyPend (s : State) (p : Pend) (b : Bound) : Prop :=
  s.par.pends = [p] ∧ p.at' = b ∧ p.item = none ∧ (∀ k ∈ p.sets, k / 256 ≠ 17) ∧ ∀ x ∈ p.vals, x.1 / 256 < 0x0401 ∨ 0x0405 < x.1 / 256

/-- Validated values have come into force, and their staging areas and no others are empty (R388). -/
def inForce (s t : State) (p : Pend) : Prop :=
  t.par = { s.par with pends := [], force := tabMerge s.par.force p.vals, stages := t.par.stages } ∧
  (∀ k ∈ p.sets, tabFind t.par.stages k = none) ∧ ∀ k, k ∉ p.sets → tabFind t.par.stages k = tabFind s.par.stages k

/-- Axes other than one are as they were. -/
def axesBut (s t : State) (a : Nat) : Prop := ∀ k, k ≠ a → axOf t k = axOf s k
/-- Branches other than one are as they were. -/
def brsBut (s t : State) (b : Nat) : Prop := ∀ k, k ≠ b → brOf t k = brOf s k
/-- Nodes other than one are as they were. -/
def nodesBut (s t : State) (n : Nat) : Prop := ∀ k, k ≠ n → ndOf t k = ndOf s k
/-- CAN channels other than one are as they were. -/
def cansBut (s t : State) (c : Nat) : Prop := ∀ k, k ≠ c → canOf t k = canOf s k
/-- Mailboxes other than one are as they were. -/
def mbsBut (s t : State) (m : Nat) : Prop := ∀ k, k ≠ m → mbOf t k = mbOf s k

/-! ### Invariants -/

/-- The DDR bytes are in their canonical form. -/
def ddrOk (s : State) : Prop := memWf s.ddr

/-- A group is in one of the four states; the Damper drives its switches, tests it or is about to drive it only while it is CLOSED; and
the retention register names exactly the groups in LOCKOUT (R442, R446). -/
def sogOk (d : Damper) (g : Nat) : Prop :=
  let x := sogOf d g
  x.st ≤ 3 ∧ ((x.hs = true ∨ x.ls = true ∨ x.lsDue = true ∨ x.test ≠ 0) → x.st = 0) ∧ (d.retain.getLsbD g = true ↔ x.st = 3)

/-- The invariant of the safety island: every group as `sogOk` says, and all of them in LOCKOUT while the Damper is halted
(R442, R446, R460). -/
def islandOk (s : State) : Prop :=
  (∀ g : Fin 4, sogOk s.dmp g) ∧ (s.dmp.halted = true → ∀ g : Fin 4, (sogOf s.dmp g).st = 3)

/-! ### Kinds of rows -/

/-- Rows of the Damper itself (chapter 17), and those that hold the part in reset or start it again. -/
def islandRow : Instr → Bool
  | .damperEvaluation | .sogLsOnDelay _ | .sinSample _ | .sinDiscrepancy _ | .safeMessageReceive _ _ _ | .smUnpaired _ | .smTimeout
  | .darkTestStart _ | .darkTestSample _ _ | .darkTestOverdue _ | .midReadbackSample _ | .damperClockCheck _ | .damperFault _
  | .nsafeRstEdge _ | .safeRstStuck | .safeResetWindowExpiry _ | .safeReset _ | .safeStatus _ => true
  | .nresetAssert _ | .supplyOutOfRange _ _ _ | .watchdogExpiry | .ddrScrubBurst _ | .fwActivateRestart => true
  | _ => false

/-- Rows at which values of the safety set, or releases that the active controller passes on, come into force (R462, R464). -/
def boundaryRow : Instr → Bool
  | .pickStart _ | .boltBoundary | .itemReceive _ | .placementRunStart | .placementRunComplete => true
  | _ => false

end Sys2Proof.Machine
end

