-- ==== Sys2Proof/Certificates/Slice0/Obligations.lean ====
section
/-! DEFINITION. The statements for the provers. `quiet s t` of Safety.lean says that outside the carriers nothing differs between `s`
and `t`; the carriers are what takes completions, events and items away: the mailboxes, the turns of the Heddle, the event log, the
QSPI registers, the CAN channels and the Selvedge record. -/
open Sys2Proof Sys2Proof.Machine

/-! ### Commands that only read -/

/-- NOP completes with an empty payload; the status commands return the registers of R373, R493 and R465 and the staging areas of R391; the
event log and the audit log are read from a record on, up to 15 records (R397, R420); the placement report, the Draft and the rights words of
a target are read as they stand (R74, R132, R405). A standby serves these too; a command it does not serve completes there with
CMD_STANDBY, the arm command with ACQ_STANDBY, and has no effect (R353, R380). Nothing outside the carriers changes (`quiet`; R378, R391).
The model's readings that it rests on: logs 24 and 71.
Rows that it says answer a next state with their effect: nop, statusRead, evlogRead, parStaged, placeReport, draftRead, accRead,
auditRead, safeStatus, pairStatus. -/
def Obligations.ReadCommandsReturn : Prop :=
  ∀ (e : CmdEntry) (s : State), entryTakes s e = true →
    (∀ i op, rowCommand i = some (e, op) → isStandby s = true → opStandby op = false →
      goes i s (fun t => answered s t e op (if op = 0x0801 then 0xA004 else 0x2006) [] ∧ quiet s t)) ∧
    (e.payload = [] →
      completes (.nop e) s e 0x0100 [] (quiet s) ∧
      completes (.statusRead e) s e 0x0101 (words (statRegs (taken s e 0x0101) e.master)) (quiet s) ∧
      (hasRights s e.master 7 rREAD = true → completes (.pairStatus e) s e 0x0D02 (words (pairWords s)) (quiet s)) ∧
      (hasRights s e.master 6 rREAD = true → completes (.safeStatus e) s e 0x0C02 (words (safWords s)) (quiet s)) ∧
      (hasRights s e.master 0 rREAD = true → completes (.parStaged e) s e 0x0205 (stagedPayload s) (quiet s))) ∧
    (e.payload.length = 8 → 1 ≤ word e.payload 1 → word e.payload 1 ≤ 15 →
      (hasRights s e.master 3 rREAD = true →
        completes (.evlogRead e) s e 0x0102 (evlogPayload s (word e.payload 0) (word e.payload 1)) (quiet s)) ∧
      (hasRights s e.master 4 rREAD = true →
        completes (.auditRead e) s e 0x0A05 (auditPayload s (word e.payload 0) (word e.payload 1)) (quiet s))) ∧
    (∀ x n, e.payload = le 4 (x + n * 65536) → x < 65536 →
      (n ≤ 57 → hasRights s e.master 1 rREAD = true → completes (.placeReport e) s e 0x0302 (placeReportPayload s x n) (quiet s)) ∧
      (1 ≤ n → n ≤ 125 → x + n ≤ 3072 → hasRights s e.master 1 rREAD = true → completes (.draftRead e) s e 0x0303 (draftPayload s x n) (quiet s)) ∧
      (n = 0 → x < 32 → hasRights s e.master 4 rREAD = true → completes (.accRead e) s e 0x0A01 (accReadPayload s x) (quiet s)))

/-- PAR_READ returns its items, a staged value where the item asks for one and the value in force otherwise, at a standby too; nothing
outside the carriers changes (`quiet`; R380, R383, R390). The model's readings that it rests on: log 34.
Rows that it says answer a next state with their effect: parRead. -/
def Obligations.ParReadReturns : Prop :=
  ∀ (e : CmdEntry) (s : State), entryTakes s e = true → parPasses .read (taken s e 0x0201) e.master e.payload = true →
    completes (.parRead e) s e 0x0201 ((pItems e.payload 4).map (readItem (taken s e 0x0201))).flatten (quiet s)

/-- A parameter command whose items name parameters of more than one target completes with PAR_MIXED, once its length and its reserved bits
are right and every item names a parameter (R378, R385); nothing outside the carriers changes (`quiet`).
Rows that it says answer a next state with their effect: parRead, parWrite, parCommit, parDiscard. -/
def Obligations.MixedTargetsFail : Prop :=
  ∀ (e : CmdEntry) (io : IoResult) (s : State) (c : PCmd), takesNow s e = true → c.lenOk e.payload = true → c.bitsOk e.payload = true →
    (∀ i ∈ pItems e.payload c.size, c.itemOk i = true) →
    (∃ i ∈ pItems e.payload c.size, ∃ j ∈ pItems e.payload c.size, itemTarget (c = .read) i ≠ itemTarget (c = .read) j) →
    (c = .read → goes (.parRead e) s (fun t => answered s t e 0x0201 0x2018 [] ∧ quiet s t)) ∧
    (c = .write → goes (.parWrite e io) s (fun t => answered s t e 0x0202 0x2018 [] ∧ quiet s t)) ∧
    (c = .commit → goes (.parCommit e io) s (fun t => answered s t e 0x0203 0x2018 [] ∧ quiet s t)) ∧
    (c = .discard → goes (.parDiscard e) s (fun t => answered s t e 0x0204 0x2018 [] ∧ quiet s t))

/-! ### Statistics (R392, R440) -/

/-- A statistics read returns the blocks of its instances in order and changes nothing outside the carriers (`quiet`); a clear of the
network or the Loom clears the blocks of its instances one after the other, and changes nothing else outside the carriers (R392). `k` is the KIND, `first` and `cnt` the instances. The transport blocks of masters are read
and cleared alike; a clear leaves every block outside its instances as it was when the command executed (R376). A standby serves the reads
(R380).
The model's readings that it rests on: log 24.
Rows that it says answer a next state with their effect: netStatsRead, netStatsClear, loomStatsRead, loomStatsClear, hostStatsRead,
hostStatsClear. -/
def Obligations.StatisticsReadAndClear : Prop :=
  ∀ (e : CmdEntry) (s : State), entryTakes s e = true →
    (∀ (k first cnt : Nat) (x : StatKind), e.payload = words [k + first * 65536, cnt] → k < 16 → first < 65536 → 1 ≤ cnt → cnt ≤ x.most →
      cnt < 256 → first + cnt ≤ x.inst →
      let is := (List.range cnt).map (first + ·)
      (netKind k = some x → hasRights s e.master 2 rREAD = true →
        completes (.netStatsRead e) s e 0x0401 (is.map (x.block (taken s e 0x0401))).flatten (quiet s)) ∧
      (netKind k = some x → isStandby s = false → hasRights s e.master 2 rWRITE = true →
        completes (.netStatsClear e) s e 0x0402 [] (quiet (forEach is x.clear s))) ∧
      (loomKind k = some x → hasRights s e.master 0 rREAD = true →
        completes (.loomStatsRead e) s e 0x0501 (is.map (x.block (taken s e 0x0501))).flatten (quiet s)) ∧
      (loomKind k = some x → isStandby s = false → hasRights s e.master 0 rWRITE = true →
        completes (.loomStatsClear e) s e 0x0502 [] (quiet (forEach is x.clear s)))) ∧
    (∀ (first cnt : Nat), e.payload = words [first, cnt] → 1 ≤ cnt → first + cnt ≤ 12 →
      (hasRights s e.master 0 rREAD = true →
        completes (.hostStatsRead e) s e 0x0901 (((List.range cnt).map (first + ·)).map (hostBlock (taken s e 0x0901))).flatten (quiet s)) ∧
      (isStandby s = false → hasRights s e.master 0 rWRITE = true →
        completes (.hostStatsClear e) s e 0x0902 [] (fun t => quiet s t ∧
          ∀ m, hostBlock t m = if first ≤ m ∧ m < first + cnt then words [0, 0, 0, 0] else hostBlock (taken s e 0x0902) m)))

/-- CAN_STATS_READ returns the 40-byte block of a channel as it stood, and with CLR sets the block to 0, at a standby too (R380, R392, R440). Nothing outside
the carriers changes (`quiet`), and no channel but as CLR says where the master is no CAN gateway; a gateway's completion may add frames,
and to the block only FW_WAIT.
Rows that it says answer a next state with their effect: canStatsRead. -/
def Obligations.CanStatisticsRead : Prop :=
  ∀ (e : CmdEntry) (s : State) (c : Nat) (clr : Bool), entryTakes s e = true → e.payload = le 4 (c + 256 * b2n clr) → c < 3 →
    hasRights s e.master (11 + c) (if clr then rREAD + rWRITE else rREAD) = true →
      completes (.canStatsRead e) s e 0x0B02 (canStats (canOf s c)) (fun t => quiet s t ∧
        (gwMaster e.master = false → t.cans = (if clr then modCan s c canStatsClear else s).cans) ∧
        ∀ k, canStats { canOf t k with fwWait := 0 } =
          if clr = true ∧ k = c then canStats {} else canStats { canOf s k with fwWait := 0 })

/-! ### Parameters (R386 to R389) -/

/-- PAR_WRITE of values of tied sets stages every one of them, and a set that had no owner is then owned by its master. The staging area
of no other set changes, and nothing else outside the carriers (`quiet`; R386, R387). The model's readings that it rests on: log 25.
Rows that it says answer a next state with their effect: parWrite. -/
def Obligations.ParWriteStages : Prop :=
  ∀ (e : CmdEntry) (io : IoResult) (s : State), takesNow s e = true →
    let v := taken s e 0x0202
    let is := pItems e.payload 12
    parPasses .write v e.master e.payload = true → writeFails v e.master is = none → (∀ x ∈ writeVals v is, x.1.tset ≠ noSet) →
    completes (.parWrite e io) s e 0x0202 [] (fun t =>
      quiet { s with par.stages := t.par.stages } t ∧
      (∀ x ∈ writeVals v is, stageOwner t (setKey x.1 x.2.1) = some (((stageOwner s (setKey x.1 x.2.1)).getD e.master.val))) ∧
      (∀ xs x ys, writeVals v is = xs ++ x :: ys → (∀ y ∈ ys, ¬ (y.1.num = x.1.num ∧ y.2.1 = x.2.1)) → stagedVal t x.1 x.2.1 = some x.2.2) ∧
      (∀ key, (∀ x ∈ writeVals v is, setKey x.1 x.2.1 ≠ key) → tabFind t.par.stages key = tabFind s.par.stages key))

/-- PAR_WRITE of untied values. Values that change neither the pick length nor an OTP cell wait for the next pick or bolt, of those written
to one instance the last, and the completion waits for their application (R386, R517). A new pick length alone, while no run waits, starts a full run, begins the change of pick
length and brings every acquisition unit to IDLE, and the completion waits for it (R24, R341). DEV_DBG_DIS = 1 alone programs its cell behind its audit record, and the debug port holds no right any
more (R413, R414). The model's readings that it rests on: logs 25 and 82.
Rows that it says answer a next state with their effect: parWrite. -/
def Obligations.ParWriteUntiedWaits : Prop :=
  ∀ (e : CmdEntry) (io : IoResult) (s : State), takesNow s e = true →
    let v := taken s e 0x0202
    let xs := writeVals v (pItems e.payload 12)
    parPasses .write v e.master e.payload = true → writeFails v e.master (pItems e.payload 12) = none → xs ≠ [] →
    (∀ x ∈ xs, x.1.tset = noSet) →
    ((∀ x ∈ xs, x.1.num ≠ 0x0010 ∧ x.1.num ≠ 0x0014 ∧ x.1.num ≠ 0x0B01) → completesLater (.parWrite e io) s e (.applied s.warp.nextId) (fun t =>
      quiet { s with par.pends := t.par.pends, warp.nextId := s.warp.nextId + 1 } t ∧ s.par.pends <+: t.par.pends ∧
      ∀ ys x zs, xs = ys ++ x :: zs → (∀ z ∈ zs, ¬ (z.1.num = x.1.num ∧ z.2.1 = x.2.1)) →
        ∃ p ∈ t.par.pends, p.id = s.warp.nextId ∧ p.sets = [] ∧ p.at' = (if untiedBolt x.1.num then .bolt else .pick) ∧
          tabFind p.vals (pkey x.1.num x.2.1) = some x.2.2)) ∧
    (∀ p k, xs = [(p, 0, k)] → p.num = 0x0010 → k ≠ pget s 0x0010 0 → warpBusy s = false → s.warp.queue = [] →
      completesLater (.parWrite e io) s e .pickLen (fun t =>
        quiet { s with par.pends := t.par.pends, warp := t.warp, clk := t.clk, kiln := t.kiln } t ∧
        t.clk = { s.clk with plenStop := 1, plenNew := k.toNat, plenItem := t.clk.plenItem, plenAt := t.clk.plenAt } ∧
        t.clk.plenAt = (if t.clk.plenItem.isSome then peName s true else nextBolt s) ∧
        (∃ r, t.warp.running = some r ∧ r.trig = 4 ∧ r.full = true ∧ r.vals = [(pkey 0x0010 0, k)]) ∧ ∀ u < 8, (unOf t u).st = 0)) ∧
    (∀ p, xs = [(p, 0, 1)] → p.num = 0x0014 → s.acc.dbgOff = false → s.acc.log.length < 16384 → io.auditOk = true → io.otpOk = true →
      completesLater (.parWrite e io) s e (.applied s.warp.nextId) (fun t =>
        quiet { s with par.pends := t.par.pends, warp.nextId := s.warp.nextId + 1, acc := t.acc } t ∧ t.acc.dbgOff = true ∧
        (∀ w ∈ t.acc.words, w.1 % 16 ≠ 10) ∧ (∃ r, t.acc.log = r :: s.acc.log ∧ r.kind = 7 ∧ r.aseq = s.acc.nextAseq ∧ r.snap = otpSnap t.acc)))

/-- PAR_COMMIT of staged sets that pass their checks. Sets that are neither of a placement run nor safety settings wait for the next pick;
sets of a placement run ask for one, and the completion waits for it; a new safety set consumes its OTP slot behind an audit record and
waits for the next pick, in a pair for the next bolt (R388, R413, R414, R464).
The model's readings that it rests on: logs 2, 79 and 81.
Rows that it says answer a next state with their effect: parCommit. -/
def Obligations.ParCommitWaits : Prop :=
  ∀ (e : CmdEntry) (io : IoResult) (s : State), takesNow s e = true →
    (let v := taken s e 0x0203
     let is := pItems e.payload 4
     let keys := dedup (is.map itemKey)
     let vals := stagedVals v keys
     let u : State := { v with par.force := tabMerge v.par.force vals }
     parPasses .commit v e.master e.payload = true → (∀ i ∈ is, stageOwner v (itemKey i) = some e.master.val) →
     commitFail u (is.map itemKey) 0 v = none → io.flashOk = true →
     ((∀ k ∈ keys, 2 ≤ k / 256 ∧ k / 256 ≠ 23) → completesLater (.parCommit e io) s e (.applied s.warp.nextId) (fun t =>
       quiet { s with par.pends := t.par.pends, warp.nextId := s.warp.nextId + 1, boot := t.boot } t ∧
       ∃ p, t.par.pends = s.par.pends ++ [p] ∧ p.id = s.warp.nextId ∧ p.at' = .pick ∧ p.sets = keys ∧ p.vals = vals)) ∧
     ((∃ k ∈ keys, k / 256 ≤ 1) → (∀ k ∈ keys, k / 256 ≠ 23) → warpBusy s = false → s.warp.queue = [] →
       completesLater (.parCommit e io) s e (.run s.warp.nextId) (fun t =>
         quiet { s with warp := t.warp, boot := t.boot } t ∧ t.warp.place = s.warp.place ∧
         ∃ r, t.warp.running = some r ∧ r.id = s.warp.nextId ∧ r.vals = vals ∧ r.sets = keys)) ∧
     ((∃ k ∈ keys, k / 256 = 23) → (∀ k ∈ keys, 2 ≤ k / 256) → safDiffers v u = true → io.auditOk = true → io.otpOk = true → s.acc.log.length < 16384 →
       completesLater (.parCommit e io) s e (.applied s.warp.nextId) (fun t =>
         quiet { s with par.pends := t.par.pends, warp.nextId := s.warp.nextId + 1, boot := t.boot, acc := t.acc, freeCtr := t.freeCtr } t ∧
         t.acc.safUsed = s.acc.safUsed + 1 ∧ (∃ r, t.acc.log = r :: s.acc.log ∧ r.kind = 5 ∧ r.snap = otpSnap t.acc) ∧
         ∃ p, t.par.pends = s.par.pends ++ [p] ∧ p.at' = (if s.pair.en then .bolt else .pick) ∧ p.sets = keys ∧ p.vals = vals)))

/-- PAR_DISCARD of set instances that its master owns empties their staging areas and no other's; with one that it does not own it
completes with PAR_NOT_STAGED and empties none. Nothing else outside the carriers changes (`quiet`; R389).
Rows that it says answer a next state with their effect: parDiscard. -/
def Obligations.ParDiscardEmptiesItsSets : Prop :=
  ∀ (e : CmdEntry) (s : State), takesNow s e = true → parPasses .discard (taken s e 0x0204) e.master e.payload = true →
    ((∀ i ∈ pItems e.payload 4, stageOwner s (itemKey i) = some e.master.val) →
      completes (.parDiscard e) s e 0x0204 [] (fun t =>
        quiet { s with par.stages := t.par.stages } t ∧ (∀ i ∈ pItems e.payload 4, tabFind t.par.stages (itemKey i) = none) ∧
        ∀ key, (∀ i ∈ pItems e.payload 4, itemKey i ≠ key) → tabFind t.par.stages key = tabFind s.par.stages key)) ∧
    ((∃ i ∈ pItems e.payload 4, stageOwner s (itemKey i) ≠ some e.master.val) →
      goes (.parDiscard e) s (fun t => answered s t e 0x0204 0x2015 [] ∧ quiet s t))

/-! ### Placement, network (R391 to R393) -/

/-- PLACE_FULL starts a full run with the pending nodes, or queues it as the last of at most four, or completes with PLACE_BUSY; the
completion waits for the run (R68, R391). The model's readings that it rests on: log 28.
Rows that it says answer a next state with their effect: placeFull. -/
def Obligations.PlaceFullAsksForARun : Prop :=
  ∀ (e : CmdEntry) (s : State), takesNow s e = true → e.payload = [] → hasRights s e.master 1 rCOMMIT = true →
    let r : Run := { id := s.warp.nextId, trig := 3, full := true, vals := [], sets := [], nodes := [] }
    let w : Warp := { s.warp with nextId := s.warp.nextId + 1 }
    (warpBusy s = false → s.warp.queue = [] → completesLater (.placeFull e) s e (.run s.warp.nextId)
      (quiet { s with warp := { w with running := some { r with nodes := s.warp.pendNodes }, pendNodes := [] } })) ∧
    ((warpBusy s = true ∨ s.warp.queue ≠ []) → s.warp.queue.length < 4 →
      completesLater (.placeFull e) s e (.run s.warp.nextId) (quiet { s with warp := { w with queue := s.warp.queue ++ [r] } })) ∧
    (4 ≤ s.warp.queue.length → goes (.placeFull e) s (fun t => answered s t e 0x0301 0x5004 [] ∧ quiet s t))

/-- NODE_READMIT unmutes its node, from which it asks for a key frame, and AXIS_REKEY asks for one from the node of its declared axis; a
node that is not muted and an axis that is not declared stay as they are. Nothing else outside the carriers changes (`quiet`; R140, R160,
R392).
Rows that it says answer a next state with their effect: nodeReadmit, axisRekey. -/
def Obligations.NodeCommands : Prop :=
  ∀ (e : CmdEntry) (s : State) (n : Nat), takesNow s e = true → e.payload = le 4 n → hasRights s e.master 2 rWRITE = true →
    (n < 64 → completes (.nodeReadmit e) s e 0x0403 []
      (quiet (if (ndOf s n).muted = true ∨ (ndOf s n).muteDue = true then
        modNd s n (fun d => reqRekey (ps s) { d with muted := false, muteDue := false, viol := 0 }) else s))) ∧
    (n < 128 → completes (.axisRekey e) s e 0x0406 [] (quiet (if axClass s n = 0 then s else modNd s (axNode s n) (reqRekey (ps s)))))

/-- BRANCH_CUT takes power and markers from a branch, which no longer waits to be powered, counts it and loses its nodes; a branch already
cut stays as it is. BRANCH_READMIT of a branch that is not cut changes nothing; of a cut and enabled one it waits for the end of the 100 ms,
or at once powers the branch, which then waits for its markers, with the partner in SYNC behind its acknowledgement, and unmutes its nodes;
of a cut and disabled one it completes. Commits that wait for the acknowledgement of a node that is lost end. Other
branches stay as they are, and everything else outside the carriers (`quiet`; R92, R142, R240, R392, R478).
The model's readings that it rests on: logs 83 and 102.
Rows that it says answer a next state with their effect: branchCut, branchReadmit. -/
def Obligations.BranchCommands : Prop :=
  ∀ (e : CmdEntry) (s : State) (b : Nat), takesNow s e = true → e.payload = le 4 b → b < 16 → hasRights s e.master 2 rWRITE = true →
    ((brOf s b).cut = true → completes (.branchCut e) s e 0x0404 [] (quiet s)) ∧
    ((brOf s b).cut = false → completes (.branchCut e) s e 0x0404 [] (fun t =>
      quiet { s with brs := t.brs, brCnt := t.brCnt, nodes := t.nodes, ndCnt := t.ndCnt, net.toPower := s.net.toPower.filter (· != b),
                     par := { s.par with pends := t.par.pends, stages := t.par.stages } } t ∧
      (s.par.stepMod = [] → t.par = s.par) ∧ (brOf t b).cut = true ∧ (brOf t b).brpwr = false ∧ (brOf t b).markers = false ∧ (brOf t b).cutT = s.clk.now ∧ (brOf t b).xfers = [] ∧
      (brcOf t b).cut = satInc 16 (brcOf s b).cut ∧ brsBut s t b ∧ (∀ k, k ≠ b → brcOf t k = brcOf s k) ∧
      (∀ i < 4, (ndOf s (4 * b + i)).joined = true → (ndOf t (4 * b + i)).admitted = false ∧ (ndOf t (4 * b + i)).asg = none))) ∧
    ((brOf s b).cut = false → completes (.branchReadmit e) s e 0x0405 [] (quiet s)) ∧
    ((brOf s b).cut = true → brEnabled s b = true → s.clk.now < (brOf s b).cutT + 100 * millisecond →
      completesLater (.branchReadmit e) s e (.readmit b) (quiet (modBr s b (fun r => { r with readmit := true })))) ∧
    ((brOf s b).cut = true → brEnabled s b = true → (brOf s b).cutT + 100 * millisecond ≤ s.clk.now →
      completesLater (.branchReadmit e) s e (.readmit b) (fun t =>
        quiet { s with brs := t.brs, nodes := t.nodes } t ∧
        brOf t b = { brOf s b with cut := false, readmit := false, brpwr := true, resume := true, eowNow := false, eowNodes := [], eowPast := [],
                                   resumeItem := (brOf t b).resumeItem } ∧ brsBut s t b ∧
        (brOf t b).resumeItem.isSome = (mirroring s && inSync s) ∧
        ∀ n, ndOf t n = if n / 4 = b then { ndOf s n with muted := false, muteDue := false } else ndOf s n)) ∧
    ((brOf s b).cut = true → brEnabled s b = false → completes (.branchReadmit e) s e 0x0405 [] (fun t =>
      quiet { s with brs := t.brs, nodes := t.nodes } t ∧ brsBut s t b ∧ (brOf t b).brpwr = (if s.clk.now < (brOf s b).cutT + 100 * millisecond then (brOf s b).brpwr else false)))

/-- The four parts of MSTAB_LOAD: the first opens a load in place of any other, the next two extend the load they continue, unread, and the
last brings the check of the whole image, which becomes that of the node and is sent at once to an integrated one. A part that continues no
load completes with CMD_SEQUENCE, an image with an entry above 0x8000 with CMD_RANGE and one that an axis's state does not allow with
AX_COND; the load is over then (R235, R236, R393). The model's readings that it rests on: log 24.
Rows that it says answer a next state with their effect: mstabLoad. -/
def Obligations.MicrostepTableLoads : Prop :=
  ∀ (e : CmdEntry) (s : State) (n part : Nat) (bs : Bytes), takesNow s e = true → n < 64 → part < 4 → e.payload = le 4 (n + 256 * part) ++ bs →
    bs.length = 256 → hasRights s e.master 2 rWRITE = true →
    (part = 0 → completes (.mstabLoad e) s e 0x0407 (words [0]) (quiet (modNd (loadDrop s) n (fun d =>
      { d with load := some { master := e.master, next := 1, seq := e.seq, t := s.clk.now, bytes := bs } })))) ∧
    (part ≠ 0 → loadFits s n e.master part e.seq = none → goes (.mstabLoad e) s (fun t => answered s t e 0x0407 0x2008 [] ∧ quiet s t)) ∧
    (∀ l, loadFits s n e.master part e.seq = some l → part ≠ 0 →
      let img := l.bytes ++ bs
      (part < 3 → completes (.mstabLoad e) s e 0x0407 (words [0]) (quiet (modNd s n (fun d =>
        { d with load := some { l with next := part + 1, seq := e.seq, bytes := img } })))) ∧
      (part = 3 → tabOk img = false → goes (.mstabLoad e) s (fun t => answered s t e 0x0407 0x2004 [] ∧ quiet (loadDrop s) t)) ∧
      (part = 3 → tabOk img = true → tabAxesOk s n = false → goes (.mstabLoad e) s (fun t => answered s t e 0x0407 0x6001 [] ∧ quiet (loadDrop s) t)) ∧
      (part = 3 → tabOk img = true → tabAxesOk s n = true → (ndOf s n).integrated = false → completes (.mstabLoad e) s e 0x0407 (words [1])
        (quiet (modNd (loadDrop s) n (fun d => { d with image := img, imgRetry := false })))) ∧
      (part = 3 → tabOk img = true → tabAxesOk s n = true → (ndOf s n).integrated = true → completesLater (.mstabLoad e) s e (.mstab n) (fun t =>
        quiet { s with nodes := t.nodes, brs := t.brs } t ∧ ndOf t n = { ndOf s n with load := none, image := img, imgRetry := false } ∧
        (∀ k < 64, k ≠ n → ndOf t k = { ndOf s k with load := none }) ∧ brsBut s t (n / 4) ∧
        ∃ x ∈ (brOf t (n / 4)).xfers, x.node = n ∧ xferRank x.kind = 5)))

/-! ### Axes (R205, R281, R289, R292, R311, R394, R395) -/

/-- AXIS_ENABLE waits for the end of its pick (R207). There, of an axis in READY that may be enabled: ENABLED with the reset of R208, the
kindling counts at N_eff and a boost (R228, R238). Of a DISABLED one that a disable command keeps there, and that is placed on an integrated
node: DIS_CMD is cleared, the next decode takes a baseline, and the command waits for it (R205, R250). An axis that has changed its state in
the pick rejects it with AX_COND (R207). No other axis changes, and nothing else outside the carriers (`quiet`; R205, R208, R394).
Rows that it says answer a next state with their effect: axisEnable. -/
def Obligations.AxisEnableEnables : Prop :=
  (∀ (e : CmdEntry) (s : State) (a : Nat), takesNow s e = true → e.payload = le 4 a → a < 128 → hasRights s e.master (axTarget a) rMOVE = true →
    completesLater (.axisEnable e) s e (.axis 0x0601 a) (quiet s)) ∧
  (∀ (s : State) (m a : Nat) (f : Flight), actsAtEnd s m 0x0601 a f →
    let t := axisCmds s
    ((axOf s a).sm.changed = true → ended s t m f 0x6001 ∧ quiet s t) ∧
    ((axOf s a).sm.changed = false → wrOpen s a = false → (axOf s a).sm.st = .ready → enaCond s a = true →
      ended s t m f 0 ∧ quiet { s with axes := t.axes } t ∧ axesBut s t a ∧ (axOf t a).sm.st = .enabled ∧ (axOf t a).sm.changed = true ∧
      (axOf t a).fb = (axOf s a).fb ∧ (axOf t a).prof.posRef = (axOf s a).fb.pos ∧ (axOf t a).prof.vRef = 0 ∧ (axOf t a).prof.q = 2 * (axOf s a).fb.pos ∧
      (axOf t a).prof.queue = (axOf s a).prof.queue ∧ (axOf t a).lp.iqRef = 0 ∧ (axOf t a).md.cA = nEff s a ∧ (axOf t a).md.cB = nEff s a ∧
      (axOf t a).md.cC = nEff s a ∧ (axOf t a).md.boost = some (ps s)) ∧
    ((axOf s a).sm.changed = false → wrOpen s a = false → (axOf s a).sm.st = .disabled → (axOf s a).sm.disCmd = true → placed s a = true →
      (ndOf s (axNode s a)).integrated = true → (axClass s a = 4 ∨ enaCond s a = true) →
      (mbOf t m).flights.any (fun g => g.entry == f.entry && g.wait == some (.enable a)) = true ∧ quiet (modAx s a (fun q =>
        { q with sm := { q.sm with disCmd := false, enaDue := true }, fb := { q.fb with valid := false, rebase := false } })) t))

/-- AXIS_DISABLE and FAULT_RESET wait for the end of their pick (R207). There, a disable command brings an axis from READY, ENABLED, FAULT or
SAFE_OFF to DISABLED: its queue is empty and its homing ended (R205). A fault reset of an axis whose cause is gone clears FCODE: an axis with
the reaction OFF goes to READY, one in DISABLED or READY stays there (R205, R550). No other axis changes, no group but that of the axis,
whose path it leaves, and nothing else outside the carriers (`quiet`). An axis that has changed its state in the pick rejects both (R207).
The model's readings that it rests on: logs 18, 50 and 109.
Rows that it says answer a next state with their effect: axisDisable, faultReset. -/
def Obligations.AxisDisableAndFaultReset : Prop :=
  (∀ (e : CmdEntry) (s : State) (a : Nat), takesNow s e = true → e.payload = le 4 a → a < 128 → hasRights s e.master (axTarget a) rMOVE = true →
    completesLater (.axisDisable e) s e (.axis 0x0602 a) (quiet s) ∧ completesLater (.faultReset e) s e (.axis 0x0603 a) (quiet s)) ∧
  (∀ (s : State) (m op a : Nat) (f : Flight), actsAtEnd s m op a f → op = 0x0602 ∨ op = 0x0603 →
    let t := axisCmds s
    let only := quiet { s with axes := t.axes, grps := t.grps } t ∧ axesBut s t a ∧ ∀ g, (inGroup s a = false ∨ g ≠ axGroup s a) → grpOf t g = grpOf s g
    ((axOf s a).sm.changed = true → ended s t m f 0x6001 ∧ quiet s t) ∧
    (op = 0x0602 → (axOf s a).sm.changed = false → (axOf s a).sm.st ∈ [AxSt.ready, .enabled, .fault, .safeOff] →
      ended s t m f 0 ∧ only ∧ (axOf t a).sm.st = .disabled ∧ (axOf t a).sm.disCmd = true ∧ (axOf t a).sm.fcode = (axOf s a).sm.fcode ∧
      (axOf t a).prof.queue = [] ∧ (axOf t a).prof.live = false ∧ (axOf t a).hm.phase = 0 ∧ (axOf t a).fb.pos = (axOf s a).fb.pos) ∧
    (op = 0x0603 → (axOf s a).sm.changed = false → causeGone s a (axOf s a).sm.fcode = true →
      (((axOf s a).sm.st = .fault ∧ (axOf s a).sm.react = 2) ∨ ((axOf s a).sm.st = .disabled ∧ (axOf s a).sm.fcode ≠ 0) ∨
        ((axOf s a).sm.st = .ready ∧ (axOf s a).sm.fcode ≠ 0)) →
      ended s t m f 0 ∧ only ∧ (axOf t a).sm.fcode = 0 ∧ (axOf t a).fb.pos = (axOf s a).fb.pos ∧
      (axOf t a).sm.st = (if (axOf s a).sm.st = .fault then .ready else (axOf s a).sm.st)))

/-- OUTPUT_OVERRIDE of an ENABLED axis without entries, whose state has not changed in the pick, holds its body for N picks from the next
record on; the completion waits for that record, and nothing else outside the carriers changes (`quiet`; R207, R394, R395). The model's readings that it rests on: log 53.
Rows that it says answer a next state with their effect: outputOverride. -/
def Obligations.OutputOverrideWaits : Prop :=
  ∀ (e : CmdEntry) (s : State) (a n : Nat) (bs : Bytes) (b : Body), takesNow s e = true → a < 128 → 1 ≤ n → n ≤ 32000 →
    e.payload = le 4 (a + 65536 * n) ++ bs → bs.length = 12 → parseBody (axFmt s a) bs = some b →
    hasRights s e.master (axTarget a) (rMOVE + rWRITE) = true → (axOf s a).sm.st = .enabled → (axOf s a).sm.changed = false → (axOf s a).prof.queue = [] →
    (inGroup s a = false ∨ (grpOf s (axGroup s a)).queue = []) →
    completesLater (.outputOverride e) s e (.override a) (quiet (modMd s a (fun q => { q with ovr := some (n, b) })))

/-- MOVE appends its entry to the queue of its axis, or makes it the only one, behind the end of an output override (R281, R287, R395).
GROUP_MOVE appends one entry with a target for every member to the path of its group, or makes it the only one; the queues of the axes
stay (R281, R292). No other axis and no other group changes, and nothing else outside the carriers (`quiet`). The model's readings that it rests on: logs 51 and 56.
Rows that it says answer a next state with their effect: move, groupMove. -/
def Obligations.MovesQueue : Prop :=
  (∀ (e : CmdEntry) (s : State) (a : Nat) (bs : Bytes), takesNow s e = true → a < 128 → e.payload = le 4 a ++ bs → bs.length = 20 →
      hasRights s e.master (axTarget a) rMOVE = true →
      let d := descOf bs
      let u := ovrStop s a true
      descStatus u a d (descBase u a d) (axOf u a).prof.queue.length true = 0 →
      completes (.move e) s e 0x0701 [] (fun t =>
        quiet { s with axes := t.axes } t ∧ axesBut s t a ∧ (axOf t a).md.ovr = none ∧ (axOf t a).prof.limStop = false ∧ (axOf t a).sm.st = (axOf s a).sm.st ∧
        (axOf t a).prof.queue = (if d.replace then [] else (axOf s a).prof.queue) ++ [descEntry d (descBase u a d)])) ∧
  (∀ (e : CmdEntry) (s : State) (g n : Nat) (bs : Bytes), takesNow s e = true → g < 16 → n < 256 → n ≠ 0 → n = (grpMembers s g).length →
      e.payload = le 4 (g + 256 * n) ++ bs → bs.length = 20 * n → (∀ a ∈ grpMembers s g, hasRights s e.master (axTarget a) rMOVE = true) →
      let u := forEach (grpMembers s g) (fun t a => ovrStop t a true) s
      let ds := grpDescs u g e.payload
      grpStatus u g ds = 0 →
      completes (.groupMove e) s e 0x0702 [] (fun t =>
        quiet { s with axes := t.axes, grps := t.grps } t ∧ (∀ k, k ≠ g → grpOf t k = grpOf s k) ∧ (grpOf t g).qdec = none ∧
        (∀ a, (axOf t a).prof.queue = (axOf s a).prof.queue ∧ (a ∉ grpMembers s g → axOf t a = axOf s a)) ∧
        ∃ x, (grpOf t g).queue = (if ((ds.head?.map (·.2)).getD (descOf [])).replace then [] else (grpOf s g).queue) ++ [x] ∧
          x.mem.map (·.1) = grpMembers s g))

/-- HALT of an axis without a group, or of one that homes, leaves one entry that stops its path as the only one in its queue and ends a
homing sequence; HALT of a group whose members accept moves leaves one entry that stops its path as the only one of the group. No other
axis changes, no axis changes its state, and nothing else outside the carriers changes (`quiet`; R207, R289, R298, R320). The model's readings that it rests on: logs 51 and 54.
Rows that it says answer a next state with their effect: halt. -/
def Obligations.HaltStops : Prop :=
  ∀ (e : CmdEntry) (s : State), takesNow s e = true →
    (∀ a < 128, e.payload = le 4 a → hasRights s e.master (axTarget a) rMOVE = true → (axOf s a).sm.st ∈ [AxSt.enabled, .moving, .hold] → (axOf s a).sm.changed = false →
      (homing (axOf s a) = true ∨ (inGroup s a = false ∧ hasProfile s a = true)) →
      completes (.halt e) s e 0x0703 [] (fun t =>
        quiet { s with axes := t.axes } t ∧ axesBut s t a ∧ (axOf t a).prof.queue = [haltEntry] ∧ (axOf t a).hm.phase = 0 ∧ (axOf t a).sm.st = (axOf s a).sm.st)) ∧
    (∀ g < 16, e.payload = le 4 (g + 256) → grpMembers s g ≠ [] →
      (∀ a ∈ grpMembers s g, hasRights s e.master (axTarget a) rMOVE = true ∧ moveState s a = true) →
      completes (.halt e) s e 0x0703 [] (fun t =>
        quiet { s with axes := t.axes, grps := t.grps } t ∧ (∀ k, k ≠ g → grpOf t k = grpOf s k) ∧ (∀ a, (axOf t a).sm.st = (axOf s a).sm.st) ∧
        (∀ a, a ∉ grpMembers s g → axOf t a = axOf s a) ∧ (grpOf t g).queue = [{ vmax := 0, defer := false, tag := 0, mem := [] }]))

/-- HOME of an axis that may home starts the sequence of its mode in its direction: MOVING, its queue empty, the parameters of the
sequence taken, and with an encoder of class 1 or 2 no longer referenced. No other axis changes, and nothing else outside the carriers
(`quiet`; R311 to R313, R322).
Rows that it says answer a next state with their effect: home. -/
def Obligations.HomeStarts : Prop :=
  ∀ (e : CmdEntry) (s : State) (a : Nat), takesNow s e = true → e.payload = le 4 a → a < 128 → hasRights s e.master (axTarget a) rMOVE = true →
    homeStatus s a = 0 → completes (.home e) s e 0x0704 [] (fun t =>
      quiet { s with axes := t.axes } t ∧ axesBut s t a ∧ (axOf t a).sm.st = .moving ∧ (axOf t a).prof.queue = [] ∧ (axOf t a).md.ovr = none ∧
      (axOf t a).hm.mode = hmModeOf s a ∧ (axOf t a).hm.s = hmDirOf s a ∧ (axOf t a).hm.phase ∈ [1, 2, 6] ∧
      (axOf t a).hm.par = (List.range 7).map (fun i => pget s (0x0631 + i) a) ∧ (axEnc s a ∈ [1, 2] → (axOf t a).fb.refd = false))

/-! ### Acquisition (R330 to R352) -/

/-- The acquisition commands that need ARM. ACQ_ARM starts the recording of a unit in IDLE with channels or in STOPPED, ACQ_DISARM brings a
unit to IDLE, and ACQ_FORCE hands a trigger of source 255 at the pick's sampling instant to an ARMED, TRIGGERED, CLOSING or FULL unit
(R330, R333). ACQ_RELEASE drops the capture it names, or all of them for 0, and returns their number; a FULL unit of which one is dropped
goes on to ARMED or stays in FULL (R340). HIST_FREEZE and HIST_RESTART stop and resume the history of one axis (R351). No other unit or
history changes, and nothing else outside the carriers but the Kiln's staging (`quiet`). The model's readings that it rests on: logs 72 and 73.
Rows that it says answer a next state with their effect: acqArm, acqDisarm, acqForce, acqRelease, histFreeze, histRestart. -/
def Obligations.AcquisitionCommands : Prop :=
  (∀ (e : CmdEntry) (s : State) (u : Nat), takesNow s e = true → e.payload = le 4 u → u < 8 → hasRights s e.master 8 rARM = true →
      (((unOf s u).st = 0 ∧ unChans s u ≠ []) ∨ (unOf s u).st = 4 → completes (.acqArm e) s e 0x0801 [] (fun t =>
        quiet { s with kiln := t.kiln } t ∧ (∀ k, k ≠ u → unOf t k = unOf s k) ∧
        (unMode s u ≠ 1 → (unOf t u).st = (if unMode s u = 2 then 6 else 1) ∧ (unOf t u).caps = []) ∧
        (unMode s u = 1 → (unOf t u).st ∈ [1, 5] ∧ (unOf t u).caps <:+ (unOf s u).caps) ∧
        (unOf t u).code = pnat s 0x0701 u ∧ (unOf t u).seq = (unOf s u).seq ∧ (unMode s u ≠ 2 → (unOf t u).armPs = ps s))) ∧
      (completes (.acqDisarm e) s e 0x0802 [] (fun t =>
        quiet { s with kiln := t.kiln } t ∧ (∀ k, k ≠ u → unOf t k = unOf s k) ∧ (unOf t u).st = 0 ∧ ((unOf s u).st ≠ 0 → (unOf t u).trig = none ∧ (unOf t u).rateDue = none) ∧
        ((unOf s u).st ≠ 2 → (unOf s u).st ≠ 3 → (unOf t u).caps = (unOf s u).caps))) ∧
      ((unOf s u).st = 1 ∨ (unOf s u).st = 2 ∨ (unOf s u).st = 3 ∨ (unOf s u).st = 5 → completes (.acqForce e) s e 0x0803 []
        (quiet (unArrive s u { t32 := (s.clk.pickT0 + 160) * 32, src := 255 })))) ∧
  (∀ (e : CmdEntry) (s : State), takesNow s e = true → hasRights s e.master 8 rARM = true →
      (∀ u q, u < 8 → q < 2 ^ 32 → e.payload = words [u, q] →
        let keep := (unOf s u).caps.filter (fun c => q != 0 && c.seq != q)
        let full := decide ((unOf s u).st = 5) && decide (keep.length < (unOf s u).caps.length)
        completes (.acqRelease e) s e 0x0804 (words [(unOf s u).caps.length - keep.length]) (fun t =>
          quiet { s with kiln := t.kiln } t ∧ (∀ k, k ≠ u → unOf t k = unOf s k) ∧ (full = false → unOf t u = { unOf s u with caps := keep }) ∧
          (full = true → (unOf t u).st ∈ [1, 5] ∧ (unOf t u).caps <:+ keep))) ∧
      (∀ a, a < 128 → e.payload = le 4 a →
        completes (.histFreeze e) s e 0x0808 [] (fun t =>
          quiet { s with kiln := t.kiln } t ∧ (∀ k, k ≠ a → hiOf t k = hiOf s k) ∧ (hiOf t a).cmdFrozen = true ∧ (hiOf t a).blocks = (hiOf s a).blocks ∧
          t.kiln.units = s.kiln.units) ∧
        completes (.histRestart e) s e 0x0809 [] (quiet (modHi s a (fun h => { h with frozen := false, cmdFrozen := false, left := none })))))

/-- The acquisition reads. ACQ_READ_CAPTURE and HIST_READ return bytes of a capture, as blocks or as reconstructed samples, or of the blocks
of one recorded variable, and count a corrected error; an uncorrectable one is counted and completes with DDR_DATA_LOST (R352, R507).
A capture or history read that meets a block that is lost completes so too. ACQ_READ_STREAM returns the whole blocks at the head of a stream
that fit and removes them (R343); where one of them is lost, or the read meets an uncorrectable error, it completes with DDR_DATA_LOST: the
lost ones leave the ring, all that it read in the second case. Nothing else outside the carriers
changes, but for the blocks that an uncorrectable error marks (`quiet`).
The model's readings that it rests on: logs 73, 77 and 125.
Rows that it says answer a next state with their effect: acqReadCapture, acqReadStream, histRead. -/
def Obligations.AcquisitionReads : Prop :=
  ∀ (e : CmdEntry) (s : State) (ecc : EccResult), takesNow s e = true → hasRights s e.master 8 rREAD = true →
    (∀ u q off len c dec, u < 8 → q < 2 ^ 32 → off < 2 ^ 32 → 4 ≤ len → len ≤ 1008 → len % 4 = 0 → e.payload = words [u + 256 * b2n dec, q, off, len] →
      (unOf s u).caps.find? (fun x => x.seq = q) = some c →
      (ecc ≠ .uncorrectable → (∀ k ∈ c.blocks, k.lost = false) →
        completes (.acqReadCapture e ecc) s e 0x0805 (((if dec then (c.blocks.map kRecon).flatten else capBytes c).drop off).take len) (quiet (eccCount s ecc))) ∧
      (ecc = .uncorrectable → goes (.acqReadCapture e ecc) s (fun t =>
        answered s t e 0x0805 0xF006 [] ∧ quiet { s with kiln := t.kiln, boot.uncorr := satInc 16 s.boot.uncorr } t))) ∧
    (∀ u n, u < 8 → 268 ≤ n → n ≤ 1008 → e.payload = words [u, n] → (unOf s u).st = 6 →
      let ks := blocksFit n (unOf s u).blocks
      ((∀ k ∈ ks, k.lost = false) → ecc ≠ .uncorrectable → completes (.acqReadStream ⟨e, ecc⟩) s e 0x0806 (ks.map kBytes).flatten
        (quiet (modUn (eccCount s ecc) u (fun y => { y with blocks := y.blocks.drop ks.length })))) ∧
      ((∃ k ∈ ks, k.lost = true) → ecc ≠ .uncorrectable → goes (.acqReadStream ⟨e, ecc⟩) s (fun t => answered s t e 0x0806 0xF006 [] ∧
        quiet (modUn (eccCount s ecc) u (fun y => { y with blocks := ks.filter (fun k => !k.lost) ++ y.blocks.drop ks.length })) t)) ∧
      (ecc = .uncorrectable → goes (.acqReadStream ⟨e, ecc⟩) s (fun t => answered s t e 0x0806 0xF006 [] ∧
        quiet (modUn (eccCount s ecc) u (fun y => { y with blocks := y.blocks.drop ks.length })) t))) ∧
    (∀ a v off len, a < 128 → v < 8 → off < 2 ^ 32 → 4 ≤ len → len ≤ 1008 → len % 4 = 0 → e.payload = words [a + 256 * v, off, len] →
      (ecc ≠ .uncorrectable → (∀ k ∈ (hiOf s a).blocks, k.lost = false) →
        completes (.histRead e ecc) s e 0x0807 (((((hiOf s a).blocks.filter (fun k => k.hvar = v)).map kBytes).flatten.drop off).take len)
          (quiet (eccCount s ecc))) ∧
      (ecc = .uncorrectable → goes (.histRead e ecc) s (fun t =>
        answered s t e 0x0807 0xF006 [] ∧ quiet { s with kiln := t.kiln, boot.uncorr := satInc 16 s.boot.uncorr } t)))

/-! ### Access tables, keys (R403 to R416) -/

/-- An ACC_WRITE of a new word with OWN, which leaves the target an owner, appends an audit record with the old and the new word, sets the
word and no other, and counts the change; with the partner in SYNC it waits for it (R405 to R407, R416).
The model's readings that it rests on: log 41.
Rows that it says answer a next state with their effect: accWrite. -/
def Obligations.AccessWriteSetsAWord : Prop :=
  ∀ (e : CmdEntry) (io : IoResult) (s : State) (tgt m : Nat) (w : BitVec 16), takesNow s e = true → tgt < 32 → m < 12 → w.toNat < 256 →
    e.payload = le 4 (tgt + 256 * m + 65536 * w.toNat) → reservedTarget tgt = false → hasRights s e.master tgt rOWN = true →
    m ≠ 0 → m ≠ 9 → m ≠ 11 → (m = 10 → s.acc.dbgOff = false) → w ≠ rightsOf s m tgt → (w.getLsbD 6 = true ∨ owners s tgt ≠ [m]) →
    io.auditOk = true → io.flashOk = true → s.acc.log.length < 16384 →
    let P := fun (t : State) =>
      quiet { s with acc := t.acc } t ∧ t.acc.words = tabSet s.acc.words (tgt * 16 + m) w ∧
      tabGet 0 t.acc.counts tgt = (tabGet 0 s.acc.counts tgt + 1) % 2 ^ 32 ∧ t.acc.keys = s.acc.keys ∧ otpSnap t.acc = otpSnap s.acc ∧
      ∃ r, t.acc.log = r :: s.acc.log ∧ r.kind = 1 ∧ r.obj = tgt ∧ r.master = e.master ∧ r.oldv = (rightsOf s m tgt).toNat ∧ r.newv = w.toNat + m * 2 ^ 20
    ((mirroring s && inSync s) = false → completes (.accWrite e io) s e 0x0A02 [] P) ∧
    ((mirroring s && inSync s) = true → ∃ n, completesLater (.accWrite e io) s e (.partner n) P)

/-- KEY_PROVISION puts a key into an empty slot for a master without a live one and returns its check value, KEY_REVOKE ends a live slot;
both behind an audit record, and no other slot changes (R410, R411, R414). With the partner in SYNC they wait for it, or complete with
ACC_KEY_SLOT and change no slot where the partner holds its slot in another state, which is a free value (R412, log 2). Nothing else outside
the carriers changes (`quiet`). The model's readings that it rests on: logs 2 and 42.
Rows that it says answer a next state with their effect: keyProvision, keyRevoke. -/
def Obligations.KeyCommands : Prop :=
  ∀ (e : CmdEntry) (io : IoResult) (s : State) (i : Nat), takesNow s e = true → i < 8 → hasRights s e.master 4 rOWN = true →
    io.auditOk = true → io.otpOk = true → s.acc.log.length < 16384 →
    let syn := mirroring s && inSync s
    let no := syn && Config.freeBool s.freeCtr
    let Q := fun (t : State) => quiet { s with freeCtr := s.freeCtr + 1 } t
    let P := fun (kind m : Nat) (k : KeySlot) (t : State) =>
      quiet { s with acc := t.acc, freeCtr := s.freeCtr + b2n syn } t ∧ keyOf t i = k ∧ (∀ j, j ≠ i → keyOf t j = keyOf s j) ∧ t.acc.words = s.acc.words ∧
      ∃ r, t.acc.log = r :: s.acc.log ∧ r.kind = kind ∧ r.obj = i ∧ r.master = m ∧ r.snap = otpSnap t.acc
    (∀ m key, 1 ≤ m → m ≤ 4 → List.length key = 32 → e.payload = le 4 (i + 256 * m) ++ key → (keyOf s i).state = 0 → liveSlots s m = [] →
      (e.master = 5 ∨ e.master = 10) →
      let k : KeySlot := { state := 1, master := m, key := key }
      (syn = false → completes (.keyProvision e io) s e 0x0A03 (le 4 (keyCheck key)) (P 2 e.master k)) ∧
      (no = true → goes (.keyProvision e io) s (fun t => answered s t e 0x0A03 0xB003 [] ∧ Q t)) ∧
      (syn = true → no = false → ∃ n, completesLater (.keyProvision e io) s e (.partner n) (P 2 e.master k))) ∧
    (e.payload = le 4 i → (keyOf s i).state = 1 →
      let k : KeySlot := { keyOf s i with state := 2 }
      (syn = false → completes (.keyRevoke e io) s e 0x0A04 [] (P 3 e.master k)) ∧
      (no = true → goes (.keyRevoke e io) s (fun t => answered s t e 0x0A04 0xB003 [] ∧ Q t)) ∧
      (syn = true → no = false → ∃ n, completesLater (.keyRevoke e io) s e (.partner n) (P 3 e.master k)))

/-! ### CAN (R430 to R433) -/

/-- CAN_TX appends a valid frame to the FIFO of a running channel with room and returns the number of entries before it; other channels
take at most frames of the completion itself, where the master is a CAN gateway (R430, R431). CAN_ABORT_REQUEUE with the head on the bus
(a free value, log 2, until its attempt ends where it is known) waits for the end of its attempt, and otherwise puts the FIFO in the order of
its keys at once (R433).
The model's readings that it rests on: log 10.
Rows that it says answer a next state with their effect: canAbortRequeue, canTx. -/
def Obligations.CanCommands : Prop :=
  ∀ (e : CmdEntry) (s : State) (c : Nat), takesNow s e = true → c < 3 → hasRights s e.master (11 + c) rWRITE = true →
    (∀ id d b fd ide, List.length d = b → b ≤ 64 → id < 2 ^ 29 → e.payload = words [c + 256 * b2n fd + 512 * b2n ide + 65536 * b, id] ++ d →
      let f : CanFrame := { ide := ide, fdf := fd, remote := false, ident := BitVec.ofNat 29 id, data := d }
      canRunning (canOf s c) = true → canTxOk s c f = true → (canOf s c).fifo.length < 24 →
      let x : CanEnt := { f := f, brs := fd && nbit (pnat s 0x0803 c) 1, host := true, t := s.clk.now }
      completes (.canTx e) s e 0x0B03 (le 4 (canOf s c).fifo.length) (fun t =>
        quiet s t ∧ (canOf s c).fifo ++ [x] <+: (canOf t c).fifo ∧ (∀ k, k ≠ c → canGrows (canOf s k) (canOf t k)) ∧
        (gwMaster e.master = false → cansBut s t c ∧ (canOf t c).fifo = (canOf s c).fifo ++ [x]))) ∧
    (e.payload = le 4 c →
      let h := headBusy s c
      let r := canRequeue s.clk.now (canOf s c)
      ((canRunning (canOf s c) = false ∨ (canOf s c).fifo = []) → h = (s, false)) ∧
      (canRunning (canOf s c) = true → (canOf s c).fifo ≠ [] → (canOf s c).onBus = true → h = (s, true)) ∧
      (h.2 = true → completesLater (.canAbortRequeue e) s e (.canHead c) (fun t =>
        quiet { s with freeCtr := h.1.freeCtr } t ∧ cansBut s t c ∧ canOf t c = { canOf s c with onBus := true })) ∧
      (h.2 = false → completes (.canAbortRequeue e) s e 0x0B01 (le 4 r.2) (fun t =>
        quiet { s with freeCtr := h.1.freeCtr } t ∧ canGrows r.1 (canOf t c) ∧ (gwMaster e.master = false → cansBut s t c ∧ canOf t c = r.1))))

/-! ### Safety, pair, firmware (R458, R487, R504) -/

/-- SAFE_RESET over a safe network replaces the request of that network and waits for the Damper, or completes at once when the Damper is
halted; the groups are as they were. A master that no safe network carries gets SAFE_NET, a mask of 0 SAFE_MASK (R458).
The model's readings that it rests on: logs 37 and 71.
Rows that it says answer a next state with their effect: safeReset. -/
def Obligations.SafeResetRequests : Prop :=
  ∀ (e : CmdEntry) (s : State) (w : Nat), takesNow s e = true → e.payload = le 4 w → w < 16 → hasRights s e.master 6 rSAFE = true →
    (masterNet s e.master = none → goes (.safeReset e) s (fun t => answered s t e 0x0C01 0xD001 [] ∧ quiet s t)) ∧
    (∀ n, masterNet s e.master = some n →
      let u := modNet s n (fun y => { y with req := some (BitVec.ofNat 4 w), used := 0 })
      (w = 0 → goes (.safeReset e) s (fun t => answered s t e 0x0C01 0xD002 [] ∧ quiet s t)) ∧
      (w ≠ 0 → s.dmp.halted = false → completesLater (.safeReset e) s e (.damper w) (quiet u)) ∧
      (w ≠ 0 → s.dmp.halted = true → completes (.safeReset e) s e 0x0C01 (le 4 (haltW0 u (BitVec.ofNat 4 w))) (quiet u)))

/-- PAIR_SWAP at an active controller that may swap names the swap pick, pick 0 of the second bolt after acceptance unless one is named
already, and waits for it; where
R487 does not allow it, it completes with SWAP_COND. Whether the partner verifies firmware is a free value (log 2). A standby in SYNC forwards
it to the active controller as a command of master 9 and waits; outside SYNC it completes with SWAP_COND (R487).
Rows that it says answer a next state with their effect: pairSwap. -/
def Obligations.PairSwapNamesThePick : Prop :=
  ∀ (e : CmdEntry) (s : State), entryTakes s e = true → e.payload = [] → hasRights s e.master 7 rCOMMIT = true →
    (isStandby s = false → (swapCond s).2 = true → completesLater (.pairSwap e) s e .swap (fun t =>
      quiet { s with freeCtr := s.freeCtr + 1 } t ∧ t.pair.swapAt = some (s.pair.swapAt.getD (nextBolt s + 32)) ∧ t.pair.active = s.pair.active)) ∧
    (isStandby s = false → (swapCond s).2 = false → goes (.pairSwap e) s (fun t =>
      answered s t e 0x0D01 0xE002 [] ∧ quiet { s with freeCtr := s.freeCtr + 1 } t ∧ t.pair.swapAt = s.pair.swapAt)) ∧
    (isStandby s = true → inSync s = true → completesLater (.pairSwap e) s e .swap (fun t => quiet s t ∧ t.pair.swapAt = s.pair.swapAt ∧
      ∃ q, t.pair.forward = some { master := 9, seq := q, tag := 0, fence := false, payload := [] })) ∧
    (isStandby s = true → inSync s = false → goes (.pairSwap e) s (fun t =>
      answered s t e 0x0D01 0xE002 [] ∧ quiet s t ∧ t.pair.forward = s.pair.forward))

/-- The commands of a firmware update. FW_BEGIN opens an update whose slot is being erased; FW_DATA stores its bytes at their offset of the
staging region and changes no other byte of DDR; FW_VERIFY of a complete image waits for the slot when it is valid, and completes with
its status otherwise, or with FW_FLASH_FAIL where the erase failed; FW_ACTIVATE makes the verified slot the preferred one, in trial, with a
restart due, which a later FW_BEGIN leaves due (R504). A standby serves them too (R380). Nothing else outside the carriers changes (`quiet`).
The model's readings that it rests on: logs 2, 48 and 87.
Rows that it says answer a next state with their effect: fwBegin, fwData, fwVerify, fwActivate. -/
def Obligations.FirmwareCommands : Prop :=
  ∀ (e : CmdEntry) (s : State), entryTakes s e = true → hasRights s e.master 5 rUPDATE = true →
    (∀ n v, e.payload = words [n, v] → 129 ≤ n → n ≤ 6291456 → v < 2 ^ 32 →
      completes (.fwBegin e) s e 0x0E01 [] (quiet { s with fw := { begun := true, bytes := n, iver := v, erasing := true, restartDue := s.fw.restartDue } })) ∧
    (∀ off bs, e.payload = le 4 off ++ bs → off < 2 ^ 32 → 4 ≤ List.length bs → bs.length ≤ 1000 → s.fw.begun = true → off + bs.length ≤ s.fw.bytes →
      completes (.fwData e) s e 0x0E02 [] (fun t =>
        quiet { s with ddr := t.ddr, fw.filled := s.fw.filled ++ [(off, bs.length)] } t ∧
        (∀ i (h : i < bs.length), memRead t.ddr (stagingBase + off + i) = bs[i]) ∧
        ∀ a, (a < stagingBase + off ∨ stagingBase + off + bs.length ≤ a) → memRead t.ddr a = memRead s.ddr a)) ∧
    (e.payload = [] → s.fw.begun = true → s.fw.programming = false → s.fw.bytes ≤ covered s.fw.filled →
      (stagedStatus s (staged s) ≠ 0 → goes (.fwVerify e) s (fun t => answered s t e 0x0E03 (stagedStatus s (staged s)) [] ∧ quiet s t)) ∧
      (stagedStatus s (staged s) = 0 → s.fw.erasing = true → completesLater (.fwVerify e) s e .fwVerify (quiet s)) ∧
      (stagedStatus s (staged s) = 0 → s.fw.erasing = false → s.fw.eraseBad = true → goes (.fwVerify e) s (fun t =>
        answered s t e 0x0E03 0xF004 [] ∧ quiet s t)) ∧
      (stagedStatus s (staged s) = 0 → s.fw.erasing = false → s.fw.eraseBad = false →
        completesLater (.fwVerify e) s e .fwVerify (quiet { s with fw := { s.fw with programming := true, verified := false } }))) ∧
    (e.payload = [] → s.fw.verified = true → (s.pair.en && s.pair.active && inSync s) = false → (s.pair.en = true ∨ axesIdle s = true) →
      completes (.fwActivate e) s e 0x0E04 []
        (quiet { s with boot := { s.boot with prefB := !s.boot.slotB, dirTrial := true, dirFails := 0 }, fw.restartDue := true }))

/-! ### Reset, supply, start-up (R495 to R504, R523, R525) -/

/-- A low pulse on nRESET of less than 1 µs does nothing, one of 4 µs or more resets, and between the two a free value decides (R525, log
2); its release starts the part. A rail within its window does nothing; below its threshold for 1 µs it resets the part with every group
first in LOCKOUT, which the loss of the core supply forgets; outside its window for 50 µs it halts the Damper (R460, R523). A supply above
its release threshold is no longer bad. The model's readings that it rests on: log 23.
Rows that it says answer a next state with their effect: nresetAssert, nresetRelease, supplyOutOfRange, supplyRestored. -/
def Obligations.ResetAndSupplyRows : Prop :=
  ∀ (s : State),
    (∀ n, n < 1000 → exec (.nresetAssert n) s = .next s) ∧
    (∀ n, 4000 ≤ n → goes (.nresetAssert n) s (fun t => restarted s t 0 ∧ t.boot.nresetLow = true)) ∧
    (∀ n, 1000 ≤ n → n < 4000 → goes (.nresetAssert n) s (fun t => t.freeCtr = s.freeCtr + 1 ∧
      if Config.freeBool s.freeCtr = true then restarted s t 0 ∧ t.boot.nresetLow = true else t = { s with freeCtr := s.freeCtr + 1 })) ∧
    exec .nresetRelease s = .next { s with boot.nresetLow := false } ∧
    (∀ rail mV d, (railLimits rail).1.1 ≤ mV → mV ≤ (railLimits rail).1.2 → exec (.supplyOutOfRange rail mV d) s = .next s) ∧
    (∀ rail mV d, mV < (railLimits rail).2.1 → 1000 ≤ d → goes (.supplyOutOfRange rail mV d) s (fun t =>
      t.pending = s.pending ∧ rail ∈ t.boot.badRails ∧ t.boot.stage = 0 ∧ t.boot.ready = false ∧ t.par.force = [] ∧
      (rail = .vddCore → ∀ g : Fin 4, (sogOf t.dmp g).st = 2) ∧ (rail ≠ .vddCore → dmpLive s = true → islandOk s → ∀ g : Fin 4, (sogOf t.dmp g).st = 3))) ∧
    (∀ rail mV d, (railLimits rail).2.1 ≤ mV → (mV < (railLimits rail).1.1 ∨ (railLimits rail).1.2 < mV) → 50000 ≤ d → dmpLive s = true → islandOk s →
      goes (.supplyOutOfRange rail mV d) s (fun t => quiet { s with dmp := t.dmp } t ∧ t.dmp.halted = true ∧ ∀ g : Fin 4, (sogOf t.dmp g).st = 3)) ∧
    (∀ rail mV, exec (.supplyRestored rail mV) s = .next (if (railLimits rail).2.2 < mV then
      { s with boot.badRails := s.boot.badRails.filter (fun r => r != rail) } else s))

/-- The rows of start-up. Each, at its step, leads to the next one: lock starts the time stamp at 0; self-calibration sets the codes of the
branches, within their ranges; DDR training is retried once, and then start-up stops with ERR 0x2; zeroing clears the fixed regions and
selects the image, where a trial that has failed three times makes the other slot preferred, or stops with ERR 0x3; the preferred image
boots if it is valid, else the other one, else start-up stops with ERR 0x4; firmware start ends in READY (R495, R499, R502, R503, R506). READY
leaves the Damper and the DDR as they are and takes the role of a single controller or a standby; the power-up of the network begins
unless transmission is stopped (R91, R496). At any other step a row changes nothing (log 85), but for a lock that is found again, which only
sets `locked` (log 88). The model's readings that it rests on: logs 46, 47, 85 and 88.
Rows that it says answer a next state with their effect: pllLockAchieved, selfCalibrationDone, ddrTrainingDone, ddrZeroingDone,
imageVerified, firmwareStartDone. -/
def Obligations.StartUpSteps : Prop :=
  ∀ (s : State),
    (atStep s 0 = true → s.clk.locked = false → exec .pllLockAchieved s = .next
      { s with clk := { s.clk with locked := true, now := 0, pickT0 := 0 }, boot := { s.boot with stage := 1, err := 0 } }) ∧
    ((atStep s 0 = false ∨ s.clk.locked = true) → exec .pllLockAchieved s = .next
      (if heldReset s = false ∧ 1 ≤ s.boot.stage then { s with clk.locked := true } else s)) ∧
    (∀ codes, List.length codes = 16 → atStep s 1 = true → goes (.selfCalibrationDone codes) s (fun t =>
      quiet { s with brs := t.brs, boot := t.boot } t ∧ t.boot.stage = 2 ∧
      ∀ b (h : b < codes.length), (brOf t b).drv = min codes[b].drv 31 ∧ (brOf t b).trim = clamp (-128) 127 codes[b].trim)) ∧
    (∀ codes, atStep s 1 = false → exec (.selfCalibrationDone codes) s = .next s) ∧
    (atStep s 2 = true → exec (.ddrTrainingDone true) s = .next { s with boot.stage := 3 }) ∧
    (atStep s 2 = true → s.boot.ddrRetried = false → exec (.ddrTrainingDone false) s = .next { s with boot.ddrRetried := true }) ∧
    (atStep s 2 = true → s.boot.ddrRetried = true → exec (.ddrTrainingDone false) s = .next { s with boot := { s.boot with err := 2, halted := true } }) ∧
    (∀ ok, atStep s 2 = false → exec (.ddrTrainingDone ok) s = .next s) ∧
    (atStep s 3 = true → goes (.ddrZeroingDone true) s (fun t => quiet { s with ddr := [], boot := t.boot } t ∧ t.boot.stage = 4 ∧
      (s.boot.dirTrial = false → t.boot = { s.boot with stage := 4 }) ∧
      (s.boot.dirTrial = true → s.boot.dirFails < 3 → t.boot = { s.boot with stage := 4, dirFails := s.boot.dirFails + 1 }) ∧
      (s.boot.dirTrial = true → s.boot.dirFails = 3 → t.boot.prefB = !s.boot.prefB ∧ t.boot.dirTrial = false ∧ t.boot.dirFails = 0))) ∧
    (atStep s 3 = true → exec (.ddrZeroingDone false) s = .next { s with boot := { s.boot with err := 3, halted := true } }) ∧
    (∀ ok, atStep s 3 = false → exec (.ddrZeroingDone ok) s = .next s) ∧
    (∀ a b, atStep s 4 = true → imageOk s (if s.boot.prefB then b else a) = true → goes (.imageVerified a b) s (fun t =>
      quiet { s with boot := t.boot } t ∧ t.boot.stage = 5 ∧ t.boot.slotB = s.boot.prefB ∧ t.boot.trial = s.boot.dirTrial)) ∧
    (∀ a b, atStep s 4 = true → imageOk s (if s.boot.prefB then b else a) = false → imageOk s (if s.boot.prefB then a else b) = true →
      goes (.imageVerified a b) s (fun t =>
        quiet { s with boot := t.boot } t ∧ t.boot.stage = 5 ∧ t.boot.slotB = !s.boot.prefB ∧ t.boot.trial = false)) ∧
    (∀ a b, atStep s 4 = true → imageOk s a = false → imageOk s b = false → exec (.imageVerified a b) s = .next
      { s with boot := { s.boot with err := 4, halted := true } }) ∧
    (∀ a b, atStep s 4 = false → exec (.imageVerified a b) s = .next s) ∧
    (∀ chk, atStep s 5 = true → goes (.firmwareStartDone chk) s (fun t =>
      t.pending = s.pending ∧ t.ddr = s.ddr ∧ t.dmp = s.dmp ∧ t.boot.stage = 7 ∧ t.boot.ready = true ∧ t.qspi.readyChg = true ∧ t.pair.active = !t.pair.en ∧
      (s.boot.cause ≠ 0 → t.pair.en = s.pair.en) ∧ (s.clk.txStopped = false → t.net.phase = .powering ∨ t.net.phase = .listening) ∧
      (s.clk.txStopped = true → t.net.phase = s.net.phase))) ∧
    (∀ chk, atStep s 5 = false → exec (.firmwareStartDone chk) s = .next s)

/-- Loss of the clock stops every branch and is kept until nRESET (R22), and in step 1 of start-up ERR reads 0x1 (R495, log 46); the watchdog of running firmware, an uncorrectable error in the fixed
regions and an activation restart the part with their causes (R497, R498, R504, R507). Pool granules are zeroed one by one, the last
setting DDR_DONE (R506). The scrubber takes one burst after the other, and behind the last one begins a pass anew; it counts what it
meets, and marks a burst of the pool that is lost, and in the region that holds it one block at most (R507, R509, log 125). TJ_HIGH is raised
once for a reading of 150 °C or more (R529); while no picks run the row brings the reading, and before READY the event waits (log 126). The erase of the firmware slot ends, and a
verification that waits for it goes on to programming or completes with FW_FLASH_FAIL; programming ends with the result of the
verification (R504). Where its condition does not hold, a row changes nothing (log 85); the watchdog row acts whenever it comes (log 3). The
model's readings that it rests on: logs 3, 23, 46, 85, 88, 125 and 126.
Rows that it says answer a next state with their effect: watchdogExpiry, pllLockLoss, ddrInitGranule, ddrScrubBurst, fwSlotEraseDone,
fwActivateRestart, fwSlotProgramDone, tjHigh. -/
def Obligations.ClockMemoryAndRestartRows : Prop :=
  ∀ (s : State),
    (heldReset s = false → s.clk.locked = true → goes .pllLockLoss s (fun t =>
      quiet { s with clk := { s.clk with locked := false, txStopped := true, markers := false, pickOut := 0 }, net := { s.net with phase := .off, toPower := [] },
                     brs := t.brs, boot := t.boot } t ∧ (∀ b, (brOf t b).markers = false) ∧ (s.boot.ready = true → t.boot = s.boot ∧ t.pair.link = false))) ∧
    (atStep s 0 = true → s.clk.locked = false → exec .pllLockLoss s = .next { s with boot.err := 1 }) ∧
    (atStep s 0 = false → (heldReset s = true ∨ s.clk.locked = false) → exec .pllLockLoss s = .next s) ∧
    (heldReset s = false → s.boot.halted = false → 5 ≤ s.boot.stage → goes .watchdogExpiry s (fun t => restarted s t 1)) ∧
    (s.boot.stage < 5 → exec .watchdogExpiry s = .next s) ∧
    (s.fw.restartDue = true → goes .fwActivateRestart s (fun t => restarted s t 2)) ∧
    (s.fw.restartDue = false → exec .fwActivateRestart s = .next s) ∧
    (s.boot.ready = true → s.boot.granule < 3839 → exec .ddrInitGranule s = .next { s with boot.granule := s.boot.granule + 1 }) ∧
    (s.boot.ready = true → s.boot.granule = 3839 → goes .ddrInitGranule s (fun t =>
      quiet { s with boot := { s.boot with granule := 3840, ddrDone := true } } t ∧ raised s t 0xF103 0xFFFF [])) ∧
    ((s.boot.ready = false ∨ 3840 ≤ s.boot.granule) → exec .ddrInitGranule s = .next s) ∧
    (scrubReady s = true → s.boot.scrubAt < 67108863 →
      exec (.ddrScrubBurst .clean) s = .next { s with boot.scrubAt := s.boot.scrubAt + 1 } ∧
      exec (.ddrScrubBurst .corrected) s = .next { s with boot := { s.boot with scrubAt := s.boot.scrubAt + 1, corr := satInc 32 s.boot.corr } }) ∧
    (scrubReady s = true → s.boot.scrubAt = 67108863 →
      exec (.ddrScrubBurst .clean) s = .next { s with boot := { s.boot with scrubAt := 0, scrubT := s.clk.now } }) ∧
    (scrubReady s = true → s.boot.scrubAt < poolBurst → goes (.ddrScrubBurst .uncorrectable) s (fun t => restarted s t 3)) ∧
    (scrubReady s = true → poolBurst ≤ s.boot.scrubAt → goes (.ddrScrubBurst .uncorrectable) s (fun t =>
      s.boot.scrubAt ∈ t.boot.lostBursts ∧ t.boot.uncorr = satInc 16 s.boot.uncorr ∧ t = { s with boot := t.boot, kiln := t.kiln, freeCtr := t.freeCtr } ∧
      (∀ u, (unOf t u).st = (unOf s u).st ∧ (unOf t u).caps.map (·.seq) = (unOf s u).caps.map (·.seq)) ∧
      (s.warp.place.acq = [] → s.warp.place.axes = [] → t.kiln = s.kiln))) ∧
    (∀ x, scrubReady s = false → exec (.ddrScrubBurst x) s = .next s) ∧
    (heldReset s = false → s.boot.tjHigh = false → (s.clk.started = false ∨ 150 * 256 ≤ s.boot.dieTemp) →
      let hot : Boot := { s.boot with tjHigh := true, dieTemp := if s.clk.started then s.boot.dieTemp else max s.boot.dieTemp (150 * 256) }
      (s.boot.ready = true → goes .tjHigh s (fun t => quiet { s with boot := hot } t ∧ raised s t 0xF108 0xFFFF [])) ∧
      (s.boot.ready = false → exec .tjHigh s = .next { s with boot := { hot with afterReady := s.boot.afterReady ++ [(0xF108, 0xFFFF)] } })) ∧
    ((heldReset s = true ∨ s.boot.tjHigh = true ∨ (s.clk.started = true ∧ s.boot.dieTemp < 150 * 256)) → exec .tjHigh s = .next s) ∧
    (∀ ok, s.fw.erasing = true → (ok = false ∨ ∀ m < 12, ∀ f ∈ (mbOf s m).flights, f.wait ≠ some .fwVerify) →
      goes (.fwSlotEraseDone ok) s (quiet { s with fw := { s.fw with erasing := false, eraseBad := !ok } })) ∧
    (∀ m f, s.fw.erasing = true → m < 12 → f ∈ (mbOf s m).flights → f.wait = some .fwVerify → exec (.fwSlotEraseDone true) s = .next
      { s with fw := { s.fw with erasing := false, eraseBad := false, programming := true, verified := false } }) ∧
    (∀ m f, s.fw.erasing = true → m < 12 → (mbOf s m).flights = [f] → f.wait = some .fwVerify → (∀ k < 12, k ≠ m → (mbOf s k).flights = []) →
      goes (.fwSlotEraseDone false) s (fun t => (mbOf t m).journal.head? = some (cplMake s f 0xF004 []))) ∧
    (∀ ok, s.fw.erasing = false → exec (.fwSlotEraseDone ok) s = .next s) ∧
    (∀ ok, s.fw.programming = true → goes (.fwSlotProgramDone ok) s (quiet { s with fw := { s.fw with programming := false, verified := ok } })) ∧
    (∀ ok m f, s.fw.programming = true → m < 12 → (mbOf s m).flights = [f] → f.wait = some .fwVerify → (∀ k < 12, k ≠ m → (mbOf s k).flights = []) →
      goes (.fwSlotProgramDone ok) s (fun t => (mbOf t m).journal.head? = some (cplMake s f (if ok then 0 else 0xF004) []))) ∧
    (∀ ok, s.fw.programming = false → exec (.fwSlotProgramDone ok) s = .next s)

/-! ### Picks, bolts, host clock (R25, R37 to R39) -/

/-- The pick timer: PICK_START advances the pick stamp by one, to 0 at a cold start, unless BOLT_BOUNDARY has taken it to the new pick;
BOLT_BOUNDARY comes once, at the end of pick 31, and takes the pick stamp to the pick that follows. Without a locked clock neither does
anything (R25), after a loss of lock either (log 88). What a boundary applies, at a controller that leads (`calm`): at a pick the values that
wait for it come into force and their staging areas empty (R386, R388), a mute that is due begins (R139), a node whose join was acknowledged
is admitted (R101) and a re-admitted branch carries markers again (R92); at a bolt the values of the bolt (R386, R517), the placement result
with its report, its values and the next epoch (R46, R68), and the counts of the bolt begin anew: the lanes', the quadrature errors', the
violations' and the authentication failures' (R139, R183, R259, R371). The model's readings that it rests on: logs 4, 85, 88 and 89.
Rows that it says answer a next state with their effect: pickStart, boltBoundary. -/
def Obligations.PickStampAdvances : Prop :=
  ∀ (s : State) (bad : List BranchNo),
    (s.clk.locked = true → goes (.pickStart bad) s (fun t =>
      t.pending = s.pending ∧ t.ddr = s.ddr ∧ t.clk.pstamp = (if s.clk.started = false then 0 else if s.clk.boltDone = true then s.clk.pstamp else s.clk.pstamp + 1) ∧
      t.clk.started = true ∧ t.clk.boltDone = false ∧ t.clk.afterDl = false)) ∧
    (s.clk.locked = false → exec (.pickStart bad) s = .next s) ∧
    (s.clk.locked = true → s.clk.started = true → psPick (ps s) = 31 → s.clk.boltDone = false → goes .boltBoundary s (fun t =>
      t.pending = s.pending ∧ t.ddr = s.ddr ∧ t.clk.pstamp = s.clk.pstamp + 1 ∧ t.clk.boltDone = true ∧ t.clk.pickT0 = s.clk.pickT0 + tPick s)) ∧
    ((s.clk.locked = false ∨ s.clk.started = false ∨ psPick (ps s) ≠ 31 ∨ s.clk.boltDone = true) → exec .boltBoundary s = .next s) ∧
    (calm s →
      (∀ p, onlyPend s p .pick → goes (.pickStart bad) s (fun t => inForce s t p)) ∧
      (s.par.pends = [] → goes (.pickStart bad) s (fun t => t.par = s.par ∧
        (∀ n < 64, (ndOf s n).muteDue = true → (ndOf s n).muteItem = none → (ndOf s n).admitDue = false →
          (ndOf t n).muted = true ∧ (ndOf t n).muteDue = false) ∧
        (∀ n < 64, (ndOf s n).admitDue = true → branchOn s (n / 4) = true → (ndOf t n).admitted = true ∧ (ndOf t n).admitDue = false) ∧
        ∀ b < 16, (brOf s b).resume = true → (brOf s b).resumeItem = none → (brOf t b).markers = true ∧ (brOf t b).resume = false)) ∧
      (s.clk.started = true → psPick (ps s) = 31 → s.clk.boltDone = false → s.clk.plenStop ≠ 1 →
        (∀ p, s.warp.result = none → onlyPend s p .bolt → goes .boltBoundary s (fun t => inForce s t p)) ∧
        (∀ r pl rep, s.warp.result = some (r, pl, rep) → s.warp.resItem = none → s.par.pends = [] → s.par.stepMod = [] →
          (∀ x ∈ r.vals, x.1 / 256 < 0x0401 ∨ 0x0405 < x.1 / 256) → goes .boltBoundary s (fun t =>
            t.warp.result = none ∧ t.warp.report = rep ∧ t.warp.place = pl ∧ t.warp.placed = true ∧ t.warp.epoch = s.warp.epoch + 1 ∧
            t.par.force = tabMerge s.par.force r.vals ∧ ∀ k ∈ r.sets, tabFind t.par.stages k = none)) ∧
        (s.warp.result = none → s.par.pends = [] → goes .boltBoundary s (fun t => t.warp.place = s.warp.place ∧ t.warp.epoch = s.warp.epoch ∧
          t.eth.authFail = [] ∧ (∀ n < 64, (ndOf t n).viol = 0) ∧
          (∀ a < 128, axClass s a ≠ 0 → (axOf t a).fb.qBolt = min 255 (axOf s a).fb.qNow ∧ (axOf t a).fb.qNow = 0) ∧
          ∀ l < 8, (laneOf t l).fNow = (0, 0) ∧ (laneOf t l).busyNow = 0 ∧ (lncOf t l).fBolt = (laneOf s l).fNow.1 ∧
            ((laneOf s l).run = none → (lncOf t l).busyBolt = (laneOf s l).busyNow % 2 ^ 32)))))

/-- The rows of the host clock. A message of the MAC, the domain and the subset in use counts as valid: a Sync of a one-step transmitter, or
the Follow_Up of a two-step one, gives the sample of the bolt, the time stamp of the Sync with the host time it carries and the delay; the
answer to a delay request gives the delay; an announcement only counts (R37, R38). A message of another MAC or domain, over IPv6, of
another profile or of the peer delay mechanism changes nothing (R37). Without a valid message for 8 s the mapping is invalid and H0 zero,
and PTP_LOST is raised, but only once (R39); PTP_TIMEOUT stands for these 8 s and acts whenever it comes (the model's choice, log 3).
The model's readings that it rests on: logs 3 and 7.
Rows that it says answer a next state with their effect: ptpMessageReceive, ptpTimeout. -/
def Obligations.HostClockRows : Prop :=
  ∀ (s : State) (mac : MacNo) (msg : PtpMsg),
    (ptpOn s mac = true → msg.ipv6 = false → msg.otherProfile = false → msg.domain ≤ 127 → pnat s 0x0A22 0 = msg.domain →
      let got := fun (p : Ptp) => exec (.ptpMessageReceive mac msg) s = .next { s with clk.now := max s.clk.now msg.tstamp, ptp := { p with lastT := some msg.tstamp } }
      let sample := fun (t : Nat) => { s.ptp with sync := none, last := some (t, msg.hostNs), sample := some (t, msg.hostNs + s.ptp.delayNs) }
      (msg.kind = .sync true → got { s.ptp with sync := some (msg.seq, msg.tstamp) }) ∧
      (msg.kind = .sync false → got (sample msg.tstamp)) ∧
      (∀ t, msg.kind = .followUp → s.ptp.sync = some (msg.seq, t) → got (sample t)) ∧
      (∀ sent, msg.kind = .delayResp sent → got { s.ptp with delayNs := ptpDelay sent msg.hostNs s.ptp }) ∧
      (msg.kind = .announce → got s.ptp)) ∧
    ((ptpOn s mac = false ∨ msg.ipv6 = true ∨ msg.otherProfile = true ∨ 127 < msg.domain ∨ pnat s 0x0A22 0 ≠ msg.domain ∨ msg.kind = .peerDelay) →
      exec (.ptpMessageReceive mac msg) s = .next s) ∧
    (pnat s 0x0A20 0 = 1 → goes .ptpTimeout s (fun t =>
      quiet { s with ptp := t.ptp } t ∧ mapped t = false ∧ t.ptp.h0s = 0 ∧ t.ptp.h0ns = 0 ∧ t.ptp.lastT = none ∧
      (s.ptp.lost = false → logged t 0xF102 0xFFFF) ∧ (s.ptp.lost = true → t.log = s.log))) ∧
    (pnat s 0x0A20 0 ≠ 1 → exec .ptpTimeout s = .next s)

/-! ### The start of the network (R24, R88 to R97) -/

/-- The rows of the start of the network. The stagger powers the next branch, or all of them at a stagger of 0, but none that is cut, and the
power-up after firmware start ends in listening, at once where no branch is to be powered (R91, R92); a standby powers none (R93). A quiet line begins the cold start and cuts noisy
branches (R94, R95). A foreign marker makes a controller of a pair standby on its pick stamp, and one without a pair listens again (R94).
A back-off, the silence of a new pick length and its timeout end in listening (R24, R96). A calibration window, in its pick and once, moves the
codes of its branch by one step within their ranges (R88, R89). Where its condition does not hold, a row changes nothing.
The model's readings that it rests on: logs 3, 28, 85, 89, 90, 100, 101, 102 and 117.
Rows that it says answer a next state with their effect: brpwrStaggerExpiry, coldStartListenEnd, foreignMarkerReceive, csBackoffExpiry,
pickLenSilenceEnd, standbyRestartTimeout, calibrationWindow. -/
def Obligations.NetworkStartRows : Prop :=
  ∀ (s : State),
    (∀ b bs, isStandby s = false → s.net.toPower = b :: bs → s.net.toPower.length ≤ 16 → goes .brpwrStaggerExpiry s (fun t =>
      quiet { s with brs := t.brs, net := t.net, clk := t.clk } t ∧ ((brOf s b).cut = false → (brOf t b).brpwr = true) ∧
      (s.net.stagger = 0 → t.net.toPower = [] ∧ ∀ k ∈ bs, (brOf s k).cut = false → (brOf t k).brpwr = true) ∧
      (s.net.stagger ≠ 0 → t.net.toPower = bs ∧ ∀ k, k ≠ b → (brOf t k).brpwr = (brOf s k).brpwr) ∧
      (bs = [] → s.net.phase = .powering → t.net.phase = .listening) ∧
      ∀ k, (k ∉ s.net.toPower ∨ (brOf s k).cut = true) → (brOf t k).brpwr = (brOf s k).brpwr)) ∧
    (isStandby s = false → s.net.toPower = [] → s.net.phase = .powering → goes .brpwrStaggerExpiry s (fun t =>
      quiet { s with net := { s.net with phase := .listening }, brs := t.brs, clk.markers := false } t ∧ ∀ k, (brOf t k).markers = false ∧ (brOf t k).noise = false)) ∧
    ((isStandby s = true ∨ (s.net.toPower = [] ∧ s.net.phase ≠ .powering)) → exec .brpwrStaggerExpiry s = .next s) ∧
    (s.net.phase = .listening → goes .coldStartListenEnd s (fun t =>
      t.pending = s.pending ∧ t.ddr = s.ddr ∧ t.dmp = s.dmp ∧ t.par = { s.par with pends := t.par.pends, stages := t.par.stages } ∧
      (s.par.stepMod = [] → t.par = s.par) ∧ t.acc = s.acc ∧ t.net.phase = .coldBolt ∧ t.net.firstRunDue = true ∧
      t.clk.started = false ∧ t.warp.placed = false ∧ t.warp.place.axes = [] ∧ (∀ n, (ndOf t n).admitted = false) ∧
      ∀ b < 16, brEnabled s b = true → (brOf s b).noise = true → (brOf t b).cut = true)) ∧
    (s.net.phase ≠ .listening → exec .coldStartListenEnd s = .next s) ∧
    (∀ b run v, s.net.phase = .listening → s.pair.en = true → goes (.foreignMarkerReceive b run v) s (fun t =>
      t.pending = s.pending ∧ t.dmp = s.dmp ∧ t.par = s.par ∧ t.net.phase = .following ∧ t.pair.active = false ∧ t.clk.pstamp = markerStamp run v ∧
      t.clk.plen = markerPlen v ∧ t.clk.started = true ∧ ∀ k, (brOf t k).markers = false)) ∧
    (∀ b run v, s.net.phase = .listening → s.pair.en = false → goes (.foreignMarkerReceive b run v) s (fun t =>
      quiet { s with brs := t.brs, clk.markers := false } t ∧ raised s t 0x3102 b [] ∧ ∀ k, (brOf t k).markers = false ∧ (brOf t k).noise = false)) ∧
    (∀ b run v, s.net.phase ≠ .listening → exec (.foreignMarkerReceive b run v) s = .next s) ∧
    (s.net.phase = .backoff → goes .csBackoffExpiry s (fun t =>
      quiet { s with net := { s.net with phase := .listening, backoffBolts := 0 }, brs := t.brs, clk.markers := false } t)) ∧
    (s.net.phase ≠ .backoff → exec .csBackoffExpiry s = .next s) ∧
    (s.net.phase = .silence → goes .pickLenSilenceEnd s (fun t =>
      quiet { s with net := { s.net with phase := .listening, fromPlen := true }, brs := t.brs,
                     clk := { s.clk with plen := s.clk.plenNew, plenStop := 0, markers := false } } t)) ∧
    (s.net.phase ≠ .silence → exec .pickLenSilenceEnd s = .next s) ∧
    (s.net.phase = .following → s.clk.plenStop = 2 → goes .standbyRestartTimeout s (fun t =>
      quiet { s with net := { s.net with phase := .listening, fromPlen := true }, brs := t.brs,
                     clk := { s.clk with plen := s.clk.plenNew, plenStop := 0, markers := false } } t)) ∧
    ((s.net.phase ≠ .following ∨ s.clk.plenStop ≠ 2) → exec .standbyRestartTimeout s = .next s) ∧
    (∀ (b : BranchNo) d r, branchOn s b = true → psPick (ps s) = 2 * b.val → (brOf s b).calDone = false → goes (.calibrationWindow b d r) s (fun t =>
      quiet { s with brs := t.brs } t ∧ brsBut s t b ∧ ((brOf t b).drv : Int) = clamp 0 31 ((brOf s b).drv + trimBy d) ∧
      (brOf t b).trim = clamp (-128) 127 ((brOf s b).trim + trimBy r) ∧ (brOf t b).calDone = true)) ∧
    (∀ (b : BranchNo) d r, (branchOn s b = false ∨ psPick (ps s) ≠ 2 * b.val ∨ (brOf s b).calDone = true) → exec (.calibrationWindow b d r) s = .next s)

/-! ### Frames and the guardian (R99 to R146) -/

/-- The gate of a due node's up slot takes exactly one class, and counts in the one counter of that class; the offset of an accepted frame
becomes OFS_LAST, the line code violations seen are counted for the branch, and the run of picks without an accepted frame goes on or ends
(R136, R138, R145, R146). What an accepted frame decodes to (`gateFrame`: the raw values of each local axis, and whether its coded section was
discarded) goes to the end of the branch's receive buffer while that has room, and becomes the decoder's state; without room it is dropped and
counted; no other frame reaches the buffer (R150, R160, R173, R175). Other nodes' counters and other branches stay; a gate of a node without
an assignment or of one that is not due changes nothing (log 85).
The model's readings that it rests on: log 85.
Rows that it says answer a next state with their effect: upSlotGateClose. -/
def Obligations.UpGateCountsItsClass : Prop :=
  ∀ (s : State) (n : NodeNo) (o : GateObs),
    (∀ (g : SlotAsg), asgOf s n = some g → nodeDue s n = true → (ndOf s n).gateNow = false →
      (branchOn s (n.val / 4) = true ∨ isStandby s = true) →
      let c := upClass s n g o
      let b := ndcOf s n
      goes (.upSlotGateClose n o) s (fun t =>
        quiet { s with nodes := t.nodes, ndCnt := t.ndCnt, brs := t.brs, brCnt := t.brCnt, axes := t.axes } t ∧
        (ndcOf t n).framesOk = (if c = .accepted then satInc 32 b.framesOk else b.framesOk) ∧
        (ndcOf t n).missed = (if c = .missed then satInc 32 b.missed else b.missed) ∧
        (ndcOf t n).corr = (if c = .corrupted then satInc 32 b.corr else b.corr) ∧
        (ndcOf t n).corrEopen = (if c = .corrOpen then satInc 32 b.corrEopen else b.corrEopen) ∧
        (ndcOf t n).violBand = (if c = .outOfBand then satInc 32 b.violBand else b.violBand) ∧
        (ndcOf t n).violOvr = (if c = .overrun then satInc 32 b.violOvr else b.violOvr) ∧
        (brcOf t (n.val / 4)).codeViol = satAdd 32 (brcOf s (n.val / 4)).codeViol o.codeViol ∧
        (ndOf t n).gateNow = true ∧ (c = .accepted → (ndOf t n).accNow = true ∧ (ndOf t n).noFrame = 0 ∧ (ndcOf t n).ofsLast = o.start.getD 0) ∧
        (c ≠ .accepted → (ndOf t n).noFrame = (ndOf s n).noFrame + 1) ∧
        (ndOf t n).viol = (ndOf s n).viol + (if c = .overrun ∨ c = .outOfBand then 1 else 0) ∧ (∀ k, k ≠ n.val → ndcOf t k = ndcOf s k) ∧ brsBut s t (n.val / 4) ∧
        (parsesOnly s = false →
          let f := gateFrame (gateOpen s n g o) n g o
          let rx := (brOf s (n.val / 4)).rxBuf
          (c = .accepted → rx.length < 2 → (brOf t (n.val / 4)).rxBuf = rx ++ [{ node := n, discarded := f.discarded, axes := f.axes }] ∧
            (ndOf t n).chans = f.chans ∧ (brcOf t (n.val / 4)).rxDrop = (brcOf s (n.val / 4)).rxDrop) ∧
          (c = .accepted → 2 ≤ rx.length → (brOf t (n.val / 4)).rxBuf = rx ∧ (brcOf t (n.val / 4)).rxDrop = satInc 32 (brcOf s (n.val / 4)).rxDrop) ∧
          (c ≠ .accepted → (brOf t (n.val / 4)).rxBuf = rx)))) ∧
    ((asgOf s n = none ∨ nodeDue s n = false ∨ (ndOf s n).gateNow = true ∨ (branchOn s (n.val / 4) = false ∧ isStandby s = false)) → exec (.upSlotGateClose n o) s = .next s)

/-- DOWN_FRAME_TRANSMIT sends the frozen frame of a branch in its down region, and the lowest accepted tap is to be admitted from the next
marker on (R101, R114, R116); JOIN_SLOT_GATE_CLOSE accepts a valid join frame in its band, counts a corrupted one, and counts nothing but
code violations on a line without energy (R100, R146); a standby only keeps its counters (R143).
Where its condition does not hold, a row changes nothing. The model's readings that it rests on: logs 66 and 85.
Rows that it says answer a next state with their effect: downFrameTransmit, joinSlotGateClose. -/
def Obligations.DownFramesAndJoins : Prop :=
  ∀ (s : State) (b : BranchNo),
    (branchOn s b = true → s.clk.afterDl = true → goes (.downFrameTransmit b) s (fun t =>
      quiet { s with brs := t.brs, nodes := t.nodes } t ∧ brsBut s t b ∧ (brOf t b).downSent = frameBytes (downTspec s b) true b 1 (brOf s b).down ∧
      (brOf t b).joinAck = [] ∧ ((brOf s b).joinAck = [] → t.nodes = s.nodes) ∧
      ∀ p, argMin (fun (p : Nat × Int) => (p.1 : Int)) (brOf s b).joinAck = some p →
        ndOf t (4 * b.val + p.1) = { ndOf s (4 * b.val + p.1) with admitDue := true } ∧ nodesBut s t (4 * b.val + p.1))) ∧
    ((branchOn s b = false ∨ s.clk.afterDl = false) → exec (.downFrameTransmit b) s = .next s) ∧
    (∀ (tap : TapNo) o, branchOn s b = true → joinGate s b tap = true →
      goes (.joinSlotGateClose b tap o) s (fun t =>
        quiet { s with brs := t.brs, brCnt := t.brCnt, nodes := t.nodes } t ∧ brsBut s t b ∧ nodesBut s t (4 * b.val + tap.val) ∧
        (brcOf t b).codeViol = satAdd 32 (brcOf s b).codeViol o.codeViol ∧
        (joinCheck tap o = true → inJoinBand o = true → (brcOf t b).joinOk = satInc 16 (brcOf s b).joinOk ∧
          (brOf t b).joinAck = (brOf s b).joinAck ++ [(tap.val, o.start.getD 0)] ∧ (ndOf t (4 * b.val + tap.val)).nser = frTspec o.frame ∧
          (ndOf t (4 * b.val + tap.val)).tRt = o.start.getD 0) ∧
        ((joinCheck tap o = false ∨ inJoinBand o = false) → (brOf t b).joinAck = (brOf s b).joinAck ∧ t.nodes = s.nodes ∧
          (brcOf t b).joinOk = (brcOf s b).joinOk ∧ (brcOf t b).joinBad = (if o.energy then satInc 32 (brcOf s b).joinBad else (brcOf s b).joinBad)))) ∧
    (∀ (tap : TapNo) o, isStandby s = true → (brOf s b).brpwr = true → joinGate s b tap = true →
      goes (.joinSlotGateClose b tap o) s (fun t => quiet { s with brCnt := t.brCnt } t ∧
        (brcOf t b).codeViol = satAdd 32 (brcOf s b).codeViol o.codeViol ∧
        (brcOf t b).joinOk = (if joinCheck tap o = true ∧ inJoinBand o = true then satInc 16 (brcOf s b).joinOk else (brcOf s b).joinOk))) ∧
    (∀ (tap : TapNo) o, joinGate s b tap = false → exec (.joinSlotGateClose b tap o) s = .next s)

/-- The guardian mutes a node at its fourth violation of a bolt, and drops one without an accepted frame in 32 due picks with four
withdrawals due; it counts energy outside windows at any time from READY on, attributed to the node it continues or names and else to every
admitted node of the branch, which is noise while the controller listens on a powered branch; the end of a cut's 100 ms re-admits a
branch that waits for it, with its nodes unmuted and its counts of energy begun anew, but not on a standby (R92, R93, R95, R137 to R144).
Where its condition does not hold, a row changes nothing. The model's readings that it rests on: logs 3, 62, 63, 85, 102 and 118.
Rows that it says answer a next state with their effect: nodeMuted, nodeLost, energyOutsideWindows, branchCutHoldExpiry. -/
def Obligations.GuardianRows : Prop :=
  ∀ (s : State),
    (∀ n : NodeNo, sending s = true → (ndOf s n).admitted = true → 4 ≤ (ndOf s n).viol → (ndOf s n).muted = false → (ndOf s n).muteDue = false →
      goes (.nodeMuted n) s (fun t => raised s t 0x3107 n [BitVec.ofNat 8 (n.val / 4)] ∧
        (let told := if mirroring s = true ∧ inSync s = true then some (s.pair.iseqSent + 1) else none
         quiet (modNdc (modNd s n (fun x => { x with muteDue := true, muteItem := told })) n (fun c => { c with mute := satInc 16 c.mute })) t))) ∧
    (∀ n : NodeNo, (sending s = false ∨ (ndOf s n).admitted = false ∨ (ndOf s n).viol < 4 ∨ (ndOf s n).muted = true ∨ (ndOf s n).muteDue = true) →
      exec (.nodeMuted n) s = .next s) ∧
    (∀ n : NodeNo, sending s = true → (ndOf s n).admitted = true → (ndOf s n).joined = true → 32 ≤ (ndOf s n).noFrame →
      goes (.nodeLost n) s (fun t => quiet { s with nodes := t.nodes, brs := t.brs, par := { s.par with pends := t.par.pends, stages := t.par.stages } } t ∧
        (s.par.stepMod = [] → t.par = s.par) ∧ brsBut s t (n.val / 4) ∧
        brOf t (n.val / 4) = { brOf s (n.val / 4) with tabSent := (brOf s (n.val / 4)).tabSent || tableGone s (n.val / 4) } ∧
        nodesBut s t n ∧ logged t 0x3109 n ∧ (ndOf t n).admitted = false ∧ (ndOf t n).integrated = false ∧ (ndOf t n).withdraw = 4 ∧ (ndOf t n).asg = none)) ∧
    (∀ n : NodeNo, (sending s = false ∨ (ndOf s n).admitted = false ∨ (ndOf s n).noFrame < 32) → exec (.nodeLost n) s = .next s) ∧
    (∀ (b : BranchNo) u rb, s.boot.ready = false → exec (.energyOutsideWindows b u rb) s = .next s) ∧
    (∀ (b : BranchNo) u rb, s.boot.ready = true → goes (.energyOutsideWindows b u rb) s (fun t =>
      quiet { s with brs := t.brs, brCnt := t.brCnt } t ∧ brsBut s t b ∧ (brOf t b).eowNow = true ∧ (∀ k ∈ (brOf s b).eowNodes, k ∈ (brOf t b).eowNodes) ∧
      (∀ k, burstNode s b u = some k → k ∈ (brOf t b).eowNodes) ∧
      (burstNode s b u = none → ∀ i < 4, (ndOf s (4 * b.val + i)).admitted = true → 4 * b.val + i ∈ (brOf t b).eowNodes) ∧
      (brOf t b).rbNow = ((brOf s b).rbNow || rb) ∧
      (brOf t b).noise = ((brOf s b).noise || (decide (s.net.phase = .listening) && (brOf s b).brpwr)) ∧
      (brcOf t b).readback = (if rb then satInc 32 (brcOf s b).readback else (brcOf s b).readback) ∧
      (brcOf t b).unattrib = (if burstNode s b u = none then satInc 32 (brcOf s b).unattrib else (brcOf s b).unattrib))) ∧
    (∀ b : BranchNo, (brOf s b).cut = true → (brOf s b).readmit = true → isStandby s = false → goes (.branchCutHoldExpiry b) s (fun t =>
      quiet { s with brs := t.brs, nodes := t.nodes } t ∧ brsBut s t b ∧ (brOf t b).cut = false ∧ (brOf t b).readmit = false ∧
      (brOf t b).brpwr = brEnabled s b ∧ (brOf t b).resume = brEnabled s b ∧ (brOf t b).eowNow = false ∧ (brOf t b).eowNodes = [] ∧ (brOf t b).eowPast = [] ∧
      (∀ i < 4, (ndOf t (4 * b.val + i)).muted = false ∧ (ndOf t (4 * b.val + i)).muteDue = false) ∧ ∀ n, n / 4 ≠ b → ndOf t n = ndOf s n)) ∧
    (∀ b : BranchNo, ((brOf s b).cut = false ∨ (brOf s b).readmit = false ∨ isStandby s = true) → exec (.branchCutHoldExpiry b) s = .next s)

/-- The acyclic rows. A window outside the rejoin windows carries a withdrawal that is due (R144), and else the rejoin table of its bolt while
a node awaits its rejoin (R549); where neither does, it repeats the transfer that failed, or takes the next one, as far as the window has
room for it (R122, R126, R127). A reply to a part of a download that a newer load replaced leads to nothing (R236); a reply outside its band, with a code violation or without a
status, or one of status 0x03, repeats its transfer, up to three times, and the transfer is then counted as abandoned; another status
abandons it at once, a refused table image is sent once more (R236), and success ends it (R127, R135, R146), and with the last piece of a written
block of which none was abandoned the values of a stepper axis are in force (R233, R240); a descriptor read starts again 32 bolts after it was
given up. The model's readings that it rests on: logs 62, 65, 85 and 102.
Rows that it says answer a next state with their effect: acyclicWindow, acyclicReplyReceive, descriptorRetryExpiry, acyclicReplyGateClose. -/
def Obligations.AcyclicRows : Prop :=
  ∀ (s : State) (b : BranchNo),
    (∀ k, branchOn s b = true → k < acycIn s b (psPick (ps s)) → (brOf s b).win ≤ k → (brOf s b).xfer = none →
      goes (.acyclicWindow b k) s (fun t =>
        quiet { s with brs := t.brs, nodes := t.nodes, ndCnt := t.ndCnt } t ∧ brsBut s t b ∧ (brOf t b).win = k + 1 ∧
        (rejoinWindow s b k = false → 45 ≤ pnat s 0x0204 b → lostTaps s b = [] → (∀ i < 4, (ndOf s (4 * b.val + i)).withdraw = 0) →
          (∀ x, (brOf s b).retry = some x → let y : Xfer := { x with kind := (xferCut (acycRoom s b) x.kind).1 }
            (brOf t b).xfer = some y ∧ (brOf t b).acycSent = xferFrame s y ∧ (brOf t b).retry = none) ∧
          ((brOf s b).retry = none → (brOf t b).xfer = (nextXfer s b).map (fun x => { x with kind := (xferCut (acycRoom s b) x.kind).1 }))) ∧
        (∀ i < 4, rejoinWindow s b k = false → (ndOf s (4 * b.val + i)).withdraw ≠ 0 → (∀ j < i, (ndOf s (4 * b.val + j)).withdraw = 0) →
          (ndOf t (4 * b.val + i)).withdraw = (ndOf s (4 * b.val + i)).withdraw - 1 ∧ (brOf t b).xfer = none ∧
          (brOf t b).acycSent = acycFrame s b false (4 * b.val + i) 9 0 0 []) ∧
        (rejoinWindow s b k = false → (∀ i < 4, (ndOf s (4 * b.val + i)).withdraw = 0) → lostTaps s b ≠ [] → (brOf s b).tabSent = false →
          (brOf t b).xfer = none ∧ (brOf t b).acycSent = bcastFrame s b true ∧ (brOf t b).tabSent = true ∧ (brOf t b).rejoinSent = (brOf s b).rejoin))) ∧
    (∀ k, (branchOn s b = false ∨ acycIn s b (psPick (ps s)) ≤ k ∨ k < (brOf s b).win) → exec (.acyclicWindow b k) s = .next s) ∧
    (∀ x, (brOf s b).xfer = some x → x.stale = true →
      let gone := fun viol => exec (.acyclicReplyGateClose ⟨b, viol⟩) s = .next
        (modBrc (modBr s b (fun r => { r with xfer := none })) b (fun c => { c with codeViol := satAdd 32 c.codeViol viol }))
      ∀ viol, gone viol ∧ ∀ start f, exec (.acyclicReplyReceive b ⟨start, viol⟩ f) s = exec (.acyclicReplyGateClose ⟨b, viol⟩) s) ∧
    (∀ x start viol f, (brOf s b).xfer = some x → x.stale = false → (replyBand start = false ∨ viol ≠ 0 ∨ replyStat s x f = none ∨ replyStat s x f = some 3) →
      goes (.acyclicReplyReceive b ⟨start, viol⟩ f) s (fun t =>
        brsBut s t b ∧ (brOf t b).xfer = none ∧ (brcOf t b).codeViol = satAdd 32 (brcOf s b).codeViol viol ∧
        (x.reps < 3 → quiet { s with brs := t.brs, brCnt := t.brCnt, ndCnt := t.ndCnt } t ∧
          brOf t b = { brOf s b with xfer := none, retry := some { x with reps := x.reps + 1 } } ∧ (ndcOf t x.node).acycRetry = satInc 16 (ndcOf s x.node).acycRetry) ∧
        (3 ≤ x.reps → quiet { s with brs := t.brs, brCnt := t.brCnt, nodes := t.nodes, ndCnt := t.ndCnt, par := { s.par with pends := t.par.pends, stages := t.par.stages } } t ∧
          (s.par.stepMod = [] → t.par = s.par) ∧ (brOf t b).retry = (brOf s b).retry ∧
          (ndcOf t x.node).acycFail = satInc 16 (ndcOf s x.node).acycFail))) ∧
    (∀ x start st f, (brOf s b).xfer = some x → x.stale = false → replyBand start = true → replyStat s x f = some st → st ≠ 0 → st ≠ 3 → ¬(x.kind = .tableCrc ∧ st = 4) →
      goes (.acyclicReplyReceive b ⟨start, 0⟩ f) s (fun t =>
        quiet { s with brs := t.brs, brCnt := t.brCnt, nodes := t.nodes, ndCnt := t.ndCnt, par := { s.par with pends := t.par.pends, stages := t.par.stages } } t ∧
        (s.par.stepMod = [] → t.par = s.par) ∧ brsBut s t b ∧ (brOf t b).xfer = none ∧
        (ndcOf t x.node).acycFail = satInc 16 (ndcOf s x.node).acycFail ∧
        (∀ l, parLax x.kind = some l → l ∈ (ndOf t x.node).wrBad ∧ l ∉ (ndOf t x.node).wrPend))) ∧
    (∀ x start f, (brOf s b).xfer = some x → x.stale = false → replyBand start = true → replyStat s x f = some 4 → x.kind = .tableCrc →
      goes (.acyclicReplyReceive b ⟨start, 0⟩ f) s (fun t =>
        quiet { s with brs := t.brs, brCnt := t.brCnt, nodes := t.nodes, ndCnt := t.ndCnt } t ∧ (brOf t b).xfer = none ∧
        (ndcOf t x.node).acycFail = satInc 16 (ndcOf s x.node).acycFail ∧ (ndOf t x.node).imgRetry = !(ndOf s x.node).imgRetry)) ∧
    (∀ x start f, (brOf s b).xfer = some x → x.stale = false → replyBand start = true → replyStat s x f = some 0 → goes (.acyclicReplyReceive b ⟨start, 0⟩ f) s (fun t =>
      quiet { s with brs := t.brs, brCnt := t.brCnt, nodes := t.nodes, warp := t.warp, par := t.par } t ∧ (brOf t b).xfer = none ∧ (s.par.stepMod = [] → t.par = s.par) ∧
      (∀ adj, x.kind = .timing adj → (ndOf t x.node).tRt = (ndOf s x.node).tRt + adj) ∧
      (∀ l, parLax x.kind = some l → (brOf s (x.node / 4)).xfers.any (fun y => decide (y.node = x.node) && decide (parLax y.kind = some l)) = false →
        l ∉ (ndOf t x.node).wrPend ∧ (∀ a, laxAxis s x.node l = some a → (ndOf s x.node).wrBad.contains l = false →
          t.par.force = tabMerge s.par.force (s.par.stepMod.filter (fun y => y.1 % 256 = a)) ∧ ∀ y ∈ t.par.stepMod, y.1 % 256 ≠ a)))) ∧
    (∀ x viol, (brOf s b).xfer = some x → x.stale = false → goes (.acyclicReplyGateClose ⟨b, viol⟩) s (fun t =>
      brsBut s t b ∧ (brOf t b).xfer = none ∧ (brcOf t b).codeViol = satAdd 32 (brcOf s b).codeViol viol ∧
      (x.reps < 3 → quiet { s with brs := t.brs, brCnt := t.brCnt, ndCnt := t.ndCnt } t ∧
        brOf t b = { brOf s b with xfer := none, retry := some { x with reps := x.reps + 1 } } ∧ (ndcOf t x.node).acycRetry = satInc 16 (ndcOf s x.node).acycRetry) ∧
      (3 ≤ x.reps → quiet { s with brs := t.brs, brCnt := t.brCnt, nodes := t.nodes, ndCnt := t.ndCnt, par := { s.par with pends := t.par.pends, stages := t.par.stages } } t ∧
        (s.par.stepMod = [] → t.par = s.par) ∧ (ndcOf t x.node).acycFail = satInc 16 (ndcOf s x.node).acycFail))) ∧
    ((brOf s b).xfer = none → (∀ v, exec (.acyclicReplyGateClose ⟨b, v⟩) s = .next s) ∧ ∀ i v f, exec (.acyclicReplyReceive b ⟨i, v⟩ f) s = .next s) ∧
    (∀ (n : NodeNo) k, (ndOf s n).descRetry = some k → boltReached s k = true → (ndOf s n).admitted = true →
      exec (.descriptorRetryExpiry n) s = .next (modNd s n (fun d => { d with descRetry := none, descDue := true, descPart := [] }))) ∧
    (∀ n : NodeNo, ((ndOf s n).descRetry = none ∨ (ndOf s n).descRetry.any (boltReached s) = false ∨ (ndOf s n).admitted = false) →
      exec (.descriptorRetryExpiry n) s = .next s)

/-! ### The Loom (R165 to R185) -/

/-- The parser takes the oldest frame of a branch out of its buffer unless a job of it is held, and a muted node's unread, after the lanes
have selected what came before its time (R139, R171, R172, R174; a row with an earlier time acts at the time the model stands at, log 60). Of
an axis in the frame whose job is due it keeps the raw values and creates the axis job, which enters its list, or is held, counted and keeps
the frame in the buffer where the list has no entry free behind the jobs held for it (R168, R171, R173, R174). While jobs of the branch are
held, or the buffer is empty, it only lets the time go on. A held job enters its list when that has room behind the jobs held before it, and
with the last one the frame leaves the buffer (R174).
The model's readings that it rests on: logs 60 and 85.
Rows that it says answer a next state with their effect: frameParse, heldJobEnter. -/
def Obligations.ParserRows : Prop :=
  ∀ (s : State) (b : BranchNo) (tt : Nat),
    (∀ f fs, parsesOnly s = false → s.clk.afterDl = false → (brOf s b).held = [] → (brOf s b).rxBuf = f :: fs →
      let u := loomTo s tt
      goes (.frameParse ⟨b, tt⟩) s (fun t =>
        t.pending = s.pending ∧ t.ddr = s.ddr ∧ t.dmp = s.dmp ∧ t.par = s.par ∧ t.clk = u.clk ∧ t.warp = s.warp ∧ brsBut s t b ∧
        (brOf t b).rxBuf = (if (brOf t b).held = [] then fs else f :: fs) ∧
        ((ndOf s f.node).muted = true → t = modBr u b (fun x => { x with rxBuf := fs })) ∧
        (f.axes = [] → (brOf t b).held = [] ∧ t.lanes = u.lanes) ∧
        ∀ l raw a ln, (ndOf s f.node).muted = false → f.axes = [(l, raw)] → axAt s f.node l = some a → (axOf s a).sm.jobDue = true → axLane s a = some ln →
          let j : Job := { kind := 1, id := a, prio := axPrio s a, made := u.clk.now }
          (axOf t a).sm.raw = raw ∧
          (newRoom u ln j = true → (brOf t b).held = [] ∧ j ∈ lnList (laneOf t ln) j.prio) ∧
          (newRoom u ln j = false → (brOf t b).held = [j] ∧ lnAll (laneOf t ln) = lnAll (laneOf u ln) ∧
            (lncOf t ln).bpHolds = satInc 32 (lncOf s ln).bpHolds))) ∧
    (parsesOnly s = false → s.clk.afterDl = false → ((brOf s b).held ≠ [] ∨ (brOf s b).rxBuf = []) → exec (.frameParse ⟨b, tt⟩) s = .next (loomTo s tt)) ∧
    ((parsesOnly s = true ∨ s.clk.afterDl = true) → exec (.frameParse ⟨b, tt⟩) s = .next s) ∧
    (let u := lanesGo s
     let fits := fun (j : Job) => match jobLane u j with
       | some ln => decide ((lnList (laneOf u ln) j.prio).length + heldBefore u ln j < 128)
       | none => false
     (∀ j ln, (brOf s b).held.find? fits = some j → jobLane u j = some ln →
       goes (.heldJobEnter b) s (fun t =>
         quiet { s with brs := t.brs, lanes := t.lanes, lnCnt := t.lnCnt, axes := t.axes } t ∧ brsBut s t b ∧ axesBut s t j.id ∧
         j ∈ lnList (laneOf t ln) j.prio ∧ (brOf t b).held = (brOf s b).held.filter (fun k => k != j) ∧
         (brOf t b).rxBuf = (if (brOf t b).held = [] then (brOf s b).rxBuf.drop 1 else (brOf s b).rxBuf))) ∧
     ((brOf s b).held.find? fits = none → exec (.heldJobEnter b) s = .next u))

/-- A job that completes on its lane at a time, up to which the lanes have selected (log 60), is counted there, and an axis or profile job is
marked done (R169, R172, R183). An axis job without a fault leaves what its decode and its loops answer: the feedback record of `fbRun`, the
references and loop record of `loopsRun` and the body of those outputs, where the position loop is R188's, the speed loop `spdLoop`, the
current loop `focLoop` and the stepper's `stpLoop` (R188 to R201, R224, R247). A profile job makes one step of R277 toward the target of an
active positional entry, or of R279 toward the speed of a velocity entry or toward rest (R271, R286), and none of an idle profile (R291). An
interpolation job notes the correction of its path and the path hold (R296). Without such a job the rows change nothing (log 85).
BUILD_DEADLINE comes once in a pick (R176); there the records are built and the down frames frozen: an axis without power sends PEN = 0, and
one whose loops are closed its body behind kindling and interlock (R115, R177, R206, R218, R225 to R229).
The model's readings that it rests on: logs 60 and 85.
Rows that it says answer a next state with their effect: buildDeadline, axisJobComplete, interpolationJobComplete, profileJobComplete. -/
def Obligations.JobsAndDeadline : Prop :=
  ∀ (s : State) (tt : Nat),
    (let u := loomTo s tt
     (∀ (a : AxisNo) td ln, laneRunning u 1 a = some ln → goes (.axisJobComplete a ⟨td, tt⟩) s (fun t =>
       t.pending = s.pending ∧ t.ddr = s.ddr ∧ t.dmp = s.dmp ∧ t.par = s.par ∧ (lncOf t ln).jobsRun = satInc 32 (lncOf s ln).jobsRun ∧
       (laneOf t ln).run = none ∧ (axOf t a).sm.jobDone = true ∧
       (let f := fbRun u a (idxCheck (axOf s a)) (axOf s a).sm.raw
        let d := jobDecode u a
        let v := jobReady d.1 a
        let x := axOf v a
        let i := psPick (ps s)
        let r := loopsRun v a i x.sm.raw x
        d.2 = f.faults ∧ (f.done = true → f.turns = 0 → homing (axOf s a) = false → x.fb = f.fb) ∧ (axOf t a).sm.decoded = f.done ∧
        (f.faults = [] → r.2 = [] → axClosed x = true →
          (axOf t a).fb = x.fb ∧ (axOf t a).prof = r.1.prof ∧ (axOf t a).md.body = bodyOf v a r.1 ∧ (axOf t a).lp = { r.1.lp with meas := (axOf t a).lp.meas } ∧
          (axClass s a = 1 → loopDue s a 2 i = true → loopDue s a 1 i = false → loopDue s a 0 i = false →
            (axOf t a).lp.vFb = sat32 (rshr (sat32 (posRefUsed v a x.prof.posRef - x.fb.pos) * pget s 0x0300 a) 24)) ∧
          (axClass s a = 1 → axLoop s a 2 = true → loopDue s a 2 i = false → loopDue s a 1 i = true → loopDue s a 0 i = false →
            (axOf t a).lp = { spdLoop v a (axRate s a 1) x with meas := (axOf t a).lp.meas }) ∧
          (axClass s a = 1 → loopDue s a 2 i = false → loopDue s a 1 i = false → loopDue s a 0 i = true →
            (axOf t a).lp = { (focLoop v a (axRate s a 0) x x.sm.raw).1 with meas := (axOf t a).lp.meas }) ∧
          (axClass s a = 3 → loopDue s a 0 i = true → (axOf t a).lp = { (stpLoop v a x).1 with meas := (axOf t a).lp.meas }))))) ∧
     (∀ (g : GroupNo) ln, laneRunning u 2 g = some ln → goes (.interpolationJobComplete g tt) s (fun t =>
       t.pending = s.pending ∧ t.ddr = s.ddr ∧ t.dmp = s.dmp ∧ t.par = s.par ∧ (lncOf t ln).jobsRun = satInc 32 (lncOf s ln).jobsRun ∧
       (laneOf t ln).run = none ∧ t.axes = s.axes ∧
       (let c := grpLag s g
        let tol := pnat s 0x0610 g
        (grpOf t g).c = c ∧ (grpOf t g).jobOpen = false ∧
        (grpOf t g).hold = (if tol ≠ 0 ∧ tol < c then true else if c ≤ tol / 2 then false else (grpOf s g).hold)))) ∧
     (∀ (a : AxisNo) ln, laneRunning u 3 a = some ln → goes (.profileJobComplete a tt) s (fun t =>
       t.pending = s.pending ∧ t.ddr = s.ddr ∧ t.dmp = s.dmp ∧ t.par = s.par ∧ (lncOf t ln).jobsRun = satInc 32 (lncOf s ln).jobsRun ∧
       (laneOf t ln).run = none ∧ (axOf t a).sm.profDone = true ∧
       (let p := (axOf s a).prof
        let h := shapeOf s a
        let k : Int := (2 ^ profRate s a : Nat)
        let stands := fun (st : PStep) => (axOf t a).prof.q = st.q ∧ (axOf t a).prof.v = st.v ∧ (axOf t a).prof.posRef = asr st.q 1
        (p.live = false → (axOf t a).prof = p) ∧
        (p.live = true → p.catchUp = none → homing (axOf s a) = false → inGroup s a = false → (axOf s a).sm.st ≠ .fault → p.limStop = false →
          (axOf s a).md.ovr = none →
          (p.queue = [] → p.act = false → p.v ≠ 0 → stands (velStep h k p.q p.v 0)) ∧
          (∀ e, p.queue = [e] → p.act = true → e.kind ≠ 3 →
            let st := posStep h k p.q p.v e.target (entVm h e) h.vstop false
            stands st ∧ (axOf t a).prof.queue = if st.done then [] else [e]) ∧
          (∀ e, p.queue = [e] → p.act = true → e.kind = 3 → softAhead s a (if p.v ≠ 0 then sgn p.v else sgn e.target) = none →
            stands (velStep h k p.q p.v e.target)))))) ∧
     (∀ a : AxisNo, (∀ td, laneRunning u 1 a = none → exec (.axisJobComplete a ⟨td, tt⟩) s = .next s) ∧
       (laneRunning u 3 a = none → exec (.profileJobComplete a tt) s = .next s)) ∧
     (∀ g : GroupNo, laneRunning u 2 g = none → exec (.interpolationJobComplete g tt) s = .next s)) ∧
    (∀ die lv dec, s.clk.locked = true → s.clk.started = true → s.clk.afterDl = false → goes (.buildDeadline die ⟨lv, dec⟩) s (fun t =>
      t.pending = s.pending ∧ t.ddr = s.ddr ∧ t.dmp = s.dmp ∧ t.par = s.par ∧ t.clk.afterDl = true ∧ t.clk.pstamp = s.clk.pstamp ∧
      t.boot.dieTemp = die ∧ t.kiln.trigLvl = lv ∧
      (sending s = true → s.pair.swapSt ≠ 2 → (s.warp.place.axes.map (·.axis)).Nodup → ∀ b ∈ brList s,
        (brOf t b).down = ((downAxes s b).map (fun a => (axOf t a).md.recB)).flatten ∧
        ∀ a ∈ downAxes s b, a < 128 →
          let head := recHeader (axNode s a) (axLax s a) (axFmt s a)
          let m := (axOf s a).md
          ((axOf s a).sm.st = .disabled ∨ (axOf s a).sm.st = .safeOff →
            (axOf t a).md.recB = head false false ++ bodyBytes (axFmt s a) (kreqOf t a) false .none) ∧
          ((axOf s a).sm.st = .enabled ∨ (axOf s a).sm.st = .moving → inGroup s a = false → (axOf s a).sm.jobDone = true →
            (ndOf s (axNode s a)).muted = false → fbLostHolds s a = false → m.ovr = none → m.body ≠ .none →
            (axOf t a).md.recB = head false true ++ bodyBytes (axFmt s a) (kreqOf t a) (boostOn s m)
              (interlock (tPwm s (axNode s a)) (pnat s 0x0401 a) (kindle s a (demanded m.body) m).1).1)))) ∧
    (∀ die lv dec, (s.clk.afterDl = true ∨ s.clk.locked = false ∨ s.clk.started = false) → exec (.buildDeadline die ⟨lv, dec⟩) s = .next s)

/-- PLACEMENT_RUN_START starts the oldest queued run, or one for pending nodes, when the Warper is not busy (R68); a change of pick length
first ends the markers at a bolt boundary (R24). PLACEMENT_RUN_COMPLETE ends a run: a failed one is reported at once, and the result and
the report of a successful one wait for the bolt boundary, up to which the placement in force, its epoch and its report stay (R46, R68, R72).
The model's readings that it rests on: logs 22 and 85.
Rows that it says answer a next state with their effect: placementRunStart, placementRunComplete. -/
def Obligations.PlacementRunRows : Prop :=
  ∀ (s : State), (warpBusy s = true ∨ isStandby s = true → exec .placementRunStart s = .next s) ∧
    (∀ r rs, warpBusy s = false → isStandby s = false → s.warp.queue = r :: rs → r.trig ≠ 4 → exec .placementRunStart s = .next
      { s with warp := { s.warp with running := some { r with nodes := s.warp.pendNodes, full := r.full || !s.warp.placed }, pendNodes := [], queue := rs } }) ∧
    (∀ r rs, warpBusy s = false → isStandby s = false → s.warp.queue = r :: rs → r.trig = 4 → goes .placementRunStart s (fun t =>
      quiet { s with clk := t.clk, warp := { s.warp with running := some { r with nodes := s.warp.pendNodes, full := r.full || !s.warp.placed },
                                                         pendNodes := [], queue := rs } } t ∧ t.clk.plenStop = 1 ∧ t.clk.plenNew = runPlen r)) ∧
    (warpBusy s = false → isStandby s = false → s.warp.queue = [] → s.warp.pendNodes ≠ [] → goes .placementRunStart s (fun t =>
      quiet { s with warp := t.warp } t ∧ t.warp.pendNodes = [] ∧ t.warp.place = s.warp.place ∧
      ∃ r, t.warp.running = some r ∧ r.trig = 2 ∧ r.nodes = s.warp.pendNodes ∧ r.full = !s.warp.placed)) ∧
    (s.warp.running = none → exec .placementRunComplete s = .next s) ∧
    (∀ r, s.warp.running = some r → r.trig ≠ 4 →
      let x := if r.full then fullRun (runView s r) else incrRun s (runView s r) r
      (∀ e, x = .error e → goes .placementRunComplete s (fun t => quiet { s with warp := { s.warp with running := none, report := t.warp.report } } t ∧
        t.warp.report = reportOf s (runView s r) r x s.warp.epoch.toNat)) ∧
      (∀ p, x = .ok p → poolReady s p.1 = false → exec .placementRunComplete s = .next s) ∧
      (∀ p, x = .ok p → poolReady s p.1 = true → goes .placementRunComplete s (fun t =>
        t.pending = s.pending ∧ t.ddr = s.ddr ∧ t.dmp = s.dmp ∧ t.par = s.par ∧ t.axes = s.axes ∧ t.warp.running = none ∧ t.warp.place = s.warp.place ∧
        t.warp.epoch = s.warp.epoch ∧ t.warp.placed = s.warp.placed ∧ t.warp.report = s.warp.report ∧
        t.warp.result = some (r, p.1, reportOf (runView s r) (runView s r) r x (s.warp.epoch + 1).toNat))))

/-! ### Axes (R201, R209, R210, R237, R238, R303 to R317, R395) -/

/-- The rows of the switch inputs. A debounced change takes the new level at its edge count (R303), the chatter flag clears after 64 quiet
picks (R306), a hard stop ends the search of mode 5, a limit of the same pick or not, and stands the profile at the position (R317, R321), and
FB_LOST takes OFF (R210).
The model's readings that it rests on: logs 32 and 85.
Rows that it says answer a next state with their effect: debouncedChange, chatterClear, hardStopDetect, fbLost. -/
def Obligations.SwitchAndFeedbackRows : Prop :=
  ∀ (s : State) (a : AxisNo) (sw : SwInput),
    (debReady s a (debOf (axOf s a).inp sw) = true → goes (.debouncedChange a sw) s (fun t =>
      quiet { s with axes := t.axes, grps := t.grps } t ∧ axesBut s t a ∧ debOf (axOf t a).inp sw = debChange (ps s) (debOf (axOf s a).inp sw) ∧
      (axOf t a).sm.st = (axOf s a).sm.st)) ∧
    (debReady s a (debOf (axOf s a).inp sw) = false → exec (.debouncedChange a sw) s = .next s) ∧
    ((debOf (axOf s a).inp sw).chat = true → (axOf s a).sm.decoded = true → 64 ≤ psDiff (ps s) (debOf (axOf s a).inp sw).lastChg →
      goes (.chatterClear a sw) s (fun t => quiet { s with axes := t.axes } t ∧ axesBut s t a ∧
        debOf (axOf t a).inp sw = { debOf (axOf s a).inp sw with chat := false })) ∧
    ((debOf (axOf s a).inp sw).chat = false → exec (.chatterClear a sw) s = .next s) ∧
    (∀ p, (axOf s a).hm.stallPs = some p → (axOf s a).hm.mode = 5 → ((axOf s a).hm.phase = 2 ∨ hmJust s (axOf s a).hm = true) → hmTstop (axOf s a).hm ≤ psDiff (ps s) p + 1 →
      goes (.hardStopDetect a) s (fun t => quiet { s with axes := t.axes } t ∧ axesBut s t a ∧ (axOf t a).hm.phase = 5 ∧ (axOf t a).hm.stallPs = none ∧
        (axOf t a).hm.cH = (axOf s a).fb.cExt ∧ (axOf t a).prof.posRef = (axOf s a).fb.pos ∧ (axOf t a).prof.vRef = 0 ∧ (axOf t a).fb = (axOf s a).fb)) ∧
    ((axOf s a).hm.stallPs = none → exec (.hardStopDetect a) s = .next s) ∧
    (fbLostHolds s a = true → (axOf s a).sm.st ∈ [AxSt.ready, .enabled, .moving, .hold] → goes (.fbLost a) s (fun t =>
      quiet { s with axes := t.axes, grps := t.grps, kiln := t.kiln } t ∧ (axOf t a).sm.st = .fault ∧ (axOf t a).sm.react = 2 ∧ (axOf t a).sm.fcode = 0x6101 ∧
      logged t 0x6101 a)) ∧
    (fbLostHolds s a = false → exec (.fbLost a) s = .next s)

/-- The rows that end a running condition of an axis: a quick stop ends with OFF, at rest or at its limit of time (R209); a stepper's
amplitude falls (R201); BOOT_UV and OVERTEMP take their reactions (R237, R238); a boost, an output override and a resynchronisation
stall are noted (R164, R238, R395). The model's readings that it rests on: logs 3 and 85.
Rows that it says answer a next state with their effect: qstopEnd, qstopTimeout, stepperHoldTimer, bootUv, boostExpiry, overtemp,
codeResyncStall, outputOverrideEnd. -/
def Obligations.AxisConditionRows : Prop :=
  ∀ (s : State) (a : AxisNo),
    (∀ p, (axOf s a).sm.qsRest = some p → (axOf s a).sm.st = .fault → (axOf s a).sm.react = 1 → 31 ≤ psDiff (ps s) p → goes (.qstopEnd a) s (fun t =>
      quiet { s with axes := t.axes, grps := t.grps } t ∧ axesBut s t a ∧ (axOf t a).sm.st = .fault ∧ (axOf t a).sm.react = 2 ∧ (axOf t a).prof.live = false ∧
      (axOf t a).prof.vRef = 0 ∧ (axOf t a).sm.fcode = (axOf s a).sm.fcode)) ∧
    ((axOf s a).sm.qsRest = none → exec (.qstopEnd a) s = .next s) ∧
    ((axOf s a).sm.st = .fault → (axOf s a).sm.react = 1 → pnat s 0x0346 a ≤ psDiff (ps s) (axOf s a).sm.qsT → goes (.qstopTimeout a) s (fun t =>
      quiet { s with axes := t.axes, grps := t.grps } t ∧ axesBut s t a ∧ (axOf t a).sm.st = .fault ∧ (axOf t a).sm.react = 2 ∧ (axOf t a).prof.live = false ∧ logged t 0x610D a)) ∧
    ((axOf s a).sm.st ≠ .fault → exec (.qstopTimeout a) s = .next s) ∧
    (∀ p, (axOf s a).lp.vNzPs = some p → (axOf s a).prof.vRef = 0 → pnat s 0x033B a ≤ psDiff (ps s) p →
      exec (.stepperHoldTimer a) s = .next (modLp s a (fun l => { l with vNzPs := none, amp := pnat s 0x033A a }))) ∧
    ((axOf s a).lp.vNzPs = none → exec (.stepperHoldTimer a) s = .next s) ∧
    (8 ≤ (axOf s a).md.buvRun → (axOf s a).sm.st ∈ [AxSt.ready, .enabled, .moving, .hold] → goes (.bootUv a) s (fun t =>
      quiet { s with axes := t.axes, grps := t.grps, kiln := t.kiln } t ∧ (axOf t a).sm.st = .fault ∧ (axOf t a).sm.react = 2 ∧ (axOf t a).sm.fcode = 0x7101)) ∧
    ((axOf s a).md.buvRun < 8 → exec (.bootUv a) s = .next s) ∧
    (∀ p, (axOf s a).md.otwPs = some p → pnat s 0x0405 a ≠ 0 → pnat s 0x0405 a ≤ psDiff (axOf s a).md.otwLast p + 1 →
      (axOf s a).sm.st ∈ [AxSt.ready, .enabled, .moving, .hold] → goes (.overtemp a) s (fun t =>
        quiet { s with axes := t.axes, grps := t.grps, kiln := t.kiln } t ∧ (axOf t a).sm.st = .fault ∧ (axOf t a).sm.react = reactFor s a 1 ∧ (axOf t a).sm.fcode = 0x7103)) ∧
    ((axOf s a).md.otwPs = none → exec (.overtemp a) s = .next s) ∧
    (boostOn s (axOf s a).md = false → exec (.boostExpiry a) s = .next (modMd s a (fun m => { m with boost := none }))) ∧
    (boostOn s (axOf s a).md = true → exec (.boostExpiry a) s = .next s) ∧
    (∀ b, (axOf s a).md.ovr = some (0, b) → goes (.outputOverrideEnd a) s (fun t =>
      quiet { s with axes := t.axes } t ∧ axesBut s t a ∧ (axOf t a).md.ovr = none ∧ (axOf t a).prof.posRef = (axOf s a).fb.pos ∧ (axOf t a).sm = (axOf s a).sm)) ∧
    ((axOf s a).md.ovr = none → exec (.outputOverrideEnd a) s = .next s) ∧
    (∀ n : NodeNo, (ndOf s n).sync ≠ .sync → 8 ≤ (ndOf s n).waitTx → (ndOf s n).stallRaised = false → goes (.codeResyncStall n) s (fun t =>
      quiet (modNd s n (fun x => { x with stallRaised := true })) t ∧ raised s t 0x310D n [BitVec.ofNat 8 (n.val / 4)])) ∧
    (∀ n : NodeNo, (ndOf s n).sync = .sync → exec (.codeResyncStall n) s = .next s)

/-- A microcode parity error stops its lane and removes its jobs, and LANE_FAULT is raised; at the second within a second it stops for good,
and the axes of the lane take OFF; an uncorrectable error in a record of a store stops its job, and its axis, or every member of its
group, takes OFF, while a corrected one is counted (R180, R181). An echo output makes one step while its source is live (R265, R266).
The model's readings that it rests on: logs 2, 85, 92, 120 and 122.
Rows that it says answer a next state with their effect: laneMicrocodeParityError, stateEcc, echoStep. -/
def Obligations.LaneStoreAndEchoRows : Prop :=
  ∀ (s : State),
    (let u := lanesGo s
     (∀ (l : LaneNo) dec, (laneOf s l).dead = false → (∀ t0, (laneOf s l).parityT = some t0 → second ≤ s.clk.now - t0) →
       goes (.laneMicrocodeParityError ⟨l, dec⟩) s (fun t =>
       quiet { s with lanes := t.lanes, lnCnt := t.lnCnt, axes := t.axes, grps := t.grps, freeCtr := t.freeCtr } t ∧
       (laneOf t l).stopped = true ∧ (laneOf t l).dead = false ∧ (laneOf t l).parityT = some s.clk.now ∧ (laneOf t l).run = none ∧ (laneOf t l).pre = none ∧
       lnAll (laneOf t l) = [] ∧ (dec = false → ∀ k, k ≠ l.val → laneOf t k = laneOf u k ∧ lncOf t k = lncOf s k) ∧ logged t 0x4104 l)) ∧
     (∀ (l : LaneNo) dec t0, (laneOf s l).dead = false → (laneOf s l).parityT = some t0 → s.clk.now - t0 < second →
       goes (.laneMicrocodeParityError ⟨l, dec⟩) s (fun t =>
       (laneOf t l).dead = true ∧ (laneOf t l).stopped = true ∧ (laneOf t l).run = none ∧
       ∀ a < 128, axLane s a = some l.val → (axOf s a).sm.st ∈ [AxSt.ready, .enabled, .moving, .hold] → (axOf t a).sm.st = .fault)) ∧
     (∀ (l : LaneNo) dec, (laneOf s l).dead = true → (dec = false ∨ (laneOf s l).stopped = true) →
       exec (.laneMicrocodeParityError ⟨l, dec⟩) s = .next u)) ∧
    (∀ r dec, exec (.stateEcc ⟨r, true, dec⟩) s = .next { s with storeCorr := s.storeCorr + 1 }) ∧
    (∀ (a : AxisNo) dec, (axOf s a).sm.st ∈ [AxSt.ready, .enabled, .moving, .hold] → goes (.stateEcc ⟨.axis a, false, dec⟩) s (fun t =>
      quiet { s with axes := t.axes, grps := t.grps, kiln := t.kiln, lanes := t.lanes, lnCnt := t.lnCnt, freeCtr := t.freeCtr } t ∧
      (axOf t a).sm.st = .fault ∧ (axOf t a).sm.react = 2 ∧ (axOf t a).sm.fcode = 0x4103 ∧ logged t 0x4103 a ∧
      ∀ l < 8, ∀ j ∈ (laneOf t l).run.toList ++ (laneOf t l).pre.toList ++ lnAll (laneOf t l), j.kind = 2 ∨ j.id ≠ a.val)) ∧
    (∀ (g : GroupNo) dec, (∀ a ∈ grpMembers s g, (axOf s a).sm.st ∈ [AxSt.ready, .enabled, .moving, .hold]) →
      goes (.stateEcc ⟨.group g, false, dec⟩) s (fun t =>
      quiet { s with axes := t.axes, grps := t.grps, kiln := t.kiln, lanes := t.lanes, freeCtr := t.freeCtr } t ∧
      ∀ a ∈ grpMembers s g, (axOf t a).sm.st = .fault ∧ (axOf t a).sm.react = 2)) ∧
    (∀ e : EchoNo, echoLive s e = true → isStandby s = false → exec (.echoStep e) s = .next (modEc s e echoStep1)) ∧
    (∀ e : EchoNo, (echoLive s e = false ∨ isStandby s = true) → exec (.echoStep e) s = .next s)

/-! ### Acquisition (R335 to R351) -/

/-- The rows of the acquisition. A stamped edge reaches the units that trigger on it (R335); a CLOSING unit whose blocks are written holds its
capture (R339); rates go down after 32 low bolts and change at their pick (R342 to R344); staging empties block by block (R342); a
history stops after its last picks (R351). The model's readings that it rests on: logs 72, 75 and 85.
Rows that it says answer a next state with their effect: trigPinEdge, captureClose, acqDecimationLower, acqRateApply, kilnBlockWrite,
histPostFaultFreeze. -/
def Obligations.AcquisitionRows : Prop :=
  ∀ (s : State),
    (∀ (pin : TrigNo) up tt fr (u : Nat), u < 8 → pnat s 0x0705 u = 2 → pnat s 0x0706 u = pin.val → (pnat s 0x070A u = 2 ∨ (pnat s 0x070A u = 0 ↔ up = true)) →
      tabFind s.kiln.edges pin = none → isStandby s = false → (unOf s u).st = 1 → goes (.trigPinEdge pin up tt fr) s (fun t =>
        quiet { s with kiln := t.kiln } t ∧ (unOf t u).cands = (unOf s u).cands ++ [{ t32 := tt * 32 + fr.val, src := 2 }] ∧
        tabFind t.kiln.edges pin = some (tt * 32 + fr.val))) ∧
    (∀ (pin : TrigNo) up tt fr x, tabFind s.kiln.edges pin = some x → x ≤ tt * 32 + fr.val → tt * 32 + fr.val < x + 512 →
      exec (.trigPinEdge pin up tt fr) s = .next s) ∧
    (∀ (u : UnitNo) g last, (unOf s u).st = 3 → (unOf s u).trig = some g → (unOf s u).lastT = some last → unMode s u ≠ 1 →
      (∀ k ∈ unStaged s u, last < k.t0 + 160) → goes (.captureClose u) s (fun t =>
        quiet { s with kiln := t.kiln } t ∧ (unOf t u).st = 4 ∧ (unOf t u).caps = [capForm s u g last] ∧ (unOf t u).trig = none ∧ logged t 0xA101 u)) ∧
    (∀ (u : UnitNo) g last, (unOf s u).st = 3 → (unOf s u).trig = some g → (unOf s u).lastT = some last → unMode s u = 1 →
      (∀ k ∈ unStaged s u, last < k.t0 + 160) → goes (.captureClose u) s (fun t =>
        quiet { s with kiln := t.kiln } t ∧ (unOf t u).st ∈ [1, 5] ∧ (unOf t u).trig = none ∧ logged t 0xA101 u)) ∧
    (∀ u : UnitNo, (unOf s u).st ≠ 3 → exec (.captureClose u) s = .next s) ∧
    (∀ u : UnitNo, (s.kiln.lowBolts = 32 ∨ ((unOf s u).st = 6 ∧ (unOf s u).lowRing = 32)) → (unOf s u).rateDue = none → (unOf s u).rateBolt = false →
      pnat s 0x0701 u < (unOf s u).code → exec (.acqDecimationLower u) s = .next (modUn s u (fun x => { x with rateDue := some (x.code - 1) }))) ∧
    (∀ u : UnitNo, s.kiln.lowBolts ≠ 32 → (unOf s u).lowRing ≠ 32 → exec (.acqDecimationLower u) s = .next s) ∧
    (∀ (u : UnitNo) c, (unOf s u).rateDue = some c → (ps s).toNat % 2 ^ c = 0 → s.clk.afterDl = false → goes (.acqRateApply u) s (fun t =>
      quiet { s with kiln := t.kiln } t ∧ (unOf t u).code = c ∧ (unOf t u).rateDue = none ∧ (unOf t u).rateBolt = true ∧ (unOf t u).opens = [] ∧
      raised s t 0xA102 u ([BitVec.ofNat 8 c] ++ le 4 (ps s).toNat))) ∧
    (∀ u : UnitNo, (unOf s u).rateDue = none → exec (.acqRateApply u) s = .next s) ∧
    (∀ d k rest, s.kiln.staged = (d, k) :: rest → d < 8 → (unOf s d).st = 2 ∨ (unOf s d).st = 3 →
      exec .kilnBlockWrite s = .next (modUn { s with kiln.staged := rest } d (fun y => { y with blocks := y.blocks ++ [k] }))) ∧
    (∀ d k rest, s.kiln.staged = (d, k) :: rest → 8 ≤ d → exec .kilnBlockWrite s = .next (hiWrite { s with kiln.staged := rest } k)) ∧
    (s.kiln.staged = [] → exec .kilnBlockWrite s = .next s) ∧
    (∀ a : AxisNo, (hiOf s a).left = some 0 → goes (.histPostFaultFreeze a) s (fun t =>
      quiet { s with kiln := t.kiln } t ∧ hiOf t a = { hiOf s a with opens := [], frozen := true, left := none } ∧ ∀ k, k ≠ a.val → hiOf t k = hiOf s k)) ∧
    (∀ a : AxisNo, (hiOf s a).left = none → exec (.histPostFaultFreeze a) s = .next s)

/-! ### Transports (R366 to R374) -/

/-- The rows of Ethernet. Only an IPv4 datagram in one piece to the address of the MAC and the mailbox port is taken (R368). A HELLO that
passes begins a session and is answered (R370); a usable datagram keeps its session in force, or opens the opening one, and one that fails
is dropped and counted (R371); a CLOSE and the timeouts end sessions (R370, R372). Where its condition does not
hold, a row changes nothing. The model's readings that it rests on: logs 3, 5, 49 and 85.
Rows that it says answer a next state with their effect: ethHelloReceive, ethDataReceive, ethCloseReceive, sessionOpenTimeout,
sessionTimeout. -/
def Obligations.SessionRows : Prop :=
  ∀ (s : State) (mac : MacNo) (dst : UdpTo) (ip port : Nat) (dg : Bytes),
    (toMailbox s mac dst = false → exec (.ethHelloReceive mac dst ⟨ip, port⟩ dg) s = .next s ∧ exec (.ethDataReceive mac dst ⟨ip, port⟩ dg) s = .next s ∧
      exec (.ethCloseReceive mac dst ⟨ip, port⟩ dg) s = .next s) ∧
    (∀ i, toMailbox s mac dst = true → dgType dg = 1 → helloSlot s dg = some i → goes (.ethHelloReceive mac dst ⟨ip, port⟩ dg) s (fun t =>
      quiet { s with eth := t.eth } t ∧ t.mbs = s.mbs ∧ t.eth.draws = s.eth.draws + 1 ∧ (sessOf t (dgMaster dg)).cur = (sessOf s (dgMaster dg)).cur ∧
      (∃ x, (sessOf t (dgMaster dg)).opening = some x ∧ x.slot = i ∧ x.mac = mac ∧ x.sid = sidNew s (Config.newSid s.eth.draws)) ∧
      (∃ ack, tabFind t.eth.out mac = some (ip, port, ack)))) ∧
    (toMailbox s mac dst = true → dgType dg = 1 → helloSlot s dg = none → ethMaster (dgMaster dg) = true → goes (.ethHelloReceive mac dst ⟨ip, port⟩ dg) s (fun t =>
      quiet { s with eth := t.eth } t ∧ t.eth.sess = s.eth.sess ∧ (mbOf t (dgMaster dg)).dropAuth = satInc 32 (mbOf s (dgMaster dg)).dropAuth)) ∧
    (∀ o x es, toMailbox s mac dst = true → dgType dg = 3 → dgUsable s dg = some (o, x, es) → goes (.ethDataReceive mac dst ⟨ip, port⟩ dg) s (fun t =>
      quiet { s with eth := t.eth } t ∧ (sessOf t (dgMaster dg)).cur = some (sessUse s.clk.now mac ip port (dgCtr dg) x) ∧
      (o = true → (sessOf t (dgMaster dg)).opening = none) ∧
      (es = [] → t.log = s.log ∧ (o = false → t.mbs = s.mbs) ∧ (o = true → (mbOf t (dgMaster dg)).sessions = satInc 16 (mbOf s (dgMaster dg)).sessions)))) ∧
    (toMailbox s mac dst = true → dgType dg = 3 → dgUsable s dg = none → ethMaster (dgMaster dg) = true → goes (.ethDataReceive mac dst ⟨ip, port⟩ dg) s (fun t =>
      t.eth.sess = s.eth.sess ∧ (mbOf t (dgMaster dg)).dropAuth = satInc 32 (mbOf s (dgMaster dg)).dropAuth ∧ quiet { s with eth := t.eth } t)) ∧
    (∀ x, toMailbox s mac dst = true → dgType dg = 4 → dgUsable s dg = some (false, x, []) → goes (.ethCloseReceive mac dst ⟨ip, port⟩ dg) s (fun t =>
      quiet { s with eth := t.eth } t ∧ (sessOf t (dgMaster dg)).cur = none ∧ raised s t 0x1102 (dgMaster dg) (le 1 1))) ∧
    (∀ x, toMailbox s mac dst = true → dgType dg = 4 → dgUsable s dg = some (true, x, []) →
      exec (.ethCloseReceive mac dst ⟨ip, port⟩ dg) s = .next (modSess s (dgMaster dg) (fun p => { p with opening := none }))) ∧
    (∀ m : MasterNo, exec (.sessionOpenTimeout m) s = .next (if (sessOf s m).opening.isSome then modSess s m (fun p => { p with opening := none }) else s)) ∧
    (∀ m : MasterNo, (sessOf s m).cur.isSome = true → goes (.sessionTimeout m) s (fun t =>
      quiet { s with eth := t.eth } t ∧ (sessOf t m).cur = none ∧ raised s t 0x1102 m (le 1 2) ∧ ∀ k, k ≠ m.val → sessOf t k = sessOf s k)) ∧
    (∀ m : MasterNo, (sessOf s m).cur = none → exec (.sessionTimeout m) s = .next s)

/-- ARP and ICMP requests to the address of a MAC in service are answered, others and an ICMP request in fragments are not (R368). A datagram of a master carries the entries
of its ring that fit, completions first, with the next counter value (R371). Where its condition does not hold, a row changes nothing (log 85).
The model's readings that it rests on: log 85.
Rows that it says answer a next state with their effect: datagramSend, arpRequest, icmpEchoRequest. -/
def Obligations.EthernetAnswers : Prop :=
  ∀ (s : State) (mac : MacNo) (ip target : Nat) (data : Bytes),
    (macOn s mac = true → pnat s 0x0A01 mac = target →
      exec (.arpRequest mac target ip) s = .next { s with eth.out := tabSet s.eth.out mac (ip, 0, be 4 target) } ∧
      exec (.icmpEchoRequest mac ⟨false, target⟩ ip data) s = .next { s with eth.out := tabSet s.eth.out mac (ip, 1, data) }) ∧
    ((macOn s mac = false ∨ pnat s 0x0A01 mac ≠ target) → exec (.arpRequest mac target ip) s = .next s ∧ exec (.icmpEchoRequest mac ⟨false, target⟩ ip data) s = .next s) ∧
    exec (.icmpEchoRequest mac ⟨true, target⟩ ip data) s = .next s ∧
    (∀ (m : MasterNo) x, (sessOf s m).cur = some x → (mbOf s m).ring ≠ [] → sessLive s x = true → macOn s x.mac = true → goes (.datagramSend m) s (fun t =>
      let r := dgPack 1432 255 ((mbOf s m).ring.filter isCpl ++ (mbOf s m).ring.filter (fun y => !isCpl y))
      quiet { s with eth := t.eth } t ∧ mbsBut s t m ∧ (mbOf t m).ring = r.2 ∧ (sessOf t m).cur = some { x with txCtr := x.txCtr + 1 } ∧
      tabFind t.eth.out x.mac = some (x.ip, x.port, dgMake x.key 3 m r.1.length x.sid (x.txCtr + 1) (r.1.map entryBytes).flatten))) ∧
    (∀ m : MasterNo, (sessOf s m).cur = none → exec (.datagramSend m) s = .next s)

/-- The QSPI registers, from READY on: a head that moves within 64 slots hands the entries of its slots over, a tail that moves within the
ring frees its slots, and pointers that break the rules only set RING_ERR; W1C bits clear; a write puts each of its bytes, from its address
upwards, into the enables or the slots of the command ring and leaves every other byte as it was, and no other address is written (R373).
Before READY a write does nothing (R496). The model's readings that it rests on: log 6.
Rows that it says answer a next state with their effect: qspiCmdHeadWrite, qspiCplTailWrite, qspiIrqStatClear, qspiRegisterWrite. -/
def Obligations.QspiRows : Prop :=
  ∀ (s : State), (s.boot.ready = true →
    (∀ head sl, 64 < (head - s.qspi.cmdTail).toNat → goes (.qspiCmdHeadWrite head sl) s (fun t =>
      t = { s with qspi := { s.qspi with cmdMem := t.qspi.cmdMem, ringErr := true } })) ∧
    (∀ head sl, (head - s.qspi.cmdTail).toNat ≤ 64 → goes (.qspiCmdHeadWrite head sl) s (fun t =>
      quiet s t ∧ t.qspi.cmdHead = head ∧ t.qspi.cmdTail = head ∧ t.qspi.ringErr = s.qspi.ringErr)) ∧
    (∀ bs e op n, parseEntry 5 (padTo 1024 (bs.take 1024)) = .ok e op n → opcodes.contains op = true → entryTakes s e = true →
      goes (.qspiCmdHeadWrite (s.qspi.cmdTail + 1) [bs]) s (fun t => quiet s t ∧ mbsBut s t 5 ∧
        (mbOf t 5).flights = [{ entry := e, opcode := op, wait := none }] ∧ (mbOf t 5).sNext = e.seq + 1)) ∧
    (∀ tail, (s.qspi.cplHead - s.qspi.cplTail).toNat < (tail - s.qspi.cplTail).toNat → exec (.qspiCplTailWrite tail) s = .next { s with qspi.ringErr := true }) ∧
    (∀ tail, (tail - s.qspi.cplTail).toNat ≤ (s.qspi.cplHead - s.qspi.cplTail).toNat → goes (.qspiCplTailWrite tail) s (fun t =>
      quiet s t ∧ t.qspi = { s.qspi with cplTail := tail } ∧ mbsBut s t 5 ∧ (mbOf t 5).ring = (mbOf s 5).ring.drop (tail - s.qspi.cplTail).toNat)) ∧
    (∀ mask, goes (.qspiIrqStatClear mask) s (fun t => t = { s with qspi := t.qspi } ∧
      t.qspi.readyChg = (s.qspi.readyChg && !mask.getLsbD 2) ∧ t.qspi.roleChg = (s.qspi.roleChg && !mask.getLsbD 3) ∧
      t.qspi.safeChg = (s.qspi.safeChg && !mask.getLsbD 4) ∧ t.qspi.ringErr = (s.qspi.ringErr && !mask.getLsbD 5) ∧
      t.qspi.cplHead = s.qspi.cplHead ∧ t.qspi.cplTail = s.qspi.cplTail ∧ t.qspi.irq0En = s.qspi.irq0En)) ∧
    (∀ (a : BitVec 24) b, goes (.qspiRegisterWrite a [b]) s (fun t =>
      (a.toNat / 4 = 5 → t = { s with qspi.irq0En := t.qspi.irq0En } ∧
        ∀ k < 4, t.qspi.irq0En.extractLsb' (8 * k) 8 = if k = a.toNat % 4 then b else s.qspi.irq0En.extractLsb' (8 * k) 8) ∧
      (a.toNat / 4 = 6 → t = { s with qspi.irq1En := t.qspi.irq1En } ∧
        ∀ k < 4, t.qspi.irq1En.extractLsb' (8 * k) 8 = if k = a.toNat % 4 then b else s.qspi.irq1En.extractLsb' (8 * k) 8) ∧
      (a.toNat / 0x10000 = 1 → t = { s with qspi.cmdMem := t.qspi.cmdMem } ∧
        ∀ x, x / 0x10000 = 1 → qspiRead t x = if x = a.toNat then b else qspiRead s x) ∧
      (a.toNat / 4 ≠ 5 → a.toNat / 4 ≠ 6 → a.toNat / 0x10000 ≠ 1 → t = s))) ∧
    (∀ (a : BitVec 24) b bs t, a.toNat + 1 + List.length bs < 0x1000000 → exec (.qspiRegisterWrite a [b]) s = .next t →
      exec (.qspiRegisterWrite a (b :: bs)) s = exec (.qspiRegisterWrite (a + 1) bs) t) ∧
    (∀ a, exec (.qspiRegisterWrite a []) s = .next s)) ∧
    (s.boot.ready = false → (∀ head sl, exec (.qspiCmdHeadWrite head sl) s = .next s) ∧ (∀ tail, exec (.qspiCplTailWrite tail) s = .next s) ∧
      (∀ m, exec (.qspiIrqStatClear m) s = .next s) ∧ ∀ a bs, exec (.qspiRegisterWrite a bs) s = .next s)

/-- The rows of the completion rings: a waiting completion goes to its ring, ahead of the pending events, when a slot is free (masters 1 to 5); a completion
that waits for 1 s raises MB_RING_STALL once; a gateway's message is a command entry of its master (R361, R366, R367, R374). A load that times out is gone (R393).
Where its condition does not hold, a row changes nothing. The model's readings that it rests on: logs 3, 45 and 85.
Rows that it says answer a next state with their effect: canGatewayMessage, completionWrite, mbRingStall, eventDeliver, mstabLoadTimeout. -/
def Obligations.RingAndTimeoutRows : Prop :=
  ∀ (s : State) (m : MasterNo),
    (∀ c cs, (mbOf s m).waiting = c :: cs → ringFull s m = false → 1 ≤ m.val → m.val ≤ 5 → goes (.completionWrite m) s (fun t =>
      quiet s t ∧ mbsBut s t m ∧ (mbOf t m).ring = (mbOf s m).ring ++ [.cpl c] ∧ (mbOf t m).waiting = cs ∧ (mbOf t m).events = (mbOf s m).events)) ∧
    (((mbOf s m).waiting = [] ∨ ringFull s m = true) → exec (.completionWrite m) s = .next s) ∧
    ((mbOf s m).waiting ≠ [] → (mbOf s m).stalled = false → goes (.mbRingStall m) s (fun t =>
      quiet s t ∧ (mbOf t m).stalled = true ∧ (mbOf t m).waiting = (mbOf s m).waiting ∧ raised s t 0x1104 m [])) ∧
    ((mbOf s m).waiting = [] → exec (.mbRingStall m) s = .next s) ∧
    (∀ x xs, (mbOf s m).waiting = [] → (mbOf s m).events = x :: xs → ringFull s m = false → 1 ≤ m.val → m.val ≤ 5 → goes (.eventDeliver m) s (fun t =>
      quiet s t ∧ mbsBut s t m ∧ (mbOf t m).ring = (mbOf s m).ring ++ [.evt (mbOf s m).eseq x] ∧ (mbOf t m).events = xs ∧ (mbOf t m).eseq = (mbOf s m).eseq + 1)) ∧
    (((mbOf s m).waiting ≠ [] ∨ (mbOf s m).events = [] ∨ ringFull s m = true) → exec (.eventDeliver m) s = .next s) ∧
    (∀ (c : CanNo) src inFd data e op n, s.boot.ready = true → pnat s 0x0A0B c ≠ 0 → (canOf s c).mode = 1 → (canOf s c).claim = 2 →
      canHolder (canOf s c) (pnat s 0x0A0B c) = some (BitVec.toNat src) → (inFd = true → pnat s 0x0803 c % 2 = 1) → List.headD data 0 = 1 → parseEntry (Fin.ofNat 12 (6 + c.val)) (data.drop 1) = .ok e op n →
      gwLenOk n inFd data = true → opcodes.contains op = true → entryTakes s e = true → goes (.canGatewayMessage c ⟨src, inFd⟩ data) s (fun t =>
        quiet s t ∧ mbsBut s t e.master ∧ (mbOf t e.master).flights = [{ entry := e, opcode := op, wait := none }] ∧ (mbOf t e.master).sNext = e.seq + 1)) ∧
    (∀ n : NodeNo, exec (.mstabLoadTimeout n) s = .next (if (ndOf s n).load.isSome then modNd s n (fun d => { d with load := none }) else s))

/-- The staging area of a set instance that expires is emptied, and PAR_STAGE_EXPIRED names the instance, the first member of the set and the
owner (R387, R398). The model's readings that it rests on: log 3.
Rows that it says answer a next state with their effect: parStageExpired. -/
def Obligations.StagedValuesExpire : Prop :=
  ∀ (s : State) (c i : Nat) (g : Stage), setFirst c ≠ 0 → c < 28 → i < 256 → (∀ k < c, setFirst k ≠ setFirst c) →
    tabFind s.par.stages (c * 256 + i) = some g → stageTaken s (c * 256 + i) = false →
    goes (.parStageExpired (setFirst c) i) s (fun t =>
      quiet { s with par.stages := tabErase s.par.stages (c * 256 + i) } t ∧ raised s t 0x2101 i (le 2 (setFirst c) ++ [BitVec.ofNat 8 g.owner]))

/-! ### CAN (R426 to R436) -/

/-- The rows of a CAN channel: reception, transmission and errors count in their own counters (R426, R427, R440), and a channel that a commit
stops restarts at the end of the frame (R425); bus-off ends after its recovery (R427); the automatic requeue
orders the FIFO, at the end of the attempt where the head is on the bus, and the oldest expired entry that is not on the bus leaves it (R433, R434); claims end in a held address or in
cannot-claim (R435); a transport session times out (R436). Where its condition does not hold, a row changes nothing.
The model's readings that it rests on: logs 2, 3, 9 and 85.
Rows that it says answer a next state with their effect: canFrameReceive, canFrameSent, canBusError, canBoffDelayExpiry, canBusOn,
canAutoRequeue, canTxExpired, canClaimWaitExpiry, canTpTimeout, cannotClaimDelayExpiry. -/
def Obligations.CanRows : Prop :=
  ∀ (s : State) (c : CanNo),
    (∀ f t0, (canOf s c).mode ≠ 0 → (canOf s c).boff = false → (canOf s c).stopDue = false → f.fdf = true → nbit (pnat s 0x0803 c) 0 = false →
      exec (.canFrameReceive c f t0) s = .next (modCan { s with clk.now := max s.clk.now t0 } c (fun x => { x with protoExc := satInc 32 x.protoExc }))) ∧
    (∀ f t0, (canOf s c).mode ≠ 0 → (canOf s c).boff = false → (canOf s c).stopDue = false → (f.fdf = false ∨ nbit (pnat s 0x0803 c) 0 = true) → goes (.canFrameReceive c f t0) s (fun t =>
      quiet { s with kiln := t.kiln, freeCtr := t.freeCtr, clk.now := max s.clk.now t0 } t ∧ (canOf t c).rxOk = satInc 32 (canOf s c).rxOk)) ∧
    (∀ f t0, (canOf s c).mode = 0 ∨ (canOf s c).boff = true → exec (.canFrameReceive c f t0) s = .next s) ∧
    (∀ x xs, canRunning (canOf s c) = true → (canOf s c).stopDue = false → (canOf s c).fifo = x :: xs → goes (.canFrameSent c) s (fun t =>
      quiet s t ∧ (canOf t c).txOk = satInc 32 (canOf s c).txOk ∧ (canOf t c).tec = (canOf s c).tec - 1 ∧ (canOf t c).lastTx = some x.f)) ∧
    (canRunning (canOf s c) = false → exec (.canFrameSent c) s = .next s) ∧
    (∀ k, canErrFits (canOf s c) k = true → ((canOf s c).stopDue = false ∨ k = .arbLost) → goes (.canBusError c k) s (fun t =>
      quiet s t ∧ (canOf t c).tec = (canErrStep k (canOf s c)).tec ∧ (canOf t c).recv = (canErrStep k (canOf s c)).recv ∧
      (canOf t c).boff = (canErrStep k (canOf s c)).boff ∧ (canOf t c).errTx = (canErrStep k (canOf s c)).errTx ∧ (canOf t c).arbLost = (canErrStep k (canOf s c)).arbLost)) ∧
    ((canOf s c).stopDue = true →
      let off := fun (t : State) => quiet { s with kiln := t.kiln, freeCtr := t.freeCtr, clk := t.clk } t ∧ (canOf t c).stopDue = false ∧
        (canOf t c).mode = canEff s c ∧ (canOf t c).tec = 0 ∧ (canOf t c).recv = 0 ∧ (canOf t c).boff = false
      (∀ f t0, (canOf s c).mode ≠ 0 → (canOf s c).boff = false → goes (.canFrameReceive c f t0) s off) ∧
      (canRunning (canOf s c) = true → goes (.canFrameSent c) s off) ∧
      (∀ k, canErrFits (canOf s c) k = true → k ≠ .arbLost → goes (.canBusError c k) s off)) ∧
    (∀ k, canErrFits (canOf s c) k = false → exec (.canBusError c k) s = .next s) ∧
    ((canOf s c).boff = true → exec (.canBoffDelayExpiry c) s = .next (modCan s c (fun x => { x with recov := true }))) ∧
    ((canOf s c).boff = true → (canOf s c).recov = true → goes (.canBusOn c) s (fun t => quiet s t ∧ cansBut s t c ∧
      canOf t c = { canOf s c with boff := false, recov := false, tec := 0, recv := 0 } ∧ raised s t 0xC104 c [])) ∧
    ((canOf s c).boff = false → exec (.canBoffDelayExpiry c) s = .next s) ∧
    (((canOf s c).boff = false ∨ (canOf s c).recov = false) → exec (.canBusOn c) s = .next s) ∧
    (canHeadOld s c = true → canLower (canOf s c) = true → (canOf s c).autoDue = false → goes (.canAutoRequeue c) s (fun t =>
      quiet { s with freeCtr := t.freeCtr } t ∧ cansBut s t c ∧
      ((headBusy s c).2 = true → canOf t c = { canOf s c with onBus := true, autoDue := true }) ∧
      ((headBusy s c).2 = false → (canOf t c).fifo.Perm (canOf s c).fifo ∧ (canOf t c).autoRq = satInc 16 (canOf s c).autoRq ∧
        (canOf t c).fifo.Pairwise (fun x y => canKey x.f ≤ canKey y.f)))) ∧
    ((canHeadOld s c = false ∨ canLower (canOf s c) = false ∨ (canOf s c).autoDue = true) → exec (.canAutoRequeue c) s = .next s) ∧
    (canRunning (canOf s c) = true → (canOf s c).fifo ≠ [] → (canOf s c).autoDue = true → (∀ m < 12, (mbOf s m).flights = []) →
      goes (.canBusError c .arbLost) s (fun t => (canOf t c).autoDue = false ∧ (canOf t c).onBus = false ∧ (canOf t c).autoRq = satInc 16 (canOf s c).autoRq ∧
        (canOf t c).fifo.Perm (canOf s c).fifo ∧ (canOf t c).fifo.Pairwise (fun x y => canKey x.f ≤ canKey y.f))) ∧
    (∀ q h, pnat s 0x0806 c ≠ 0 → canExpire (canOld s c) (headBusy s c).2 (canOf s c).fifo = some (q, h) → goes (.canTxExpired c) s (fun t =>
      quiet { s with freeCtr := t.freeCtr } t ∧ cansBut s t c ∧ (h = true → (headBusy s c).2 = false) ∧
      q <+: (canOf t c).fifo ∧ (canOf t c).txExpired = satInc 32 (canOf s c).txExpired ∧ (canOf t c).expRaised = true)) ∧
    (pnat s 0x0806 c = 0 → exec (.canTxExpired c) s = .next s) ∧
    (canExpire (canOld s c) (headBusy s c).2 (canOf s c).fifo = none → goes (.canTxExpired c) s (fun t =>
      quiet { s with freeCtr := t.freeCtr } t ∧ cansBut s t c ∧ (canOf t c).fifo = (canOf s c).fifo ∧ (canOf t c).txExpired = (canOf s c).txExpired)) ∧
    ((canOf s c).claim = 1 → goes (.canClaimWaitExpiry c) s (fun t => quiet s t ∧ (canOf t c).claim = 2 ∧ (canOf t c).sa = (canOf s c).sa ∧
      raised s t 0xC106 c [BitVec.ofNat 8 (canOf s c).sa])) ∧
    ((canOf s c).claim ≠ 1 → exec (.canClaimWaitExpiry c) s = .next s) ∧
    ((canOf s c).claim = 3 → goes (.cannotClaimDelayExpiry c) s (fun t => quiet s t ∧ cansBut s t c ∧ (canOf t c).claim = 4 ∧ (canOf t c).sa = 0xFE ∧ raised s t 0xC107 c [])) ∧
    ((canOf s c).claim ≠ 3 → (canOf s c).claim ≠ 5 → exec (.cannotClaimDelayExpiry c) s = .next s) ∧
    (∀ (peer : Byte) x, tabFind (canOf s c).tpRx peer.toNat = some x → goes (.canTpTimeout c peer true) s (fun t =>
      quiet s t ∧ tabFind (canOf t c).tpRx peer.toNat = none ∧ cansBut s t c)) ∧
    (∀ (peer : Byte), tabFind (canOf s c).tpRx peer.toNat = none → exec (.canTpTimeout c peer true) s = .next s)

/-! ### The Damper (R442 to R460) -/

/-- The rows of the groups. An evaluation brings a group with a cause to a state at least as strong and opens it, and closes no group with a
cause (R446 to R448); the low side follows (R450); a dark test switches it off and its samples decide (R449, R450); a readback held for 500
µs is a cause (R451); a clock out of tolerance and every internal fault lock all groups out and halt the Damper (R460). The rows of a delay
act whenever they come while the group is in the state that they need (the model's choice, log 3), and where it is not, a row changes nothing
(log 85). The model's readings that it rests on: logs 3, 38, 40, 85 and 111.
Rows that it says answer a next state with their effect: damperEvaluation, sogLsOnDelay, darkTestStart, darkTestSample, darkTestOverdue,
midReadbackSample, damperClockCheck, damperFault. -/
def Obligations.DamperGroupRows : Prop :=
  ∀ (s : State), dmpLive s = true →
    goes .damperEvaluation s (fun t =>
      quiet { s with dmp := t.dmp } t ∧ t.dmp.evals = s.dmp.evals + 1 ∧ ∀ g : Fin 4, causesNow { s with dmp.evals := s.dmp.evals + 1 } g ≠ [] →
        (sogOf t.dmp g).st ≠ 0 ∧ (sogOf s.dmp g).st ≤ (sogOf t.dmp g).st ∧ (sogOf t.dmp g).found = []) ∧
    (∀ g : SogNo, (sogOf s.dmp g).lsDue = true → exec (.sogLsOnDelay g) s = .next
      (modSog s g (fun y => { y with ls := true, lsDue := false, test := if y.test = 4 then 0 else y.test }))) ∧
    (∀ g : SogNo, (sogOf s.dmp g).lsDue = false → exec (.sogLsOnDelay g) s = .next s) ∧
    (∀ g : SogNo, s.clk.started = true → (ps s).toNat % picksPerSec s = g.val * picksPerSec s / 4 → (sogOf s.dmp g).st = 0 → (sogOf s.dmp g).test = 0 →
      exec (.darkTestStart g) s = .next (modSog s g (fun y => { y with ls := false, lsDue := false, test := 1, midHigh := 0 }))) ∧
    (∀ g : SogNo, (sogOf s.dmp g).st ≠ 0 → exec (.darkTestStart g) s = .next s ∧ exec (.darkTestOverdue g) s = .next s) ∧
    (∀ (g : SogNo) mid, (sogOf s.dmp g).test = 1 → exec (.darkTestSample g mid) s = .next (modSog s g (fun y => { y with hs := false, test := if mid then 2 else 3 }))) ∧
    (∀ g : SogNo, (sogOf s.dmp g).test = 2 → exec (.darkTestSample g false) s = .next (modSog s g (fun y => { y with hs := true, lsDue := true, test := 4 }))) ∧
    (∀ (g : SogNo) mid, ((sogOf s.dmp g).test = 0 ∨ (sogOf s.dmp g).test = 4) → exec (.darkTestSample g mid) s = .next s) ∧
    (∀ (g : SogNo) mid, ((sogOf s.dmp g).test = 3 ∨ ((sogOf s.dmp g).test = 2 ∧ mid = true)) → (sogOf s.dmp g).st < 3 → goes (.darkTestSample g mid) s (fun t =>
      quiet { s with dmp := t.dmp } t ∧ (sogOf t.dmp g).st = 3 ∧ (sogOf t.dmp g).cause = 9 ∧ (sogOf t.dmp g).hs = false ∧ (sogOf t.dmp g).ls = false)) ∧
    (∀ g : SogNo, (sogOf s.dmp g).st = 0 → exec (.darkTestOverdue g) s = .next (sogFind s g 8)) ∧
    (∀ lv : BitVec 4, goes (.midReadbackSample lv) s (fun t => t = { s with dmp.sogs := t.dmp.sogs } ∧ ∀ g : Fin 4,
      ((sogOf s.dmp g).test ≠ 0 → sogOf t.dmp g = sogOf s.dmp g) ∧ ((sogOf s.dmp g).test = 0 → lv.getLsbD g = false → (sogOf t.dmp g).midHigh = 0) ∧
      ((sogOf s.dmp g).test = 0 → lv.getLsbD g = true → 10 ≤ (sogOf s.dmp g).midHigh → 10 ∈ (sogOf t.dmp g).found))) ∧
    (∀ d, 100 < iabs d → islandOk s → goes (.damperClockCheck d) s (fun t => quiet { s with dmp := t.dmp } t ∧ t.dmp.halted = true ∧ ∀ g : Fin 4, (sogOf t.dmp g).st = 3)) ∧
    (∀ d, iabs d ≤ 100 → exec (.damperClockCheck d) s = .next s) ∧
    (∀ k, islandOk s → goes (.damperFault k) s (fun t => quiet { s with dmp := t.dmp } t ∧ t.dmp.halted = true ∧ ∀ g : Fin 4, (sogOf t.dmp g).st = 3))

/-- The rows of the inputs and messages. Eight equal samples set a recognised level, and both inputs of a pair at stop level end its
discrepancy, which is raised once (R452); a copy that passes the checks of R455 sets the demand of its network, and waits, forms a matched
pair with an equal one of the other network, or is in discrepancy with a differing one (R456); any other is rejected and counted; a copy without partner and the timeout are counted or found for the groups (R456); the reset pin and the window of a
request are noted (R458, R459). Where its condition does not hold, a row changes nothing. The model's readings that it rests on: logs 3, 39, 71 and 85.
Rows that it says answer a next state with their effect: sinSample, sinDiscrepancy, safeMessageReceive, smUnpaired, smTimeout,
nsafeRstEdge, safeRstStuck, safeResetWindowExpiry. -/
def Obligations.DamperInputRows : Prop :=
  ∀ (s : State), dmpLive s = true →
    (∀ lv : BitVec 4, goes (.sinSample lv) s (fun t => t = { s with dmp := t.dmp } ∧ t.dmp.sogs = s.dmp.sogs ∧
      (∀ i : Fin 4, sinOf t.dmp i = sinStep (lv.getLsbD i) (sinOf s.dmp i)) ∧
      ∀ p : Fin 2, sinDisc t p = (sinDisc s p && (sinRun t (2 * p.val) || sinRun t (2 * p.val + 1))))) ∧
    (∀ p : Fin 2, nbit (pnat s 0x0911 0) (4 + p.val) = true → sinRun s (2 * p.val) ≠ sinRun s (2 * p.val + 1) → sinDisc s p = false →
      goes (.sinDiscrepancy p) s (fun t => quiet { s with dmp := t.dmp } t ∧ sinDisc t p = true ∧ raised s t 0xD106 p [])) ∧
    (∀ p : Fin 2, sinDisc s p = true → exec (.sinDiscrepancy p) s = .next s) ∧
    (∀ src data t0 n, [NetSel.netA, NetSel.netB].find? (srcIs s src) = some n → (List.length data ≠ 8 ∨ copyOk s (netOf s.dmp n) data = false) →
      goes (.safeMessageReceive src data t0) s (fun t => quiet { s with dmp := t.dmp } t ∧ t.dmp.sogs = s.dmp.sogs ∧
        (netOf t.dmp n).rej = satInc 16 (netOf s.dmp n).rej ∧ (netOf t.dmp n).run = (netOf s.dmp n).run ∧ netOf t.dmp (netOther n) = netOf s.dmp (netOther n))) ∧
    (∀ src data t0 n, [NetSel.netA, NetSel.netB].find? (srcIs s src) = some n → List.length data = 8 → copyOk s (netOf s.dmp n) data = true →
      goes (.safeMessageReceive src data t0) s (fun t => quiet { s with dmp := t.dmp } t ∧ (netOf t.dmp n).run = some (BitVec.ofNat 4 (word data 0)) ∧
        (netOf t.dmp n).seq = some (word data 0 / 2 ^ 24) ∧ ∀ g : Fin 4, (BitVec.ofNat 4 (word data 0)).getLsbD g = false → 2 ∈ (sogOf t.dmp g).found)) ∧
    (∀ src data t0 n, [NetSel.netA, NetSel.netB].find? (srcIs s src) = some n → List.length data = 8 → copyOk s (netOf s.dmp n) data = true →
      let v := BitVec.ofNat 64 (rdLe data 0 8)
      let w := (netOf s.dmp (netOther n)).copies
      (w = [] → goes (.safeMessageReceive src data t0) s (fun t => (netOf t.dmp n).copies = (netOf s.dmp n).copies ++ [(v, t0)] ∧ t.dmp.pairAt = s.dmp.pairAt ∧
        t.dmp.timeout = s.dmp.timeout)) ∧
      (∀ p, w = [p] → t0 ≤ p.2 + pnat s 0x0907 0 * millisecond → p.2 ≤ t0 + pnat s 0x0907 0 * millisecond →
        (p.1 = v → goes (.safeMessageReceive src data t0) s (fun t => (netOf t.dmp (netOther n)).copies = [] ∧ t.dmp.pairAt = some s.dmp.evals ∧
          t.dmp.pairRun = BitVec.ofNat 4 v.toNat ∧ t.dmp.timeout = false)) ∧
        (p.1 ≠ v → p.1.toNat / 2 ^ 24 % 256 = v.toNat / 2 ^ 24 % 256 → goes (.safeMessageReceive src data t0) s (fun t =>
          (netOf t.dmp (netOther n)).copies = [] ∧ t.dmp.pairAt = s.dmp.pairAt ∧ t.dmp.discCnt = satInc 16 s.dmp.discCnt ∧ raised s t 0xD104 0xFFFF [] ∧
          ∀ g : Fin 4, sogEn s g = true → 5 ∈ (sogOf t.dmp g).found)))) ∧
    (∀ src data t0, [NetSel.netA, NetSel.netB].find? (srcIs s src) = none → exec (.safeMessageReceive src data t0) s = .next s) ∧
    (∀ n, (netOf s.dmp n).copies ≠ [] → goes (.smUnpaired n) s (fun t => t = { s with dmp := t.dmp } ∧ t.dmp.unpaired = satInc 16 s.dmp.unpaired ∧
      netOf t.dmp n = { netOf s.dmp n with copies := (netOf s.dmp n).copies.drop 1 })) ∧
    (∀ n, (netOf s.dmp n).copies = [] → exec (.smUnpaired n) s = .next s) ∧
    (s.dmp.pairAt.isSome = true → s.dmp.timeout = false → goes .smTimeout s (fun t => quiet { s with dmp := t.dmp } t ∧ t.dmp.timeout = true ∧
      t.dmp.netA.seq = none ∧ t.dmp.netB.seq = none ∧ (∀ g : Fin 4, sogEn s g = true → 4 ∈ (sogOf t.dmp g).found) ∧ raised s t 0xD105 0xFFFF [])) ∧
    (s.dmp.timeout = true → exec .smTimeout s = .next s) ∧
    (∀ lv, goes (.nsafeRstEdge lv) s (fun t => t = { s with dmp := t.dmp } ∧ t.dmp.pinLow = !lv ∧ t.dmp.sogs = s.dmp.sogs ∧ (s.dmp.pinLow = lv → t.dmp.pinAt = s.dmp.evals))) ∧
    (s.dmp.pinLow = true → s.dmp.stuck = false → goes .safeRstStuck s (fun t => quiet { s with dmp.stuck := true } t ∧ raised s t 0xD107 0xFFFF [])) ∧
    (s.dmp.stuck = true → exec .safeRstStuck s = .next s) ∧
    (∀ n, exec (.safeResetWindowExpiry n) s = .next (modNet s n (fun y => { y with req := none, used := 0 })))

/-! ### The pair (R471 to R490) -/

/-- The rows of the Selvedge. A link that comes up begins TRAINING (R480); there the first valid state frame brings the comparison of the
identities, and a usable partner leads to BULK (R480, R489 step 1). A segment that fails its CRC is discarded and counted (R473). An
acknowledgement counts for the item of its number and no other (R478); an item or partner that stays away brings the link state to DOWN
(R478, R480). An item that arrives is acknowledged and held; those it has overtaken are missing until they come, and a repeated one is
acknowledged only (R473, R478). An acceptance is noted with its command's number, and a journal entry ends it (R362, R479). Once its pick
has come, a held item takes effect at the start of that pick, and not before (R478). Bulk is staged; the row that ends it leaves it for the
next bolt boundary, where all of it is applied (R489 step 3); a full bolt of state frames leads to SYNC. Where its condition does not hold,
a row changes nothing.
The model's readings that it rests on: logs 30, 85 and 113.
Rows that it says answer a next state with their effect: pickStart, boltBoundary, selvedgeLinkUp, selvedgeLinkDown, stateFrameReceive,
itemReceive, itemAckReceive, itemAckTimeout, partnerSilenceTimeout, bulkSegmentReceive, bulkComplete, pairInSync. -/
def Obligations.SelvedgeRows : Prop :=
  ∀ (s : State),
    (∀ p, selvedge s = true → s.pair.link = false → exec (.selvedgeLinkUp p) s = .next
      { s with pair := { s.pair with link := true, partner := some p, noSeg := 0, lstate := 1 } }) ∧
    (∀ p, (selvedge s = false ∨ s.pair.link = true) → exec (.selvedgeLinkUp p) s = .next s) ∧
    (∀ c, s.pair.link = true → goes (.selvedgeLinkDown c) s (fun t => quiet s t ∧ t.pair.link = false ∧ t.pair.lstate = 0 ∧ t.pair.active = s.pair.active)) ∧
    (∀ c, s.pair.link = false → exec (.selvedgeLinkDown c) s = .next s) ∧
    (∀ seg, selvedge s = true → s.pair.link = true → frameValid seg = false →
      exec (.stateFrameReceive seg) s = .next { s with pair.segBad := satInc 32 s.pair.segBad }) ∧
    (∀ seg, selvedge s = true → s.pair.link = true → frameValid seg = true → goes (.stateFrameReceive seg) s (fun t =>
      quiet { s with axes := t.axes, grps := t.grps } t ∧ t.pair.pEpoch = BitVec.ofNat 32 (word seg 2) ∧ t.pair.segNow = true)) ∧
    (∀ seg q, selvedge s = true → s.pair.link = true → frameValid seg = true → s.pair.lstate = 1 → s.pair.partner = some q → word seg 3 % 256 = s.boot.pver →
      goes (.stateFrameReceive seg) s (fun t => quiet s t ∧
        (partnerRole q = pairRole s → t.pair.lstate = 0 ∧ logged t 0xE107 0xFFFF) ∧
        (partnerRole q ≠ pairRole s → q.pver ≠ s.boot.pver → t.pair.lstate = 0 ∧ logged t 0xE108 0xFFFF) ∧
        (partnerRole q ≠ pairRole s → q.pver = s.boot.pver → t.pair.lstate = 2 ∧ t.pair.bulkDone = false ∧ (s.pair.active = true ↔ t.pair.bulkOut ≠ [])))) ∧
    (∀ n, selvedge s = true → s.pair.link = true →
      exec (.itemAckReceive ⟨n, false⟩) s = .next { s with pair.segBad := satInc 32 s.pair.segBad } ∧
      goes (.itemAckReceive ⟨n, true⟩) s (fun t => quiet s t ∧ t.pair.iseqAcked = n ∧ t.pair.segNow = true ∧
        (let out := s.pair.outbox.map (fun o => if o.item.iseq = n ∧ o.sentAt.isSome = true then { o with acked := true } else o)
         out <+: t.pair.outbox ∧ ((∀ m < 12, (mbOf s m).flights = []) → t.pair.outbox = out)))) ∧
    (inSync s = true → s.pair.outbox.any (itemLate s) = true → goes .itemAckTimeout s (fun t =>
      quiet s t ∧ t.pair.lstate = 0 ∧ t.pair.drops = satInc 16 s.pair.drops ∧ logged t 0xE102 0xFFFF)) ∧
    ((inSync s = false ∨ s.pair.outbox.any (itemLate s) = false) → exec .itemAckTimeout s = .next s) ∧
    (8 ≤ s.pair.noSeg → s.pair.lstate ≠ 0 → goes .partnerSilenceTimeout s (fun t => quiet s t ∧ t.pair.lstate = 0 ∧ logged t 0xE102 0xFFFF)) ∧
    ((s.pair.noSeg < 8 ∨ s.pair.lstate = 0) → exec .partnerSilenceTimeout s = .next s) ∧
    (∀ it, selvedge s = true → s.pair.link = true → isStandby s = true → 2 ≤ s.pair.lstate →
      let got := { s.pair with segNow := true, noSeg := 0, acksOut := s.pair.acksOut ++ [it.iseq] }
      exec (.itemReceive ⟨it, false⟩) s = .next { s with pair.segBad := satInc 32 s.pair.segBad } ∧
      (itemHeld s.pair it.iseq = true → exec (.itemReceive ⟨it, true⟩) s = .next
        { s with pair := { got with inbox := s.pair.inbox.map (fun i => if i.iseq = it.iseq then it else i) } }) ∧
      (reached it.iseq s.pair.iseqRcv = true → itemHeld s.pair it.iseq = false → itemNow it.body = false → (∀ r ∈ s.pair.iseqMiss, r.2 < 2 ^ 31) →
        goes (.itemReceive ⟨it, true⟩) s (fun t => t = { s with pair := { got with iseqMiss := t.pair.iseqMiss, inbox := s.pair.inbox ++ [it] } } ∧
          itemHeld t.pair it.iseq = true)) ∧
      (reached it.iseq s.pair.iseqRcv = false → itemNow it.body = false →
        let k := psDiff it.iseq (s.pair.iseqRcv + 1)
        let miss := if k = 0 then s.pair.iseqMiss else s.pair.iseqMiss ++ [(s.pair.iseqRcv + 1, k)]
        exec (.itemReceive ⟨it, true⟩) s = .next { s with pair := { got with iseqRcv := it.iseq, inbox := s.pair.inbox ++ [it], iseqMiss := miss } }) ∧
      (s.pair.lstate = 3 → itemHeld s.pair it.iseq = false →
        (∀ e op eff, it.body = .acceptance e op eff → goes (.itemReceive ⟨it, true⟩) s (fun t => quiet s t ∧
          t.pair.accepted = s.pair.accepted.filter (fun a => !(a.entry.master == e.master && a.entry.seq == e.seq)) ++ [{ entry := e, opcode := op, effects := eff }] ∧
          (mbOf t e.master).sNext = if reached (mbOf s e.master).sNext (e.seq + 1) = true then e.seq + 1 else (mbOf s e.master).sNext)) ∧
        (∀ m q op tag st psl pl, it.body = .journal m q op tag st psl pl → (m.val ≠ 9 ∨ op ≠ 0x0D01 ∨ st = 0) → goes (.itemReceive ⟨it, true⟩) s (fun t => quiet s t ∧
          t.pair.accepted = s.pair.accepted.filter (fun a => !(a.entry.master.val == m.val && a.entry.seq == q)) ∧
          (mbOf t m).sNext = (if reached (mbOf s m).sNext (q + 1) = true then q + 1 else (mbOf s m).sNext) ∧
          ((∀ x ∈ (mbOf s m).journal, x.seq ≠ q) → (mbOf t m).journal.head? =
            some { seq := q, opcode := op, tag := tag, rep := false, notAcc := false, status := st, psl := psl, payload := pl }))))) ∧
    (∀ bad it, isStandby s = true → s.clk.locked = true → s.pair.swapSt = 0 → s.pair.lstate = 3 → s.pair.inbox = [it] →
      let p := if s.clk.started = false then 0 else if s.clk.boltDone = true then s.clk.pstamp else s.clk.pstamp + 1
      (reached it.pe p = false → goes (.pickStart bad) s (fun t => t.pair.inbox = [it])) ∧
      (reached it.pe p = true → goes (.pickStart bad) s (fun t => t.pair.inbox = [] ∧
        (∀ n img, it.body = .microstep n img → (ndOf t n).image = img) ∧
        (∀ vals, it.body = .params vals → s.par.pends = [] → t.par.force = tabMerge s.par.force vals)))) ∧
    (∀ pct items, selvedge s = true → s.pair.link = true → isStandby s = true → s.pair.lstate = 2 → s.pair.bulkEnd = false → (∀ n, .base n ∉ items) →
      let got := { s.pair with segNow := true, noSeg := 0, bulk := s.pair.bulk ++ items, bulkPct := min 100 pct }
      exec (.bulkSegmentReceive pct ⟨items, false⟩) s = .next { s with pair.segBad := satInc 32 s.pair.segBad } ∧
      exec (.bulkSegmentReceive pct ⟨items, true⟩) s = .next { s with pair := got } ∧
      ∀ n, exec (.bulkSegmentReceive pct ⟨.base n :: items, true⟩) s = .next { s with pair := { got with iseqRcv := n, iseqMiss := [] } }) ∧
    (isStandby s = true → s.pair.lstate = 2 → s.pair.bulkEnd = false → exec .bulkComplete s = .next
      { s with pair := { s.pair with bulkEnd := true, bulkPct := 100 } }) ∧
    ((isStandby s = false ∨ s.pair.lstate ≠ 2 ∨ s.pair.bulkEnd = true) → exec .bulkComplete s = .next s) ∧
    (isStandby s = true → s.clk.locked = true → s.clk.started = true → psPick (ps s) = 31 → s.clk.boltDone = false → s.pair.lstate = 2 →
      s.pair.bulkEnd = true → s.pair.bulkDone = false → s.pair.inbox = [] → s.warp.result = none →
      goes .boltBoundary s (fun t => t.pair.lstate = 2 ∧ t.pair.bulk = [] ∧ t.pair.bulkDone = true ∧ t.pair.frames = 0 ∧
        (∀ n img, s.pair.bulk = [.microstep n img] → (ndOf t n).image = img) ∧
        (∀ vals, s.pair.bulk = [.allParams vals] → s.par.pends = [] → t.par.force = tabMerge s.par.force (allVals s vals)))) ∧
    (isStandby s = true → s.pair.lstate = 2 → s.pair.bulkDone = true → 32 ≤ s.pair.frames → goes .pairInSync s (fun t =>
      quiet s t ∧ t.pair.lstate = 3 ∧ t.pair.syncBolts = 0 ∧ raised s t 0xE101 0xFFFF [])) ∧
    ((isStandby s = false ∨ s.pair.lstate ≠ 2 ∨ s.pair.bulkDone = false ∨ s.pair.frames < 32) → exec .pairInSync s = .next s)

/-- The rows of the role. A standby that holds the state takes over after two silent picks, and one that does not stays standby (R482,
R483); of two that collide, the one with the lower epoch yields, or role B on equal epochs (R484); the swap exchanges the roles in its pick
(R488) and has ended at the next pick; an automatic one is a command of master 0 that is in flight and names its pick (R486); a standby
follows markers, after a change of pick length waiting for a running one of the new length (R24, R35), and reads down frames (R161). Where
its condition does not hold, a row changes nothing. The model's readings that it rests on: logs 2, 30, 84 and 85.
Rows that it says answer a next state with their effect: pickStart, pairTakeover, pairCollision, pairSwapPick, pairSwapAutoExpiry,
standbyMarkerReceive, standbyDownFrameRead. -/
def Obligations.PairRoleRows : Prop :=
  ∀ (s : State),
    (selvedge s = true → isStandby s = true → s.pair.judge = true → 2 ≤ s.pair.silent → (s.pair.lstate = 3 ∨ s.pair.syncHeld = true) → s.pair.active = false →
      goes .pairTakeover s (fun t => t.pending = s.pending ∧ t.ddr = s.ddr ∧ t.dmp = s.dmp ∧ t.par = s.par ∧ t.acc = s.acc ∧ t.net.phase = .running ∧
        t.pair.active = true ∧ t.pair.takeovers = satInc 16 s.pair.takeovers ∧ t.pair.lastTko = ps s ∧ logged t 0xE103 0xFFFF)) ∧
    (selvedge s = true → isStandby s = true → s.pair.judge = true → 2 ≤ s.pair.silent → s.pair.lstate ≠ 3 → s.pair.syncHeld = false →
      goes .pairTakeover s (fun t => quiet s t ∧ t.pair.active = s.pair.active ∧ t.pair.judge = false ∧ raised s t 0xE109 0xFFFF [])) ∧
    (s.pair.silent < 2 → exec .pairTakeover s = .next s) ∧
    (s.pair.en = true → s.net.phase = .running → 2 ≤ s.pair.collide → yields s = false → goes .pairCollision s (fun t =>
      quiet s t ∧ t.pair.collide = 0 ∧ t.pair.collisions = satInc 16 s.pair.collisions ∧ t.pair.active = s.pair.active ∧ raised s t 0xE105 0xFFFF [])) ∧
    (s.pair.en = true → s.net.phase = .running → 2 ≤ s.pair.collide → yields s = true → goes .pairCollision s (fun t =>
      t.pending = s.pending ∧ t.dmp = s.dmp ∧ t.par = s.par ∧ t.axes = s.axes ∧ t.net.phase = .following ∧ t.pair.active = false ∧ logged t 0xE106 0xFFFF ∧
      ∀ b, (brOf t b).markers = false)) ∧
    (s.pair.collide < 2 → exec .pairCollision s = .next s) ∧
    (s.pair.swapAt = some (ps s) → inSync s = true → goes .pairSwapPick s (fun t => t.pending = s.pending ∧ t.dmp = s.dmp ∧ t.par = s.par ∧
      t.pair.active = !s.pair.active ∧ t.pair.swapAt = none ∧ t.pair.swaps = satInc 16 s.pair.swaps ∧ logged t 0xE104 0xFFFF ∧
      t.pair.swapSt = (if s.pair.active then 1 else 2) ∧ t.net.phase = (if s.pair.active then .following else .running))) ∧
    ((s.pair.swapAt ≠ some (ps s) ∨ inSync s = false) → exec .pairSwapPick s = .next s) ∧
    (∀ bad, s.clk.locked = true → s.pair.swapSt ≠ 0 →
      (if s.clk.started = false then 0 else if s.clk.boltDone = true then s.clk.pstamp else s.clk.pstamp + 1) ≠ s.pair.lastTko →
      goes (.pickStart bad) s (fun t => t.pair.swapSt = 0 ∧ (s.pair.swapSt = 2 → t.pair.accepted = []))) ∧
    (s.pair.active = true → inSync s = true → swapHours s = true → s.pair.swapAt = none →
      ((swapCond s).2 = false → exec .pairSwapAutoExpiry s = .next { s with freeCtr := s.freeCtr + 1 }) ∧
      ((swapCond s).2 = true → goes .pairSwapAutoExpiry s (fun t => quiet { s with freeCtr := s.freeCtr + 1 } t ∧ mbsBut s t 0 ∧
        t.pair.swapAt = some (nextBolt s + 32) ∧ (mbOf t 0).sNext = (mbOf s 0).sNext + 1 ∧
        ∃ f ∈ (mbOf t 0).flights, f.opcode = 0x0D01 ∧ f.wait = some .swap ∧ f.entry.seq = (mbOf s 0).sNext))) ∧
    ((s.pair.active = false ∨ inSync s = false ∨ swapHours s = false ∨ s.pair.swapAt ≠ none) → exec .pairSwapAutoExpiry s = .next s) ∧
    (∀ b run v, isStandby s = true → goes (.standbyMarkerReceive b ⟨run, v⟩) s (fun t => quiet { s with clk := t.clk } t ∧ t.clk.pstamp = markerStamp run v ∧
      t.clk.plen = markerPlen v ∧ t.clk.started = true ∧
      (s.clk.plenStop ≠ 2 → t.clk.plenStop = s.clk.plenStop ∧ t.pair.judge = (s.pair.judge || run)) ∧
      (s.clk.plenStop = 2 → run = true → markerPlen v = s.clk.plenNew → t.clk.plenStop = 0 ∧ t.pair.judge = true) ∧
      (s.clk.plenStop = 2 → (run = false ∨ markerPlen v ≠ s.clk.plenNew) → t.clk.plenStop = 2 ∧ t.pair.judge = s.pair.judge))) ∧
    (∀ b run v, isStandby s = false → exec (.standbyMarkerReceive b ⟨run, v⟩) s = .next s) ∧
    (∀ (b : BranchNo) f, isStandby s = true → brEnabled s b = true → downValid b f = true → goes (.standbyDownFrameRead b f) s (fun t =>
      quiet { s with brs := t.brs, nodes := t.nodes } t ∧ brsBut s t b ∧ (brOf t b).downRead = true)) ∧
    (∀ (b : BranchNo) f, (isStandby s = false ∨ brEnabled s b = false ∨ downValid b f = false) → exec (.standbyDownFrameRead b f) s = .next s)

/-! ### The whole machine -/

/-- A step takes the row at the front of the queue and runs it with the rest of the queue; on an empty queue the block idles (the model's
choice, log 13). -/
def Obligations.StepTakesFront : Prop :=
  ∀ (s : State) (c : Instr) (cs : List Instr), step { s with pending := c :: cs } = exec c { s with pending := cs } ∧
    (s.pending = [] → step s = .next s)

/-- Every row answers a next state and leaves the rows that wait as they are; the DDR bytes change only with FW_DATA, the zeroing of start-up
and the rows that may reset the part (R504, R506). -/
def Obligations.RowsKeepTheQueueAndDdr : Prop :=
  ∀ (i : Instr) (s : State), goes i s (fun t => t.pending = s.pending ∧
    ((∀ e, i ≠ .fwData e) → (∀ ok, i ≠ .ddrZeroingDone ok) → (∀ n, i ≠ .nresetAssert n) → (∀ r v d, i ≠ .supplyOutOfRange r v d) → i ≠ .watchdogExpiry →
      (∀ x, i ≠ .ddrScrubBurst x) → i ≠ .fwActivateRestart → t.ddr = s.ddr))

/-- Every step keeps the canonical form of the DDR bytes (the model's own form of the memory).
The model's readings that it rests on: log 87. -/
def Obligations.StepKeepsDdrCanonical : Prop := ∀ (s t : State), ddrOk s → step s = .next t → ddrOk t

/-- Every step keeps the safety island in order: a group is in one of the four states, one that is not CLOSED has both outputs off, no test
and nothing due, the retention register names the groups in LOCKOUT, and a halted Damper holds every group there (R442, R446, R460). -/
def Obligations.StepKeepsIsland : Prop := ∀ (s t : State), islandOk s → step s = .next t → islandOk t

/-- No row outside the safety island changes the Damper but those at which values of the safety set or a release come into force, and these
leave every output, test and evaluation as they were and close no group (R444, R462, R464). -/
def Obligations.IslandIsIsolated : Prop :=
  ∀ (i : Instr) (s t : State), exec i s = .next t → islandRow i = false →
    (boundaryRow i = false → t.dmp = s.dmp) ∧
    (∀ g : Fin 4, (sogOf t.dmp g).hs = (sogOf s.dmp g).hs ∧ (sogOf t.dmp g).ls = (sogOf s.dmp g).ls ∧ (sogOf t.dmp g).test = (sogOf s.dmp g).test ∧
      ((sogOf t.dmp g).st = (sogOf s.dmp g).st ∨ (2 ≤ (sogOf s.dmp g).st ∧ (sogOf t.dmp g).st = 1))) ∧
    t.dmp.evals = s.dmp.evals ∧ t.dmp.halted = s.dmp.halted

/-- The state after reset: before step 1 of start-up, not READY, the network off, every parameter and right at its reset value, no row
waiting, nothing in the mailboxes and the logs, every group in RESTART with cause 0x1 and both outputs off; the invariants hold (R390,
R403, R446, R465, R495). The model's readings that it rests on: log 1. -/
def Obligations.ResetState : Prop :=
  let s := State.reset
  s.pending = [] ∧ s.boot.stage = 0 ∧ s.boot.ready = false ∧ s.net.phase = .off ∧ s.par.force = [] ∧ s.par.stages = [] ∧ s.acc.words = [] ∧
  (∀ m, (mbOf s m).ring = [] ∧ (mbOf s m).events = [] ∧ (mbOf s m).flights = [] ∧ (mbOf s m).sNext = 0) ∧ s.log.recs = [] ∧ s.acc.log = [] ∧
  (∀ g : Fin 4, (sogOf s.dmp g).st = 2 ∧ (sogOf s.dmp g).cause = 1 ∧ (sogOf s.dmp g).hs = false ∧ (sogOf s.dmp g).ls = false) ∧
  (∀ p i, pget s p i = pdefault p i) ∧ ddrOk s ∧ islandOk s
end

