-- ==== Sys2Proof/Laws/Arith.lean ====
section
/-! SUPPORT. Small facts about little-endian words and bit masks. -/
namespace Sys2Proof.Machine

@[simp] theorem le_length (n v : Nat) : (le n v).length = n := by
  induction n generalizing v with
  | zero => rfl
  | succ n ih => simp [le, ih]

/-- A word of four bytes reads as it was written. -/
theorem word_le4 (v : Nat) (h : v < 2 ^ 32) : word (le 4 v) 0 = v := by
  simp [word, rdLe, le, ofLe]; omega

/-- The first word of a longer payload. -/
theorem word_le4_append (v : Nat) (bs : Bytes) (h : v < 2 ^ 32) : word (le 4 v ++ bs) 0 = v := by
  simp [word, rdLe, le, ofLe]; omega

/-- A later word of a longer payload. -/
theorem word_append_succ (v i : Nat) (bs : Bytes) : word (le 4 v ++ bs) (i + 1) = word bs i := by
  simp only [word, rdLe]
  rw [show 4 * (i + 1) = 4 + 4 * i by omega, List.drop_append, List.drop_eq_nil_of_le (by simp)]
  simp

@[simp] theorem words_length (vs : List Nat) : (words vs).length = 4 * vs.length := by
  induction vs with
  | nil => rfl
  | cons v vs ih => simp [words] at ih ⊢; omega

/-- A number below 2^k has no bit outside the low k. -/
theorem onlyBits_low (k n : Nat) (h : n < 2 ^ k) : onlyBits (2 ^ k - 1) n = true := by
  simp only [onlyBits, beq_iff_eq]
  exact Nat.and_two_pow_sub_one_of_lt_two_pow h

end Sys2Proof.Machine
end

