-- ==== Sys2Proof/Laws/Tab.lean ====
section
/-! SUPPORT. What a table and a byte memory read after a write, and that every memory operation keeps the canonical form. -/
namespace Sys2Proof.Machine

variable {α : Type}

@[simp] theorem tabFind_tabSet_same (t : Tab α) (k : Nat) (v : α) : tabFind (tabSet t k v) k = some v := by
  induction t with
  | nil => simp [tabSet, tabFind]
  | cons p t ih =>
    obtain ⟨j, w⟩ := p
    by_cases h : k < j
    · simp [tabSet, h, tabFind]
    · by_cases h2 : j = k
      · simp [tabSet, h2, tabFind]
      · simp [tabSet, h, h2, tabFind, ih]

theorem tabFind_tabSet_other (t : Tab α) {k j : Nat} (v : α) (hj : j ≠ k) : tabFind (tabSet t k v) j = tabFind t j := by
  induction t with
  | nil => simp [tabSet, tabFind, Ne.symm hj]
  | cons p t ih =>
    obtain ⟨i, w⟩ := p
    by_cases h : k < i
    · simp [tabSet, h, tabFind, Ne.symm hj]
    · by_cases h2 : i = k
      · subst h2; simp [tabSet, tabFind, Ne.symm hj]
      · simp only [tabSet, h, h2, if_false, tabFind, ih]

@[simp] theorem tabGet_tabSet_same (d : α) (t : Tab α) (k : Nat) (v : α) : tabGet d (tabSet t k v) k = v := by
  simp [tabGet]

theorem tabGet_tabSet_other (d : α) (t : Tab α) {k j : Nat} (v : α) (hj : j ≠ k) : tabGet d (tabSet t k v) j = tabGet d t j := by
  simp [tabGet, tabFind_tabSet_other t v hj]

@[simp] theorem tabGet_tabMod_same (d : α) (t : Tab α) (k : Nat) (f : α → α) : tabGet d (tabMod d t k f) k = f (tabGet d t k) := by
  simp [tabMod]

theorem tabGet_tabMod_other (d : α) (t : Tab α) {k j : Nat} (f : α → α) (hj : j ≠ k) : tabGet d (tabMod d t k f) j = tabGet d t j := by
  simp [tabMod, tabGet_tabSet_other d t _ hj]

theorem tabFind_tabErase_other (t : Tab α) {k j : Nat} (hj : j ≠ k) : tabFind (tabErase t k) j = tabFind t j := by
  induction t with
  | nil => rfl
  | cons p t ih =>
    obtain ⟨i, w⟩ := p
    by_cases h : i = k
    · subst h; simp [tabErase, tabFind, ih, Ne.symm hj]
    · simp only [tabErase, h, if_false, tabFind, ih]

@[simp] theorem tabFind_tabErase_same (t : Tab α) (k : Nat) : tabFind (tabErase t k) k = none := by
  induction t with
  | nil => rfl
  | cons p t ih =>
    obtain ⟨i, w⟩ := p
    by_cases h : i = k <;> simp [tabErase, h, tabFind, ih]

/-! ### The canonical form as a bound on the keys of a tail -/

/-- Every key of a table lies above a bound, and the keys rise. -/
theorem tabSorted_cons {j : Nat} {w : α} {t : Tab α} :
    tabSorted ((j, w) :: t) = true ↔ tabSorted t = true ∧ ∀ p ∈ t, j < p.1 := by
  induction t generalizing j w with
  | nil => simp [tabSorted]
  | cons p t ih =>
    obtain ⟨k, x⟩ := p
    simp only [tabSorted, Bool.and_eq_true, decide_eq_true_eq, List.mem_cons, forall_eq_or_imp]
    constructor
    · rintro ⟨h1, h2⟩
      exact ⟨h2, h1, fun q hq => Nat.lt_trans h1 ((ih.mp h2).2 q hq)⟩
    · rintro ⟨h1, h2, -⟩
      exact ⟨h2, h1⟩

theorem mem_tabSet {t : Tab α} {k : Nat} {v : α} {p : Nat × α} (h : p ∈ tabSet t k v) : p = (k, v) ∨ p ∈ t := by
  induction t with
  | nil => simpa [tabSet] using h
  | cons q t ih =>
    obtain ⟨j, w⟩ := q
    simp only [tabSet] at h
    split at h
    · simpa using h
    · split at h
      · rcases List.mem_cons.mp h with h | h
        · exact .inl h
        · exact .inr (List.mem_cons_of_mem _ h)
      · rcases List.mem_cons.mp h with h | h
        · exact .inr (h ▸ List.mem_cons_self ..)
        · exact (ih h).imp_right (List.mem_cons_of_mem _)

theorem mem_tabErase {t : Tab α} {k : Nat} {p : Nat × α} (h : p ∈ tabErase t k) : p ∈ t := by
  induction t with
  | nil => exact h
  | cons q t ih =>
    obtain ⟨j, w⟩ := q
    simp only [tabErase] at h
    split at h
    · exact List.mem_cons_of_mem _ (ih h)
    · rcases List.mem_cons.mp h with h | h
      · exact h ▸ List.mem_cons_self ..
      · exact List.mem_cons_of_mem _ (ih h)

theorem tabSorted_tabSet {t : Tab α} (k : Nat) (v : α) (h : tabSorted t = true) : tabSorted (tabSet t k v) = true := by
  induction t with
  | nil => rfl
  | cons q t ih =>
    obtain ⟨j, w⟩ := q
    obtain ⟨h1, h2⟩ := tabSorted_cons.mp h
    simp only [tabSet]
    split
    · rename_i hk
      exact tabSorted_cons.mpr ⟨h, by
        intro p hp
        rcases List.mem_cons.mp hp with rfl | hp
        · exact hk
        · exact Nat.lt_trans hk (h2 p hp)⟩
    · split
      · rename_i hk
        exact tabSorted_cons.mpr ⟨h1, fun p hp => hk ▸ h2 p hp⟩
      · rename_i hk hk2
        refine tabSorted_cons.mpr ⟨ih h1, fun p hp => ?_⟩
        rcases mem_tabSet hp with rfl | hp
        · show j < k; omega
        · exact h2 p hp

theorem tabSorted_tabErase {t : Tab α} (k : Nat) (h : tabSorted t = true) : tabSorted (tabErase t k) = true := by
  induction t with
  | nil => rfl
  | cons q t ih =>
    obtain ⟨j, w⟩ := q
    obtain ⟨h1, h2⟩ := tabSorted_cons.mp h
    simp only [tabErase]
    split
    · exact ih h1
    · exact tabSorted_cons.mpr ⟨ih h1, fun p hp => h2 p (mem_tabErase hp)⟩

/-! ### Byte memories -/

/-- A write of one byte keeps the canonical form. -/
theorem memWf_memWrite {m : List Host.Cell} (a : Nat) (b : Byte) (h : memWf m) : memWf (memWrite m a b) := by
  obtain ⟨h1, h2⟩ := h
  have h2 := List.all_eq_true.mp h2
  unfold memWrite
  split
  · exact ⟨tabSorted_tabErase a h1, List.all_eq_true.mpr fun p hp => h2 p (mem_tabErase hp)⟩
  · rename_i hb
    refine ⟨tabSorted_tabSet a b h1, List.all_eq_true.mpr fun p hp => ?_⟩
    rcases mem_tabSet hp with rfl | hp
    · simpa using hb
    · exact h2 p hp

/-- A write of several bytes keeps the canonical form. -/
theorem memWf_memWriteBytes (bs : Bytes) {m : List Host.Cell} (a : Nat) (h : memWf m) : memWf (memWriteBytes m a bs) := by
  induction bs generalizing m a with
  | nil => exact h
  | cons b bs ih => exact ih _ (memWf_memWrite a b h)

/-- A byte reads as it was written. -/
@[simp] theorem memRead_memWrite_same (m : List Host.Cell) (a : Nat) (b : Byte) : memRead (memWrite m a b) a = b := by
  unfold memRead memWrite
  split
  · rename_i hb; simp [tabGet, hb]
  · simp

/-- A write leaves every other byte as it was. -/
theorem memRead_memWrite_other (m : List Host.Cell) {a c : Nat} (b : Byte) (hc : c ≠ a) : memRead (memWrite m a b) c = memRead m c := by
  unfold memRead memWrite
  split
  · simp [tabGet, tabFind_tabErase_other m hc]
  · exact tabGet_tabSet_other _ m b hc

/-- A write of several bytes leaves every byte outside them as it was. -/
theorem memRead_memWriteBytes_outside (bs : Bytes) (m : List Host.Cell) (a c : Nat) (hc : c < a ∨ a + bs.length ≤ c) :
    memRead (memWriteBytes m a bs) c = memRead m c := by
  induction bs generalizing m a with
  | nil => rfl
  | cons b bs ih =>
    have h : c < a + 1 ∨ a + 1 + bs.length ≤ c := by simp only [List.length_cons] at hc; omega
    rw [memWriteBytes, ih _ _ h, memRead_memWrite_other _ _ (by simp only [List.length_cons] at hc; omega)]

/-- A write of several bytes puts each of them at its place. -/
theorem memRead_memWriteBytes_inside (bs : Bytes) (m : List Host.Cell) (a i : Nat) (hi : i < bs.length) :
    memRead (memWriteBytes m a bs) (a + i) = bs[i] := by
  induction bs generalizing m a i with
  | nil => simp at hi
  | cons b bs ih =>
    cases i with
    | zero => rw [memWriteBytes, memRead_memWriteBytes_outside bs _ (a + 1) (a + 0) (.inl (by omega))]; simp
    | succ i =>
      have := ih (memWrite m a b) (a + 1) i (by simpa using hi)
      rw [memWriteBytes, show a + (i + 1) = a + 1 + i by omega, this]; rfl

end Sys2Proof.Machine
end

