-- ==== Sys2Proof/Laws/State.lean ====
section
/-! SUPPORT. What each named update of State leaves of every field, and what a record reads after its own update. -/
namespace Sys2Proof.Machine

variable (s : State)

/-! ### modMb -/

@[simp] theorem modMb_boot (m : Nat) (f : Mb → Mb) : (modMb s m f).boot = s.boot := rfl
@[simp] theorem modMb_fw (m : Nat) (f : Mb → Mb) : (modMb s m f).fw = s.fw := rfl
@[simp] theorem modMb_ddr (m : Nat) (f : Mb → Mb) : (modMb s m f).ddr = s.ddr := rfl
@[simp] theorem modMb_clk (m : Nat) (f : Mb → Mb) : (modMb s m f).clk = s.clk := rfl
@[simp] theorem modMb_ptp (m : Nat) (f : Mb → Mb) : (modMb s m f).ptp = s.ptp := rfl
@[simp] theorem modMb_par (m : Nat) (f : Mb → Mb) : (modMb s m f).par = s.par := rfl
@[simp] theorem modMb_log (m : Nat) (f : Mb → Mb) : (modMb s m f).log = s.log := rfl
@[simp] theorem modMb_eth (m : Nat) (f : Mb → Mb) : (modMb s m f).eth = s.eth := rfl
@[simp] theorem modMb_qspi (m : Nat) (f : Mb → Mb) : (modMb s m f).qspi = s.qspi := rfl
@[simp] theorem modMb_hed (m : Nat) (f : Mb → Mb) : (modMb s m f).hed = s.hed := rfl
@[simp] theorem modMb_acc (m : Nat) (f : Mb → Mb) : (modMb s m f).acc = s.acc := rfl
@[simp] theorem modMb_net (m : Nat) (f : Mb → Mb) : (modMb s m f).net = s.net := rfl
@[simp] theorem modMb_brs (m : Nat) (f : Mb → Mb) : (modMb s m f).brs = s.brs := rfl
@[simp] theorem modMb_brCnt (m : Nat) (f : Mb → Mb) : (modMb s m f).brCnt = s.brCnt := rfl
@[simp] theorem modMb_nodes (m : Nat) (f : Mb → Mb) : (modMb s m f).nodes = s.nodes := rfl
@[simp] theorem modMb_ndCnt (m : Nat) (f : Mb → Mb) : (modMb s m f).ndCnt = s.ndCnt := rfl
@[simp] theorem modMb_warp (m : Nat) (f : Mb → Mb) : (modMb s m f).warp = s.warp := rfl
@[simp] theorem modMb_lanes (m : Nat) (f : Mb → Mb) : (modMb s m f).lanes = s.lanes := rfl
@[simp] theorem modMb_lnCnt (m : Nat) (f : Mb → Mb) : (modMb s m f).lnCnt = s.lnCnt := rfl
@[simp] theorem modMb_axes (m : Nat) (f : Mb → Mb) : (modMb s m f).axes = s.axes := rfl
@[simp] theorem modMb_grps (m : Nat) (f : Mb → Mb) : (modMb s m f).grps = s.grps := rfl
@[simp] theorem modMb_storeCorr (m : Nat) (f : Mb → Mb) : (modMb s m f).storeCorr = s.storeCorr := rfl
@[simp] theorem modMb_echo (m : Nat) (f : Mb → Mb) : (modMb s m f).echo = s.echo := rfl
@[simp] theorem modMb_kiln (m : Nat) (f : Mb → Mb) : (modMb s m f).kiln = s.kiln := rfl
@[simp] theorem modMb_cans (m : Nat) (f : Mb → Mb) : (modMb s m f).cans = s.cans := rfl
@[simp] theorem modMb_dmp (m : Nat) (f : Mb → Mb) : (modMb s m f).dmp = s.dmp := rfl
@[simp] theorem modMb_pair (m : Nat) (f : Mb → Mb) : (modMb s m f).pair = s.pair := rfl
@[simp] theorem modMb_freeCtr (m : Nat) (f : Mb → Mb) : (modMb s m f).freeCtr = s.freeCtr := rfl
@[simp] theorem modMb_pending (m : Nat) (f : Mb → Mb) : (modMb s m f).pending = s.pending := rfl

/-! ### modBr -/

@[simp] theorem modBr_boot (b : Nat) (f : Branch → Branch) : (modBr s b f).boot = s.boot := rfl
@[simp] theorem modBr_fw (b : Nat) (f : Branch → Branch) : (modBr s b f).fw = s.fw := rfl
@[simp] theorem modBr_ddr (b : Nat) (f : Branch → Branch) : (modBr s b f).ddr = s.ddr := rfl
@[simp] theorem modBr_clk (b : Nat) (f : Branch → Branch) : (modBr s b f).clk = s.clk := rfl
@[simp] theorem modBr_ptp (b : Nat) (f : Branch → Branch) : (modBr s b f).ptp = s.ptp := rfl
@[simp] theorem modBr_par (b : Nat) (f : Branch → Branch) : (modBr s b f).par = s.par := rfl
@[simp] theorem modBr_mbs (b : Nat) (f : Branch → Branch) : (modBr s b f).mbs = s.mbs := rfl
@[simp] theorem modBr_log (b : Nat) (f : Branch → Branch) : (modBr s b f).log = s.log := rfl
@[simp] theorem modBr_eth (b : Nat) (f : Branch → Branch) : (modBr s b f).eth = s.eth := rfl
@[simp] theorem modBr_qspi (b : Nat) (f : Branch → Branch) : (modBr s b f).qspi = s.qspi := rfl
@[simp] theorem modBr_hed (b : Nat) (f : Branch → Branch) : (modBr s b f).hed = s.hed := rfl
@[simp] theorem modBr_acc (b : Nat) (f : Branch → Branch) : (modBr s b f).acc = s.acc := rfl
@[simp] theorem modBr_net (b : Nat) (f : Branch → Branch) : (modBr s b f).net = s.net := rfl
@[simp] theorem modBr_brCnt (b : Nat) (f : Branch → Branch) : (modBr s b f).brCnt = s.brCnt := rfl
@[simp] theorem modBr_nodes (b : Nat) (f : Branch → Branch) : (modBr s b f).nodes = s.nodes := rfl
@[simp] theorem modBr_ndCnt (b : Nat) (f : Branch → Branch) : (modBr s b f).ndCnt = s.ndCnt := rfl
@[simp] theorem modBr_warp (b : Nat) (f : Branch → Branch) : (modBr s b f).warp = s.warp := rfl
@[simp] theorem modBr_lanes (b : Nat) (f : Branch → Branch) : (modBr s b f).lanes = s.lanes := rfl
@[simp] theorem modBr_lnCnt (b : Nat) (f : Branch → Branch) : (modBr s b f).lnCnt = s.lnCnt := rfl
@[simp] theorem modBr_axes (b : Nat) (f : Branch → Branch) : (modBr s b f).axes = s.axes := rfl
@[simp] theorem modBr_grps (b : Nat) (f : Branch → Branch) : (modBr s b f).grps = s.grps := rfl
@[simp] theorem modBr_storeCorr (b : Nat) (f : Branch → Branch) : (modBr s b f).storeCorr = s.storeCorr := rfl
@[simp] theorem modBr_echo (b : Nat) (f : Branch → Branch) : (modBr s b f).echo = s.echo := rfl
@[simp] theorem modBr_kiln (b : Nat) (f : Branch → Branch) : (modBr s b f).kiln = s.kiln := rfl
@[simp] theorem modBr_cans (b : Nat) (f : Branch → Branch) : (modBr s b f).cans = s.cans := rfl
@[simp] theorem modBr_dmp (b : Nat) (f : Branch → Branch) : (modBr s b f).dmp = s.dmp := rfl
@[simp] theorem modBr_pair (b : Nat) (f : Branch → Branch) : (modBr s b f).pair = s.pair := rfl
@[simp] theorem modBr_freeCtr (b : Nat) (f : Branch → Branch) : (modBr s b f).freeCtr = s.freeCtr := rfl
@[simp] theorem modBr_pending (b : Nat) (f : Branch → Branch) : (modBr s b f).pending = s.pending := rfl

/-! ### modBrc -/

@[simp] theorem modBrc_boot (b : Nat) (f : BranchCnt → BranchCnt) : (modBrc s b f).boot = s.boot := rfl
@[simp] theorem modBrc_fw (b : Nat) (f : BranchCnt → BranchCnt) : (modBrc s b f).fw = s.fw := rfl
@[simp] theorem modBrc_ddr (b : Nat) (f : BranchCnt → BranchCnt) : (modBrc s b f).ddr = s.ddr := rfl
@[simp] theorem modBrc_clk (b : Nat) (f : BranchCnt → BranchCnt) : (modBrc s b f).clk = s.clk := rfl
@[simp] theorem modBrc_ptp (b : Nat) (f : BranchCnt → BranchCnt) : (modBrc s b f).ptp = s.ptp := rfl
@[simp] theorem modBrc_par (b : Nat) (f : BranchCnt → BranchCnt) : (modBrc s b f).par = s.par := rfl
@[simp] theorem modBrc_mbs (b : Nat) (f : BranchCnt → BranchCnt) : (modBrc s b f).mbs = s.mbs := rfl
@[simp] theorem modBrc_log (b : Nat) (f : BranchCnt → BranchCnt) : (modBrc s b f).log = s.log := rfl
@[simp] theorem modBrc_eth (b : Nat) (f : BranchCnt → BranchCnt) : (modBrc s b f).eth = s.eth := rfl
@[simp] theorem modBrc_qspi (b : Nat) (f : BranchCnt → BranchCnt) : (modBrc s b f).qspi = s.qspi := rfl
@[simp] theorem modBrc_hed (b : Nat) (f : BranchCnt → BranchCnt) : (modBrc s b f).hed = s.hed := rfl
@[simp] theorem modBrc_acc (b : Nat) (f : BranchCnt → BranchCnt) : (modBrc s b f).acc = s.acc := rfl
@[simp] theorem modBrc_net (b : Nat) (f : BranchCnt → BranchCnt) : (modBrc s b f).net = s.net := rfl
@[simp] theorem modBrc_brs (b : Nat) (f : BranchCnt → BranchCnt) : (modBrc s b f).brs = s.brs := rfl
@[simp] theorem modBrc_nodes (b : Nat) (f : BranchCnt → BranchCnt) : (modBrc s b f).nodes = s.nodes := rfl
@[simp] theorem modBrc_ndCnt (b : Nat) (f : BranchCnt → BranchCnt) : (modBrc s b f).ndCnt = s.ndCnt := rfl
@[simp] theorem modBrc_warp (b : Nat) (f : BranchCnt → BranchCnt) : (modBrc s b f).warp = s.warp := rfl
@[simp] theorem modBrc_lanes (b : Nat) (f : BranchCnt → BranchCnt) : (modBrc s b f).lanes = s.lanes := rfl
@[simp] theorem modBrc_lnCnt (b : Nat) (f : BranchCnt → BranchCnt) : (modBrc s b f).lnCnt = s.lnCnt := rfl
@[simp] theorem modBrc_axes (b : Nat) (f : BranchCnt → BranchCnt) : (modBrc s b f).axes = s.axes := rfl
@[simp] theorem modBrc_grps (b : Nat) (f : BranchCnt → BranchCnt) : (modBrc s b f).grps = s.grps := rfl
@[simp] theorem modBrc_storeCorr (b : Nat) (f : BranchCnt → BranchCnt) : (modBrc s b f).storeCorr = s.storeCorr := rfl
@[simp] theorem modBrc_echo (b : Nat) (f : BranchCnt → BranchCnt) : (modBrc s b f).echo = s.echo := rfl
@[simp] theorem modBrc_kiln (b : Nat) (f : BranchCnt → BranchCnt) : (modBrc s b f).kiln = s.kiln := rfl
@[simp] theorem modBrc_cans (b : Nat) (f : BranchCnt → BranchCnt) : (modBrc s b f).cans = s.cans := rfl
@[simp] theorem modBrc_dmp (b : Nat) (f : BranchCnt → BranchCnt) : (modBrc s b f).dmp = s.dmp := rfl
@[simp] theorem modBrc_pair (b : Nat) (f : BranchCnt → BranchCnt) : (modBrc s b f).pair = s.pair := rfl
@[simp] theorem modBrc_freeCtr (b : Nat) (f : BranchCnt → BranchCnt) : (modBrc s b f).freeCtr = s.freeCtr := rfl
@[simp] theorem modBrc_pending (b : Nat) (f : BranchCnt → BranchCnt) : (modBrc s b f).pending = s.pending := rfl

/-! ### modNd -/

@[simp] theorem modNd_boot (n : Nat) (f : Node → Node) : (modNd s n f).boot = s.boot := rfl
@[simp] theorem modNd_fw (n : Nat) (f : Node → Node) : (modNd s n f).fw = s.fw := rfl
@[simp] theorem modNd_ddr (n : Nat) (f : Node → Node) : (modNd s n f).ddr = s.ddr := rfl
@[simp] theorem modNd_clk (n : Nat) (f : Node → Node) : (modNd s n f).clk = s.clk := rfl
@[simp] theorem modNd_ptp (n : Nat) (f : Node → Node) : (modNd s n f).ptp = s.ptp := rfl
@[simp] theorem modNd_par (n : Nat) (f : Node → Node) : (modNd s n f).par = s.par := rfl
@[simp] theorem modNd_mbs (n : Nat) (f : Node → Node) : (modNd s n f).mbs = s.mbs := rfl
@[simp] theorem modNd_log (n : Nat) (f : Node → Node) : (modNd s n f).log = s.log := rfl
@[simp] theorem modNd_eth (n : Nat) (f : Node → Node) : (modNd s n f).eth = s.eth := rfl
@[simp] theorem modNd_qspi (n : Nat) (f : Node → Node) : (modNd s n f).qspi = s.qspi := rfl
@[simp] theorem modNd_hed (n : Nat) (f : Node → Node) : (modNd s n f).hed = s.hed := rfl
@[simp] theorem modNd_acc (n : Nat) (f : Node → Node) : (modNd s n f).acc = s.acc := rfl
@[simp] theorem modNd_net (n : Nat) (f : Node → Node) : (modNd s n f).net = s.net := rfl
@[simp] theorem modNd_brs (n : Nat) (f : Node → Node) : (modNd s n f).brs = s.brs := rfl
@[simp] theorem modNd_brCnt (n : Nat) (f : Node → Node) : (modNd s n f).brCnt = s.brCnt := rfl
@[simp] theorem modNd_ndCnt (n : Nat) (f : Node → Node) : (modNd s n f).ndCnt = s.ndCnt := rfl
@[simp] theorem modNd_warp (n : Nat) (f : Node → Node) : (modNd s n f).warp = s.warp := rfl
@[simp] theorem modNd_lanes (n : Nat) (f : Node → Node) : (modNd s n f).lanes = s.lanes := rfl
@[simp] theorem modNd_lnCnt (n : Nat) (f : Node → Node) : (modNd s n f).lnCnt = s.lnCnt := rfl
@[simp] theorem modNd_axes (n : Nat) (f : Node → Node) : (modNd s n f).axes = s.axes := rfl
@[simp] theorem modNd_grps (n : Nat) (f : Node → Node) : (modNd s n f).grps = s.grps := rfl
@[simp] theorem modNd_storeCorr (n : Nat) (f : Node → Node) : (modNd s n f).storeCorr = s.storeCorr := rfl
@[simp] theorem modNd_echo (n : Nat) (f : Node → Node) : (modNd s n f).echo = s.echo := rfl
@[simp] theorem modNd_kiln (n : Nat) (f : Node → Node) : (modNd s n f).kiln = s.kiln := rfl
@[simp] theorem modNd_cans (n : Nat) (f : Node → Node) : (modNd s n f).cans = s.cans := rfl
@[simp] theorem modNd_dmp (n : Nat) (f : Node → Node) : (modNd s n f).dmp = s.dmp := rfl
@[simp] theorem modNd_pair (n : Nat) (f : Node → Node) : (modNd s n f).pair = s.pair := rfl
@[simp] theorem modNd_freeCtr (n : Nat) (f : Node → Node) : (modNd s n f).freeCtr = s.freeCtr := rfl
@[simp] theorem modNd_pending (n : Nat) (f : Node → Node) : (modNd s n f).pending = s.pending := rfl

/-! ### modNdc -/

@[simp] theorem modNdc_boot (n : Nat) (f : NodeCnt → NodeCnt) : (modNdc s n f).boot = s.boot := rfl
@[simp] theorem modNdc_fw (n : Nat) (f : NodeCnt → NodeCnt) : (modNdc s n f).fw = s.fw := rfl
@[simp] theorem modNdc_ddr (n : Nat) (f : NodeCnt → NodeCnt) : (modNdc s n f).ddr = s.ddr := rfl
@[simp] theorem modNdc_clk (n : Nat) (f : NodeCnt → NodeCnt) : (modNdc s n f).clk = s.clk := rfl
@[simp] theorem modNdc_ptp (n : Nat) (f : NodeCnt → NodeCnt) : (modNdc s n f).ptp = s.ptp := rfl
@[simp] theorem modNdc_par (n : Nat) (f : NodeCnt → NodeCnt) : (modNdc s n f).par = s.par := rfl
@[simp] theorem modNdc_mbs (n : Nat) (f : NodeCnt → NodeCnt) : (modNdc s n f).mbs = s.mbs := rfl
@[simp] theorem modNdc_log (n : Nat) (f : NodeCnt → NodeCnt) : (modNdc s n f).log = s.log := rfl
@[simp] theorem modNdc_eth (n : Nat) (f : NodeCnt → NodeCnt) : (modNdc s n f).eth = s.eth := rfl
@[simp] theorem modNdc_qspi (n : Nat) (f : NodeCnt → NodeCnt) : (modNdc s n f).qspi = s.qspi := rfl
@[simp] theorem modNdc_hed (n : Nat) (f : NodeCnt → NodeCnt) : (modNdc s n f).hed = s.hed := rfl
@[simp] theorem modNdc_acc (n : Nat) (f : NodeCnt → NodeCnt) : (modNdc s n f).acc = s.acc := rfl
@[simp] theorem modNdc_net (n : Nat) (f : NodeCnt → NodeCnt) : (modNdc s n f).net = s.net := rfl
@[simp] theorem modNdc_brs (n : Nat) (f : NodeCnt → NodeCnt) : (modNdc s n f).brs = s.brs := rfl
@[simp] theorem modNdc_brCnt (n : Nat) (f : NodeCnt → NodeCnt) : (modNdc s n f).brCnt = s.brCnt := rfl
@[simp] theorem modNdc_nodes (n : Nat) (f : NodeCnt → NodeCnt) : (modNdc s n f).nodes = s.nodes := rfl
@[simp] theorem modNdc_warp (n : Nat) (f : NodeCnt → NodeCnt) : (modNdc s n f).warp = s.warp := rfl
@[simp] theorem modNdc_lanes (n : Nat) (f : NodeCnt → NodeCnt) : (modNdc s n f).lanes = s.lanes := rfl
@[simp] theorem modNdc_lnCnt (n : Nat) (f : NodeCnt → NodeCnt) : (modNdc s n f).lnCnt = s.lnCnt := rfl
@[simp] theorem modNdc_axes (n : Nat) (f : NodeCnt → NodeCnt) : (modNdc s n f).axes = s.axes := rfl
@[simp] theorem modNdc_grps (n : Nat) (f : NodeCnt → NodeCnt) : (modNdc s n f).grps = s.grps := rfl
@[simp] theorem modNdc_storeCorr (n : Nat) (f : NodeCnt → NodeCnt) : (modNdc s n f).storeCorr = s.storeCorr := rfl
@[simp] theorem modNdc_echo (n : Nat) (f : NodeCnt → NodeCnt) : (modNdc s n f).echo = s.echo := rfl
@[simp] theorem modNdc_kiln (n : Nat) (f : NodeCnt → NodeCnt) : (modNdc s n f).kiln = s.kiln := rfl
@[simp] theorem modNdc_cans (n : Nat) (f : NodeCnt → NodeCnt) : (modNdc s n f).cans = s.cans := rfl
@[simp] theorem modNdc_dmp (n : Nat) (f : NodeCnt → NodeCnt) : (modNdc s n f).dmp = s.dmp := rfl
@[simp] theorem modNdc_pair (n : Nat) (f : NodeCnt → NodeCnt) : (modNdc s n f).pair = s.pair := rfl
@[simp] theorem modNdc_freeCtr (n : Nat) (f : NodeCnt → NodeCnt) : (modNdc s n f).freeCtr = s.freeCtr := rfl
@[simp] theorem modNdc_pending (n : Nat) (f : NodeCnt → NodeCnt) : (modNdc s n f).pending = s.pending := rfl

/-! ### modLane -/

@[simp] theorem modLane_boot (l : Nat) (f : Lane → Lane) : (modLane s l f).boot = s.boot := rfl
@[simp] theorem modLane_fw (l : Nat) (f : Lane → Lane) : (modLane s l f).fw = s.fw := rfl
@[simp] theorem modLane_ddr (l : Nat) (f : Lane → Lane) : (modLane s l f).ddr = s.ddr := rfl
@[simp] theorem modLane_clk (l : Nat) (f : Lane → Lane) : (modLane s l f).clk = s.clk := rfl
@[simp] theorem modLane_ptp (l : Nat) (f : Lane → Lane) : (modLane s l f).ptp = s.ptp := rfl
@[simp] theorem modLane_par (l : Nat) (f : Lane → Lane) : (modLane s l f).par = s.par := rfl
@[simp] theorem modLane_mbs (l : Nat) (f : Lane → Lane) : (modLane s l f).mbs = s.mbs := rfl
@[simp] theorem modLane_log (l : Nat) (f : Lane → Lane) : (modLane s l f).log = s.log := rfl
@[simp] theorem modLane_eth (l : Nat) (f : Lane → Lane) : (modLane s l f).eth = s.eth := rfl
@[simp] theorem modLane_qspi (l : Nat) (f : Lane → Lane) : (modLane s l f).qspi = s.qspi := rfl
@[simp] theorem modLane_hed (l : Nat) (f : Lane → Lane) : (modLane s l f).hed = s.hed := rfl
@[simp] theorem modLane_acc (l : Nat) (f : Lane → Lane) : (modLane s l f).acc = s.acc := rfl
@[simp] theorem modLane_net (l : Nat) (f : Lane → Lane) : (modLane s l f).net = s.net := rfl
@[simp] theorem modLane_brs (l : Nat) (f : Lane → Lane) : (modLane s l f).brs = s.brs := rfl
@[simp] theorem modLane_brCnt (l : Nat) (f : Lane → Lane) : (modLane s l f).brCnt = s.brCnt := rfl
@[simp] theorem modLane_nodes (l : Nat) (f : Lane → Lane) : (modLane s l f).nodes = s.nodes := rfl
@[simp] theorem modLane_ndCnt (l : Nat) (f : Lane → Lane) : (modLane s l f).ndCnt = s.ndCnt := rfl
@[simp] theorem modLane_warp (l : Nat) (f : Lane → Lane) : (modLane s l f).warp = s.warp := rfl
@[simp] theorem modLane_lnCnt (l : Nat) (f : Lane → Lane) : (modLane s l f).lnCnt = s.lnCnt := rfl
@[simp] theorem modLane_axes (l : Nat) (f : Lane → Lane) : (modLane s l f).axes = s.axes := rfl
@[simp] theorem modLane_grps (l : Nat) (f : Lane → Lane) : (modLane s l f).grps = s.grps := rfl
@[simp] theorem modLane_storeCorr (l : Nat) (f : Lane → Lane) : (modLane s l f).storeCorr = s.storeCorr := rfl
@[simp] theorem modLane_echo (l : Nat) (f : Lane → Lane) : (modLane s l f).echo = s.echo := rfl
@[simp] theorem modLane_kiln (l : Nat) (f : Lane → Lane) : (modLane s l f).kiln = s.kiln := rfl
@[simp] theorem modLane_cans (l : Nat) (f : Lane → Lane) : (modLane s l f).cans = s.cans := rfl
@[simp] theorem modLane_dmp (l : Nat) (f : Lane → Lane) : (modLane s l f).dmp = s.dmp := rfl
@[simp] theorem modLane_pair (l : Nat) (f : Lane → Lane) : (modLane s l f).pair = s.pair := rfl
@[simp] theorem modLane_freeCtr (l : Nat) (f : Lane → Lane) : (modLane s l f).freeCtr = s.freeCtr := rfl
@[simp] theorem modLane_pending (l : Nat) (f : Lane → Lane) : (modLane s l f).pending = s.pending := rfl

/-! ### modLnc -/

@[simp] theorem modLnc_boot (l : Nat) (f : LaneCnt → LaneCnt) : (modLnc s l f).boot = s.boot := rfl
@[simp] theorem modLnc_fw (l : Nat) (f : LaneCnt → LaneCnt) : (modLnc s l f).fw = s.fw := rfl
@[simp] theorem modLnc_ddr (l : Nat) (f : LaneCnt → LaneCnt) : (modLnc s l f).ddr = s.ddr := rfl
@[simp] theorem modLnc_clk (l : Nat) (f : LaneCnt → LaneCnt) : (modLnc s l f).clk = s.clk := rfl
@[simp] theorem modLnc_ptp (l : Nat) (f : LaneCnt → LaneCnt) : (modLnc s l f).ptp = s.ptp := rfl
@[simp] theorem modLnc_par (l : Nat) (f : LaneCnt → LaneCnt) : (modLnc s l f).par = s.par := rfl
@[simp] theorem modLnc_mbs (l : Nat) (f : LaneCnt → LaneCnt) : (modLnc s l f).mbs = s.mbs := rfl
@[simp] theorem modLnc_log (l : Nat) (f : LaneCnt → LaneCnt) : (modLnc s l f).log = s.log := rfl
@[simp] theorem modLnc_eth (l : Nat) (f : LaneCnt → LaneCnt) : (modLnc s l f).eth = s.eth := rfl
@[simp] theorem modLnc_qspi (l : Nat) (f : LaneCnt → LaneCnt) : (modLnc s l f).qspi = s.qspi := rfl
@[simp] theorem modLnc_hed (l : Nat) (f : LaneCnt → LaneCnt) : (modLnc s l f).hed = s.hed := rfl
@[simp] theorem modLnc_acc (l : Nat) (f : LaneCnt → LaneCnt) : (modLnc s l f).acc = s.acc := rfl
@[simp] theorem modLnc_net (l : Nat) (f : LaneCnt → LaneCnt) : (modLnc s l f).net = s.net := rfl
@[simp] theorem modLnc_brs (l : Nat) (f : LaneCnt → LaneCnt) : (modLnc s l f).brs = s.brs := rfl
@[simp] theorem modLnc_brCnt (l : Nat) (f : LaneCnt → LaneCnt) : (modLnc s l f).brCnt = s.brCnt := rfl
@[simp] theorem modLnc_nodes (l : Nat) (f : LaneCnt → LaneCnt) : (modLnc s l f).nodes = s.nodes := rfl
@[simp] theorem modLnc_ndCnt (l : Nat) (f : LaneCnt → LaneCnt) : (modLnc s l f).ndCnt = s.ndCnt := rfl
@[simp] theorem modLnc_warp (l : Nat) (f : LaneCnt → LaneCnt) : (modLnc s l f).warp = s.warp := rfl
@[simp] theorem modLnc_lanes (l : Nat) (f : LaneCnt → LaneCnt) : (modLnc s l f).lanes = s.lanes := rfl
@[simp] theorem modLnc_axes (l : Nat) (f : LaneCnt → LaneCnt) : (modLnc s l f).axes = s.axes := rfl
@[simp] theorem modLnc_grps (l : Nat) (f : LaneCnt → LaneCnt) : (modLnc s l f).grps = s.grps := rfl
@[simp] theorem modLnc_storeCorr (l : Nat) (f : LaneCnt → LaneCnt) : (modLnc s l f).storeCorr = s.storeCorr := rfl
@[simp] theorem modLnc_echo (l : Nat) (f : LaneCnt → LaneCnt) : (modLnc s l f).echo = s.echo := rfl
@[simp] theorem modLnc_kiln (l : Nat) (f : LaneCnt → LaneCnt) : (modLnc s l f).kiln = s.kiln := rfl
@[simp] theorem modLnc_cans (l : Nat) (f : LaneCnt → LaneCnt) : (modLnc s l f).cans = s.cans := rfl
@[simp] theorem modLnc_dmp (l : Nat) (f : LaneCnt → LaneCnt) : (modLnc s l f).dmp = s.dmp := rfl
@[simp] theorem modLnc_pair (l : Nat) (f : LaneCnt → LaneCnt) : (modLnc s l f).pair = s.pair := rfl
@[simp] theorem modLnc_freeCtr (l : Nat) (f : LaneCnt → LaneCnt) : (modLnc s l f).freeCtr = s.freeCtr := rfl
@[simp] theorem modLnc_pending (l : Nat) (f : LaneCnt → LaneCnt) : (modLnc s l f).pending = s.pending := rfl

/-! ### modAx -/

@[simp] theorem modAx_boot (a : Nat) (f : Axis → Axis) : (modAx s a f).boot = s.boot := rfl
@[simp] theorem modAx_fw (a : Nat) (f : Axis → Axis) : (modAx s a f).fw = s.fw := rfl
@[simp] theorem modAx_ddr (a : Nat) (f : Axis → Axis) : (modAx s a f).ddr = s.ddr := rfl
@[simp] theorem modAx_clk (a : Nat) (f : Axis → Axis) : (modAx s a f).clk = s.clk := rfl
@[simp] theorem modAx_ptp (a : Nat) (f : Axis → Axis) : (modAx s a f).ptp = s.ptp := rfl
@[simp] theorem modAx_par (a : Nat) (f : Axis → Axis) : (modAx s a f).par = s.par := rfl
@[simp] theorem modAx_mbs (a : Nat) (f : Axis → Axis) : (modAx s a f).mbs = s.mbs := rfl
@[simp] theorem modAx_log (a : Nat) (f : Axis → Axis) : (modAx s a f).log = s.log := rfl
@[simp] theorem modAx_eth (a : Nat) (f : Axis → Axis) : (modAx s a f).eth = s.eth := rfl
@[simp] theorem modAx_qspi (a : Nat) (f : Axis → Axis) : (modAx s a f).qspi = s.qspi := rfl
@[simp] theorem modAx_hed (a : Nat) (f : Axis → Axis) : (modAx s a f).hed = s.hed := rfl
@[simp] theorem modAx_acc (a : Nat) (f : Axis → Axis) : (modAx s a f).acc = s.acc := rfl
@[simp] theorem modAx_net (a : Nat) (f : Axis → Axis) : (modAx s a f).net = s.net := rfl
@[simp] theorem modAx_brs (a : Nat) (f : Axis → Axis) : (modAx s a f).brs = s.brs := rfl
@[simp] theorem modAx_brCnt (a : Nat) (f : Axis → Axis) : (modAx s a f).brCnt = s.brCnt := rfl
@[simp] theorem modAx_nodes (a : Nat) (f : Axis → Axis) : (modAx s a f).nodes = s.nodes := rfl
@[simp] theorem modAx_ndCnt (a : Nat) (f : Axis → Axis) : (modAx s a f).ndCnt = s.ndCnt := rfl
@[simp] theorem modAx_warp (a : Nat) (f : Axis → Axis) : (modAx s a f).warp = s.warp := rfl
@[simp] theorem modAx_lanes (a : Nat) (f : Axis → Axis) : (modAx s a f).lanes = s.lanes := rfl
@[simp] theorem modAx_lnCnt (a : Nat) (f : Axis → Axis) : (modAx s a f).lnCnt = s.lnCnt := rfl
@[simp] theorem modAx_grps (a : Nat) (f : Axis → Axis) : (modAx s a f).grps = s.grps := rfl
@[simp] theorem modAx_storeCorr (a : Nat) (f : Axis → Axis) : (modAx s a f).storeCorr = s.storeCorr := rfl
@[simp] theorem modAx_echo (a : Nat) (f : Axis → Axis) : (modAx s a f).echo = s.echo := rfl
@[simp] theorem modAx_kiln (a : Nat) (f : Axis → Axis) : (modAx s a f).kiln = s.kiln := rfl
@[simp] theorem modAx_cans (a : Nat) (f : Axis → Axis) : (modAx s a f).cans = s.cans := rfl
@[simp] theorem modAx_dmp (a : Nat) (f : Axis → Axis) : (modAx s a f).dmp = s.dmp := rfl
@[simp] theorem modAx_pair (a : Nat) (f : Axis → Axis) : (modAx s a f).pair = s.pair := rfl
@[simp] theorem modAx_freeCtr (a : Nat) (f : Axis → Axis) : (modAx s a f).freeCtr = s.freeCtr := rfl
@[simp] theorem modAx_pending (a : Nat) (f : Axis → Axis) : (modAx s a f).pending = s.pending := rfl

/-! ### modGrp -/

@[simp] theorem modGrp_boot (g : Nat) (f : Grp → Grp) : (modGrp s g f).boot = s.boot := rfl
@[simp] theorem modGrp_fw (g : Nat) (f : Grp → Grp) : (modGrp s g f).fw = s.fw := rfl
@[simp] theorem modGrp_ddr (g : Nat) (f : Grp → Grp) : (modGrp s g f).ddr = s.ddr := rfl
@[simp] theorem modGrp_clk (g : Nat) (f : Grp → Grp) : (modGrp s g f).clk = s.clk := rfl
@[simp] theorem modGrp_ptp (g : Nat) (f : Grp → Grp) : (modGrp s g f).ptp = s.ptp := rfl
@[simp] theorem modGrp_par (g : Nat) (f : Grp → Grp) : (modGrp s g f).par = s.par := rfl
@[simp] theorem modGrp_mbs (g : Nat) (f : Grp → Grp) : (modGrp s g f).mbs = s.mbs := rfl
@[simp] theorem modGrp_log (g : Nat) (f : Grp → Grp) : (modGrp s g f).log = s.log := rfl
@[simp] theorem modGrp_eth (g : Nat) (f : Grp → Grp) : (modGrp s g f).eth = s.eth := rfl
@[simp] theorem modGrp_qspi (g : Nat) (f : Grp → Grp) : (modGrp s g f).qspi = s.qspi := rfl
@[simp] theorem modGrp_hed (g : Nat) (f : Grp → Grp) : (modGrp s g f).hed = s.hed := rfl
@[simp] theorem modGrp_acc (g : Nat) (f : Grp → Grp) : (modGrp s g f).acc = s.acc := rfl
@[simp] theorem modGrp_net (g : Nat) (f : Grp → Grp) : (modGrp s g f).net = s.net := rfl
@[simp] theorem modGrp_brs (g : Nat) (f : Grp → Grp) : (modGrp s g f).brs = s.brs := rfl
@[simp] theorem modGrp_brCnt (g : Nat) (f : Grp → Grp) : (modGrp s g f).brCnt = s.brCnt := rfl
@[simp] theorem modGrp_nodes (g : Nat) (f : Grp → Grp) : (modGrp s g f).nodes = s.nodes := rfl
@[simp] theorem modGrp_ndCnt (g : Nat) (f : Grp → Grp) : (modGrp s g f).ndCnt = s.ndCnt := rfl
@[simp] theorem modGrp_warp (g : Nat) (f : Grp → Grp) : (modGrp s g f).warp = s.warp := rfl
@[simp] theorem modGrp_lanes (g : Nat) (f : Grp → Grp) : (modGrp s g f).lanes = s.lanes := rfl
@[simp] theorem modGrp_lnCnt (g : Nat) (f : Grp → Grp) : (modGrp s g f).lnCnt = s.lnCnt := rfl
@[simp] theorem modGrp_axes (g : Nat) (f : Grp → Grp) : (modGrp s g f).axes = s.axes := rfl
@[simp] theorem modGrp_storeCorr (g : Nat) (f : Grp → Grp) : (modGrp s g f).storeCorr = s.storeCorr := rfl
@[simp] theorem modGrp_echo (g : Nat) (f : Grp → Grp) : (modGrp s g f).echo = s.echo := rfl
@[simp] theorem modGrp_kiln (g : Nat) (f : Grp → Grp) : (modGrp s g f).kiln = s.kiln := rfl
@[simp] theorem modGrp_cans (g : Nat) (f : Grp → Grp) : (modGrp s g f).cans = s.cans := rfl
@[simp] theorem modGrp_dmp (g : Nat) (f : Grp → Grp) : (modGrp s g f).dmp = s.dmp := rfl
@[simp] theorem modGrp_pair (g : Nat) (f : Grp → Grp) : (modGrp s g f).pair = s.pair := rfl
@[simp] theorem modGrp_freeCtr (g : Nat) (f : Grp → Grp) : (modGrp s g f).freeCtr = s.freeCtr := rfl
@[simp] theorem modGrp_pending (g : Nat) (f : Grp → Grp) : (modGrp s g f).pending = s.pending := rfl

/-! ### modEc -/

@[simp] theorem modEc_boot (e : Nat) (f : Echo → Echo) : (modEc s e f).boot = s.boot := rfl
@[simp] theorem modEc_fw (e : Nat) (f : Echo → Echo) : (modEc s e f).fw = s.fw := rfl
@[simp] theorem modEc_ddr (e : Nat) (f : Echo → Echo) : (modEc s e f).ddr = s.ddr := rfl
@[simp] theorem modEc_clk (e : Nat) (f : Echo → Echo) : (modEc s e f).clk = s.clk := rfl
@[simp] theorem modEc_ptp (e : Nat) (f : Echo → Echo) : (modEc s e f).ptp = s.ptp := rfl
@[simp] theorem modEc_par (e : Nat) (f : Echo → Echo) : (modEc s e f).par = s.par := rfl
@[simp] theorem modEc_mbs (e : Nat) (f : Echo → Echo) : (modEc s e f).mbs = s.mbs := rfl
@[simp] theorem modEc_log (e : Nat) (f : Echo → Echo) : (modEc s e f).log = s.log := rfl
@[simp] theorem modEc_eth (e : Nat) (f : Echo → Echo) : (modEc s e f).eth = s.eth := rfl
@[simp] theorem modEc_qspi (e : Nat) (f : Echo → Echo) : (modEc s e f).qspi = s.qspi := rfl
@[simp] theorem modEc_hed (e : Nat) (f : Echo → Echo) : (modEc s e f).hed = s.hed := rfl
@[simp] theorem modEc_acc (e : Nat) (f : Echo → Echo) : (modEc s e f).acc = s.acc := rfl
@[simp] theorem modEc_net (e : Nat) (f : Echo → Echo) : (modEc s e f).net = s.net := rfl
@[simp] theorem modEc_brs (e : Nat) (f : Echo → Echo) : (modEc s e f).brs = s.brs := rfl
@[simp] theorem modEc_brCnt (e : Nat) (f : Echo → Echo) : (modEc s e f).brCnt = s.brCnt := rfl
@[simp] theorem modEc_nodes (e : Nat) (f : Echo → Echo) : (modEc s e f).nodes = s.nodes := rfl
@[simp] theorem modEc_ndCnt (e : Nat) (f : Echo → Echo) : (modEc s e f).ndCnt = s.ndCnt := rfl
@[simp] theorem modEc_warp (e : Nat) (f : Echo → Echo) : (modEc s e f).warp = s.warp := rfl
@[simp] theorem modEc_lanes (e : Nat) (f : Echo → Echo) : (modEc s e f).lanes = s.lanes := rfl
@[simp] theorem modEc_lnCnt (e : Nat) (f : Echo → Echo) : (modEc s e f).lnCnt = s.lnCnt := rfl
@[simp] theorem modEc_axes (e : Nat) (f : Echo → Echo) : (modEc s e f).axes = s.axes := rfl
@[simp] theorem modEc_grps (e : Nat) (f : Echo → Echo) : (modEc s e f).grps = s.grps := rfl
@[simp] theorem modEc_storeCorr (e : Nat) (f : Echo → Echo) : (modEc s e f).storeCorr = s.storeCorr := rfl
@[simp] theorem modEc_kiln (e : Nat) (f : Echo → Echo) : (modEc s e f).kiln = s.kiln := rfl
@[simp] theorem modEc_cans (e : Nat) (f : Echo → Echo) : (modEc s e f).cans = s.cans := rfl
@[simp] theorem modEc_dmp (e : Nat) (f : Echo → Echo) : (modEc s e f).dmp = s.dmp := rfl
@[simp] theorem modEc_pair (e : Nat) (f : Echo → Echo) : (modEc s e f).pair = s.pair := rfl
@[simp] theorem modEc_freeCtr (e : Nat) (f : Echo → Echo) : (modEc s e f).freeCtr = s.freeCtr := rfl
@[simp] theorem modEc_pending (e : Nat) (f : Echo → Echo) : (modEc s e f).pending = s.pending := rfl

/-! ### modUn -/

@[simp] theorem modUn_boot (u : Nat) (f : AcqU → AcqU) : (modUn s u f).boot = s.boot := rfl
@[simp] theorem modUn_fw (u : Nat) (f : AcqU → AcqU) : (modUn s u f).fw = s.fw := rfl
@[simp] theorem modUn_ddr (u : Nat) (f : AcqU → AcqU) : (modUn s u f).ddr = s.ddr := rfl
@[simp] theorem modUn_clk (u : Nat) (f : AcqU → AcqU) : (modUn s u f).clk = s.clk := rfl
@[simp] theorem modUn_ptp (u : Nat) (f : AcqU → AcqU) : (modUn s u f).ptp = s.ptp := rfl
@[simp] theorem modUn_par (u : Nat) (f : AcqU → AcqU) : (modUn s u f).par = s.par := rfl
@[simp] theorem modUn_mbs (u : Nat) (f : AcqU → AcqU) : (modUn s u f).mbs = s.mbs := rfl
@[simp] theorem modUn_log (u : Nat) (f : AcqU → AcqU) : (modUn s u f).log = s.log := rfl
@[simp] theorem modUn_eth (u : Nat) (f : AcqU → AcqU) : (modUn s u f).eth = s.eth := rfl
@[simp] theorem modUn_qspi (u : Nat) (f : AcqU → AcqU) : (modUn s u f).qspi = s.qspi := rfl
@[simp] theorem modUn_hed (u : Nat) (f : AcqU → AcqU) : (modUn s u f).hed = s.hed := rfl
@[simp] theorem modUn_acc (u : Nat) (f : AcqU → AcqU) : (modUn s u f).acc = s.acc := rfl
@[simp] theorem modUn_net (u : Nat) (f : AcqU → AcqU) : (modUn s u f).net = s.net := rfl
@[simp] theorem modUn_brs (u : Nat) (f : AcqU → AcqU) : (modUn s u f).brs = s.brs := rfl
@[simp] theorem modUn_brCnt (u : Nat) (f : AcqU → AcqU) : (modUn s u f).brCnt = s.brCnt := rfl
@[simp] theorem modUn_nodes (u : Nat) (f : AcqU → AcqU) : (modUn s u f).nodes = s.nodes := rfl
@[simp] theorem modUn_ndCnt (u : Nat) (f : AcqU → AcqU) : (modUn s u f).ndCnt = s.ndCnt := rfl
@[simp] theorem modUn_warp (u : Nat) (f : AcqU → AcqU) : (modUn s u f).warp = s.warp := rfl
@[simp] theorem modUn_lanes (u : Nat) (f : AcqU → AcqU) : (modUn s u f).lanes = s.lanes := rfl
@[simp] theorem modUn_lnCnt (u : Nat) (f : AcqU → AcqU) : (modUn s u f).lnCnt = s.lnCnt := rfl
@[simp] theorem modUn_axes (u : Nat) (f : AcqU → AcqU) : (modUn s u f).axes = s.axes := rfl
@[simp] theorem modUn_grps (u : Nat) (f : AcqU → AcqU) : (modUn s u f).grps = s.grps := rfl
@[simp] theorem modUn_storeCorr (u : Nat) (f : AcqU → AcqU) : (modUn s u f).storeCorr = s.storeCorr := rfl
@[simp] theorem modUn_echo (u : Nat) (f : AcqU → AcqU) : (modUn s u f).echo = s.echo := rfl
@[simp] theorem modUn_cans (u : Nat) (f : AcqU → AcqU) : (modUn s u f).cans = s.cans := rfl
@[simp] theorem modUn_dmp (u : Nat) (f : AcqU → AcqU) : (modUn s u f).dmp = s.dmp := rfl
@[simp] theorem modUn_pair (u : Nat) (f : AcqU → AcqU) : (modUn s u f).pair = s.pair := rfl
@[simp] theorem modUn_freeCtr (u : Nat) (f : AcqU → AcqU) : (modUn s u f).freeCtr = s.freeCtr := rfl
@[simp] theorem modUn_pending (u : Nat) (f : AcqU → AcqU) : (modUn s u f).pending = s.pending := rfl

/-! ### modHi -/

@[simp] theorem modHi_boot (a : Nat) (f : Hist → Hist) : (modHi s a f).boot = s.boot := rfl
@[simp] theorem modHi_fw (a : Nat) (f : Hist → Hist) : (modHi s a f).fw = s.fw := rfl
@[simp] theorem modHi_ddr (a : Nat) (f : Hist → Hist) : (modHi s a f).ddr = s.ddr := rfl
@[simp] theorem modHi_clk (a : Nat) (f : Hist → Hist) : (modHi s a f).clk = s.clk := rfl
@[simp] theorem modHi_ptp (a : Nat) (f : Hist → Hist) : (modHi s a f).ptp = s.ptp := rfl
@[simp] theorem modHi_par (a : Nat) (f : Hist → Hist) : (modHi s a f).par = s.par := rfl
@[simp] theorem modHi_mbs (a : Nat) (f : Hist → Hist) : (modHi s a f).mbs = s.mbs := rfl
@[simp] theorem modHi_log (a : Nat) (f : Hist → Hist) : (modHi s a f).log = s.log := rfl
@[simp] theorem modHi_eth (a : Nat) (f : Hist → Hist) : (modHi s a f).eth = s.eth := rfl
@[simp] theorem modHi_qspi (a : Nat) (f : Hist → Hist) : (modHi s a f).qspi = s.qspi := rfl
@[simp] theorem modHi_hed (a : Nat) (f : Hist → Hist) : (modHi s a f).hed = s.hed := rfl
@[simp] theorem modHi_acc (a : Nat) (f : Hist → Hist) : (modHi s a f).acc = s.acc := rfl
@[simp] theorem modHi_net (a : Nat) (f : Hist → Hist) : (modHi s a f).net = s.net := rfl
@[simp] theorem modHi_brs (a : Nat) (f : Hist → Hist) : (modHi s a f).brs = s.brs := rfl
@[simp] theorem modHi_brCnt (a : Nat) (f : Hist → Hist) : (modHi s a f).brCnt = s.brCnt := rfl
@[simp] theorem modHi_nodes (a : Nat) (f : Hist → Hist) : (modHi s a f).nodes = s.nodes := rfl
@[simp] theorem modHi_ndCnt (a : Nat) (f : Hist → Hist) : (modHi s a f).ndCnt = s.ndCnt := rfl
@[simp] theorem modHi_warp (a : Nat) (f : Hist → Hist) : (modHi s a f).warp = s.warp := rfl
@[simp] theorem modHi_lanes (a : Nat) (f : Hist → Hist) : (modHi s a f).lanes = s.lanes := rfl
@[simp] theorem modHi_lnCnt (a : Nat) (f : Hist → Hist) : (modHi s a f).lnCnt = s.lnCnt := rfl
@[simp] theorem modHi_axes (a : Nat) (f : Hist → Hist) : (modHi s a f).axes = s.axes := rfl
@[simp] theorem modHi_grps (a : Nat) (f : Hist → Hist) : (modHi s a f).grps = s.grps := rfl
@[simp] theorem modHi_storeCorr (a : Nat) (f : Hist → Hist) : (modHi s a f).storeCorr = s.storeCorr := rfl
@[simp] theorem modHi_echo (a : Nat) (f : Hist → Hist) : (modHi s a f).echo = s.echo := rfl
@[simp] theorem modHi_cans (a : Nat) (f : Hist → Hist) : (modHi s a f).cans = s.cans := rfl
@[simp] theorem modHi_dmp (a : Nat) (f : Hist → Hist) : (modHi s a f).dmp = s.dmp := rfl
@[simp] theorem modHi_pair (a : Nat) (f : Hist → Hist) : (modHi s a f).pair = s.pair := rfl
@[simp] theorem modHi_freeCtr (a : Nat) (f : Hist → Hist) : (modHi s a f).freeCtr = s.freeCtr := rfl
@[simp] theorem modHi_pending (a : Nat) (f : Hist → Hist) : (modHi s a f).pending = s.pending := rfl

/-! ### modCan -/

@[simp] theorem modCan_boot (c : Nat) (f : Can → Can) : (modCan s c f).boot = s.boot := rfl
@[simp] theorem modCan_fw (c : Nat) (f : Can → Can) : (modCan s c f).fw = s.fw := rfl
@[simp] theorem modCan_ddr (c : Nat) (f : Can → Can) : (modCan s c f).ddr = s.ddr := rfl
@[simp] theorem modCan_clk (c : Nat) (f : Can → Can) : (modCan s c f).clk = s.clk := rfl
@[simp] theorem modCan_ptp (c : Nat) (f : Can → Can) : (modCan s c f).ptp = s.ptp := rfl
@[simp] theorem modCan_par (c : Nat) (f : Can → Can) : (modCan s c f).par = s.par := rfl
@[simp] theorem modCan_mbs (c : Nat) (f : Can → Can) : (modCan s c f).mbs = s.mbs := rfl
@[simp] theorem modCan_log (c : Nat) (f : Can → Can) : (modCan s c f).log = s.log := rfl
@[simp] theorem modCan_eth (c : Nat) (f : Can → Can) : (modCan s c f).eth = s.eth := rfl
@[simp] theorem modCan_qspi (c : Nat) (f : Can → Can) : (modCan s c f).qspi = s.qspi := rfl
@[simp] theorem modCan_hed (c : Nat) (f : Can → Can) : (modCan s c f).hed = s.hed := rfl
@[simp] theorem modCan_acc (c : Nat) (f : Can → Can) : (modCan s c f).acc = s.acc := rfl
@[simp] theorem modCan_net (c : Nat) (f : Can → Can) : (modCan s c f).net = s.net := rfl
@[simp] theorem modCan_brs (c : Nat) (f : Can → Can) : (modCan s c f).brs = s.brs := rfl
@[simp] theorem modCan_brCnt (c : Nat) (f : Can → Can) : (modCan s c f).brCnt = s.brCnt := rfl
@[simp] theorem modCan_nodes (c : Nat) (f : Can → Can) : (modCan s c f).nodes = s.nodes := rfl
@[simp] theorem modCan_ndCnt (c : Nat) (f : Can → Can) : (modCan s c f).ndCnt = s.ndCnt := rfl
@[simp] theorem modCan_warp (c : Nat) (f : Can → Can) : (modCan s c f).warp = s.warp := rfl
@[simp] theorem modCan_lanes (c : Nat) (f : Can → Can) : (modCan s c f).lanes = s.lanes := rfl
@[simp] theorem modCan_lnCnt (c : Nat) (f : Can → Can) : (modCan s c f).lnCnt = s.lnCnt := rfl
@[simp] theorem modCan_axes (c : Nat) (f : Can → Can) : (modCan s c f).axes = s.axes := rfl
@[simp] theorem modCan_grps (c : Nat) (f : Can → Can) : (modCan s c f).grps = s.grps := rfl
@[simp] theorem modCan_storeCorr (c : Nat) (f : Can → Can) : (modCan s c f).storeCorr = s.storeCorr := rfl
@[simp] theorem modCan_echo (c : Nat) (f : Can → Can) : (modCan s c f).echo = s.echo := rfl
@[simp] theorem modCan_kiln (c : Nat) (f : Can → Can) : (modCan s c f).kiln = s.kiln := rfl
@[simp] theorem modCan_dmp (c : Nat) (f : Can → Can) : (modCan s c f).dmp = s.dmp := rfl
@[simp] theorem modCan_pair (c : Nat) (f : Can → Can) : (modCan s c f).pair = s.pair := rfl
@[simp] theorem modCan_freeCtr (c : Nat) (f : Can → Can) : (modCan s c f).freeCtr = s.freeCtr := rfl
@[simp] theorem modCan_pending (c : Nat) (f : Can → Can) : (modCan s c f).pending = s.pending := rfl

/-! ### modSm -/

@[simp] theorem modSm_boot (a : Nat) (f : AxSm → AxSm) : (modSm s a f).boot = s.boot := rfl
@[simp] theorem modSm_fw (a : Nat) (f : AxSm → AxSm) : (modSm s a f).fw = s.fw := rfl
@[simp] theorem modSm_ddr (a : Nat) (f : AxSm → AxSm) : (modSm s a f).ddr = s.ddr := rfl
@[simp] theorem modSm_clk (a : Nat) (f : AxSm → AxSm) : (modSm s a f).clk = s.clk := rfl
@[simp] theorem modSm_ptp (a : Nat) (f : AxSm → AxSm) : (modSm s a f).ptp = s.ptp := rfl
@[simp] theorem modSm_par (a : Nat) (f : AxSm → AxSm) : (modSm s a f).par = s.par := rfl
@[simp] theorem modSm_mbs (a : Nat) (f : AxSm → AxSm) : (modSm s a f).mbs = s.mbs := rfl
@[simp] theorem modSm_log (a : Nat) (f : AxSm → AxSm) : (modSm s a f).log = s.log := rfl
@[simp] theorem modSm_eth (a : Nat) (f : AxSm → AxSm) : (modSm s a f).eth = s.eth := rfl
@[simp] theorem modSm_qspi (a : Nat) (f : AxSm → AxSm) : (modSm s a f).qspi = s.qspi := rfl
@[simp] theorem modSm_hed (a : Nat) (f : AxSm → AxSm) : (modSm s a f).hed = s.hed := rfl
@[simp] theorem modSm_acc (a : Nat) (f : AxSm → AxSm) : (modSm s a f).acc = s.acc := rfl
@[simp] theorem modSm_net (a : Nat) (f : AxSm → AxSm) : (modSm s a f).net = s.net := rfl
@[simp] theorem modSm_brs (a : Nat) (f : AxSm → AxSm) : (modSm s a f).brs = s.brs := rfl
@[simp] theorem modSm_brCnt (a : Nat) (f : AxSm → AxSm) : (modSm s a f).brCnt = s.brCnt := rfl
@[simp] theorem modSm_nodes (a : Nat) (f : AxSm → AxSm) : (modSm s a f).nodes = s.nodes := rfl
@[simp] theorem modSm_ndCnt (a : Nat) (f : AxSm → AxSm) : (modSm s a f).ndCnt = s.ndCnt := rfl
@[simp] theorem modSm_warp (a : Nat) (f : AxSm → AxSm) : (modSm s a f).warp = s.warp := rfl
@[simp] theorem modSm_lanes (a : Nat) (f : AxSm → AxSm) : (modSm s a f).lanes = s.lanes := rfl
@[simp] theorem modSm_lnCnt (a : Nat) (f : AxSm → AxSm) : (modSm s a f).lnCnt = s.lnCnt := rfl
@[simp] theorem modSm_grps (a : Nat) (f : AxSm → AxSm) : (modSm s a f).grps = s.grps := rfl
@[simp] theorem modSm_storeCorr (a : Nat) (f : AxSm → AxSm) : (modSm s a f).storeCorr = s.storeCorr := rfl
@[simp] theorem modSm_echo (a : Nat) (f : AxSm → AxSm) : (modSm s a f).echo = s.echo := rfl
@[simp] theorem modSm_kiln (a : Nat) (f : AxSm → AxSm) : (modSm s a f).kiln = s.kiln := rfl
@[simp] theorem modSm_cans (a : Nat) (f : AxSm → AxSm) : (modSm s a f).cans = s.cans := rfl
@[simp] theorem modSm_dmp (a : Nat) (f : AxSm → AxSm) : (modSm s a f).dmp = s.dmp := rfl
@[simp] theorem modSm_pair (a : Nat) (f : AxSm → AxSm) : (modSm s a f).pair = s.pair := rfl
@[simp] theorem modSm_freeCtr (a : Nat) (f : AxSm → AxSm) : (modSm s a f).freeCtr = s.freeCtr := rfl
@[simp] theorem modSm_pending (a : Nat) (f : AxSm → AxSm) : (modSm s a f).pending = s.pending := rfl

/-! ### modLp -/

@[simp] theorem modLp_boot (a : Nat) (f : AxLoop → AxLoop) : (modLp s a f).boot = s.boot := rfl
@[simp] theorem modLp_fw (a : Nat) (f : AxLoop → AxLoop) : (modLp s a f).fw = s.fw := rfl
@[simp] theorem modLp_ddr (a : Nat) (f : AxLoop → AxLoop) : (modLp s a f).ddr = s.ddr := rfl
@[simp] theorem modLp_clk (a : Nat) (f : AxLoop → AxLoop) : (modLp s a f).clk = s.clk := rfl
@[simp] theorem modLp_ptp (a : Nat) (f : AxLoop → AxLoop) : (modLp s a f).ptp = s.ptp := rfl
@[simp] theorem modLp_par (a : Nat) (f : AxLoop → AxLoop) : (modLp s a f).par = s.par := rfl
@[simp] theorem modLp_mbs (a : Nat) (f : AxLoop → AxLoop) : (modLp s a f).mbs = s.mbs := rfl
@[simp] theorem modLp_log (a : Nat) (f : AxLoop → AxLoop) : (modLp s a f).log = s.log := rfl
@[simp] theorem modLp_eth (a : Nat) (f : AxLoop → AxLoop) : (modLp s a f).eth = s.eth := rfl
@[simp] theorem modLp_qspi (a : Nat) (f : AxLoop → AxLoop) : (modLp s a f).qspi = s.qspi := rfl
@[simp] theorem modLp_hed (a : Nat) (f : AxLoop → AxLoop) : (modLp s a f).hed = s.hed := rfl
@[simp] theorem modLp_acc (a : Nat) (f : AxLoop → AxLoop) : (modLp s a f).acc = s.acc := rfl
@[simp] theorem modLp_net (a : Nat) (f : AxLoop → AxLoop) : (modLp s a f).net = s.net := rfl
@[simp] theorem modLp_brs (a : Nat) (f : AxLoop → AxLoop) : (modLp s a f).brs = s.brs := rfl
@[simp] theorem modLp_brCnt (a : Nat) (f : AxLoop → AxLoop) : (modLp s a f).brCnt = s.brCnt := rfl
@[simp] theorem modLp_nodes (a : Nat) (f : AxLoop → AxLoop) : (modLp s a f).nodes = s.nodes := rfl
@[simp] theorem modLp_ndCnt (a : Nat) (f : AxLoop → AxLoop) : (modLp s a f).ndCnt = s.ndCnt := rfl
@[simp] theorem modLp_warp (a : Nat) (f : AxLoop → AxLoop) : (modLp s a f).warp = s.warp := rfl
@[simp] theorem modLp_lanes (a : Nat) (f : AxLoop → AxLoop) : (modLp s a f).lanes = s.lanes := rfl
@[simp] theorem modLp_lnCnt (a : Nat) (f : AxLoop → AxLoop) : (modLp s a f).lnCnt = s.lnCnt := rfl
@[simp] theorem modLp_grps (a : Nat) (f : AxLoop → AxLoop) : (modLp s a f).grps = s.grps := rfl
@[simp] theorem modLp_storeCorr (a : Nat) (f : AxLoop → AxLoop) : (modLp s a f).storeCorr = s.storeCorr := rfl
@[simp] theorem modLp_echo (a : Nat) (f : AxLoop → AxLoop) : (modLp s a f).echo = s.echo := rfl
@[simp] theorem modLp_kiln (a : Nat) (f : AxLoop → AxLoop) : (modLp s a f).kiln = s.kiln := rfl
@[simp] theorem modLp_cans (a : Nat) (f : AxLoop → AxLoop) : (modLp s a f).cans = s.cans := rfl
@[simp] theorem modLp_dmp (a : Nat) (f : AxLoop → AxLoop) : (modLp s a f).dmp = s.dmp := rfl
@[simp] theorem modLp_pair (a : Nat) (f : AxLoop → AxLoop) : (modLp s a f).pair = s.pair := rfl
@[simp] theorem modLp_freeCtr (a : Nat) (f : AxLoop → AxLoop) : (modLp s a f).freeCtr = s.freeCtr := rfl
@[simp] theorem modLp_pending (a : Nat) (f : AxLoop → AxLoop) : (modLp s a f).pending = s.pending := rfl

/-! ### modFb -/

@[simp] theorem modFb_boot (a : Nat) (f : AxFb → AxFb) : (modFb s a f).boot = s.boot := rfl
@[simp] theorem modFb_fw (a : Nat) (f : AxFb → AxFb) : (modFb s a f).fw = s.fw := rfl
@[simp] theorem modFb_ddr (a : Nat) (f : AxFb → AxFb) : (modFb s a f).ddr = s.ddr := rfl
@[simp] theorem modFb_clk (a : Nat) (f : AxFb → AxFb) : (modFb s a f).clk = s.clk := rfl
@[simp] theorem modFb_ptp (a : Nat) (f : AxFb → AxFb) : (modFb s a f).ptp = s.ptp := rfl
@[simp] theorem modFb_par (a : Nat) (f : AxFb → AxFb) : (modFb s a f).par = s.par := rfl
@[simp] theorem modFb_mbs (a : Nat) (f : AxFb → AxFb) : (modFb s a f).mbs = s.mbs := rfl
@[simp] theorem modFb_log (a : Nat) (f : AxFb → AxFb) : (modFb s a f).log = s.log := rfl
@[simp] theorem modFb_eth (a : Nat) (f : AxFb → AxFb) : (modFb s a f).eth = s.eth := rfl
@[simp] theorem modFb_qspi (a : Nat) (f : AxFb → AxFb) : (modFb s a f).qspi = s.qspi := rfl
@[simp] theorem modFb_hed (a : Nat) (f : AxFb → AxFb) : (modFb s a f).hed = s.hed := rfl
@[simp] theorem modFb_acc (a : Nat) (f : AxFb → AxFb) : (modFb s a f).acc = s.acc := rfl
@[simp] theorem modFb_net (a : Nat) (f : AxFb → AxFb) : (modFb s a f).net = s.net := rfl
@[simp] theorem modFb_brs (a : Nat) (f : AxFb → AxFb) : (modFb s a f).brs = s.brs := rfl
@[simp] theorem modFb_brCnt (a : Nat) (f : AxFb → AxFb) : (modFb s a f).brCnt = s.brCnt := rfl
@[simp] theorem modFb_nodes (a : Nat) (f : AxFb → AxFb) : (modFb s a f).nodes = s.nodes := rfl
@[simp] theorem modFb_ndCnt (a : Nat) (f : AxFb → AxFb) : (modFb s a f).ndCnt = s.ndCnt := rfl
@[simp] theorem modFb_warp (a : Nat) (f : AxFb → AxFb) : (modFb s a f).warp = s.warp := rfl
@[simp] theorem modFb_lanes (a : Nat) (f : AxFb → AxFb) : (modFb s a f).lanes = s.lanes := rfl
@[simp] theorem modFb_lnCnt (a : Nat) (f : AxFb → AxFb) : (modFb s a f).lnCnt = s.lnCnt := rfl
@[simp] theorem modFb_grps (a : Nat) (f : AxFb → AxFb) : (modFb s a f).grps = s.grps := rfl
@[simp] theorem modFb_storeCorr (a : Nat) (f : AxFb → AxFb) : (modFb s a f).storeCorr = s.storeCorr := rfl
@[simp] theorem modFb_echo (a : Nat) (f : AxFb → AxFb) : (modFb s a f).echo = s.echo := rfl
@[simp] theorem modFb_kiln (a : Nat) (f : AxFb → AxFb) : (modFb s a f).kiln = s.kiln := rfl
@[simp] theorem modFb_cans (a : Nat) (f : AxFb → AxFb) : (modFb s a f).cans = s.cans := rfl
@[simp] theorem modFb_dmp (a : Nat) (f : AxFb → AxFb) : (modFb s a f).dmp = s.dmp := rfl
@[simp] theorem modFb_pair (a : Nat) (f : AxFb → AxFb) : (modFb s a f).pair = s.pair := rfl
@[simp] theorem modFb_freeCtr (a : Nat) (f : AxFb → AxFb) : (modFb s a f).freeCtr = s.freeCtr := rfl
@[simp] theorem modFb_pending (a : Nat) (f : AxFb → AxFb) : (modFb s a f).pending = s.pending := rfl

/-! ### modProf -/

@[simp] theorem modProf_boot (a : Nat) (f : AxProf → AxProf) : (modProf s a f).boot = s.boot := rfl
@[simp] theorem modProf_fw (a : Nat) (f : AxProf → AxProf) : (modProf s a f).fw = s.fw := rfl
@[simp] theorem modProf_ddr (a : Nat) (f : AxProf → AxProf) : (modProf s a f).ddr = s.ddr := rfl
@[simp] theorem modProf_clk (a : Nat) (f : AxProf → AxProf) : (modProf s a f).clk = s.clk := rfl
@[simp] theorem modProf_ptp (a : Nat) (f : AxProf → AxProf) : (modProf s a f).ptp = s.ptp := rfl
@[simp] theorem modProf_par (a : Nat) (f : AxProf → AxProf) : (modProf s a f).par = s.par := rfl
@[simp] theorem modProf_mbs (a : Nat) (f : AxProf → AxProf) : (modProf s a f).mbs = s.mbs := rfl
@[simp] theorem modProf_log (a : Nat) (f : AxProf → AxProf) : (modProf s a f).log = s.log := rfl
@[simp] theorem modProf_eth (a : Nat) (f : AxProf → AxProf) : (modProf s a f).eth = s.eth := rfl
@[simp] theorem modProf_qspi (a : Nat) (f : AxProf → AxProf) : (modProf s a f).qspi = s.qspi := rfl
@[simp] theorem modProf_hed (a : Nat) (f : AxProf → AxProf) : (modProf s a f).hed = s.hed := rfl
@[simp] theorem modProf_acc (a : Nat) (f : AxProf → AxProf) : (modProf s a f).acc = s.acc := rfl
@[simp] theorem modProf_net (a : Nat) (f : AxProf → AxProf) : (modProf s a f).net = s.net := rfl
@[simp] theorem modProf_brs (a : Nat) (f : AxProf → AxProf) : (modProf s a f).brs = s.brs := rfl
@[simp] theorem modProf_brCnt (a : Nat) (f : AxProf → AxProf) : (modProf s a f).brCnt = s.brCnt := rfl
@[simp] theorem modProf_nodes (a : Nat) (f : AxProf → AxProf) : (modProf s a f).nodes = s.nodes := rfl
@[simp] theorem modProf_ndCnt (a : Nat) (f : AxProf → AxProf) : (modProf s a f).ndCnt = s.ndCnt := rfl
@[simp] theorem modProf_warp (a : Nat) (f : AxProf → AxProf) : (modProf s a f).warp = s.warp := rfl
@[simp] theorem modProf_lanes (a : Nat) (f : AxProf → AxProf) : (modProf s a f).lanes = s.lanes := rfl
@[simp] theorem modProf_lnCnt (a : Nat) (f : AxProf → AxProf) : (modProf s a f).lnCnt = s.lnCnt := rfl
@[simp] theorem modProf_grps (a : Nat) (f : AxProf → AxProf) : (modProf s a f).grps = s.grps := rfl
@[simp] theorem modProf_storeCorr (a : Nat) (f : AxProf → AxProf) : (modProf s a f).storeCorr = s.storeCorr := rfl
@[simp] theorem modProf_echo (a : Nat) (f : AxProf → AxProf) : (modProf s a f).echo = s.echo := rfl
@[simp] theorem modProf_kiln (a : Nat) (f : AxProf → AxProf) : (modProf s a f).kiln = s.kiln := rfl
@[simp] theorem modProf_cans (a : Nat) (f : AxProf → AxProf) : (modProf s a f).cans = s.cans := rfl
@[simp] theorem modProf_dmp (a : Nat) (f : AxProf → AxProf) : (modProf s a f).dmp = s.dmp := rfl
@[simp] theorem modProf_pair (a : Nat) (f : AxProf → AxProf) : (modProf s a f).pair = s.pair := rfl
@[simp] theorem modProf_freeCtr (a : Nat) (f : AxProf → AxProf) : (modProf s a f).freeCtr = s.freeCtr := rfl
@[simp] theorem modProf_pending (a : Nat) (f : AxProf → AxProf) : (modProf s a f).pending = s.pending := rfl

/-! ### modMd -/

@[simp] theorem modMd_boot (a : Nat) (f : AxMod → AxMod) : (modMd s a f).boot = s.boot := rfl
@[simp] theorem modMd_fw (a : Nat) (f : AxMod → AxMod) : (modMd s a f).fw = s.fw := rfl
@[simp] theorem modMd_ddr (a : Nat) (f : AxMod → AxMod) : (modMd s a f).ddr = s.ddr := rfl
@[simp] theorem modMd_clk (a : Nat) (f : AxMod → AxMod) : (modMd s a f).clk = s.clk := rfl
@[simp] theorem modMd_ptp (a : Nat) (f : AxMod → AxMod) : (modMd s a f).ptp = s.ptp := rfl
@[simp] theorem modMd_par (a : Nat) (f : AxMod → AxMod) : (modMd s a f).par = s.par := rfl
@[simp] theorem modMd_mbs (a : Nat) (f : AxMod → AxMod) : (modMd s a f).mbs = s.mbs := rfl
@[simp] theorem modMd_log (a : Nat) (f : AxMod → AxMod) : (modMd s a f).log = s.log := rfl
@[simp] theorem modMd_eth (a : Nat) (f : AxMod → AxMod) : (modMd s a f).eth = s.eth := rfl
@[simp] theorem modMd_qspi (a : Nat) (f : AxMod → AxMod) : (modMd s a f).qspi = s.qspi := rfl
@[simp] theorem modMd_hed (a : Nat) (f : AxMod → AxMod) : (modMd s a f).hed = s.hed := rfl
@[simp] theorem modMd_acc (a : Nat) (f : AxMod → AxMod) : (modMd s a f).acc = s.acc := rfl
@[simp] theorem modMd_net (a : Nat) (f : AxMod → AxMod) : (modMd s a f).net = s.net := rfl
@[simp] theorem modMd_brs (a : Nat) (f : AxMod → AxMod) : (modMd s a f).brs = s.brs := rfl
@[simp] theorem modMd_brCnt (a : Nat) (f : AxMod → AxMod) : (modMd s a f).brCnt = s.brCnt := rfl
@[simp] theorem modMd_nodes (a : Nat) (f : AxMod → AxMod) : (modMd s a f).nodes = s.nodes := rfl
@[simp] theorem modMd_ndCnt (a : Nat) (f : AxMod → AxMod) : (modMd s a f).ndCnt = s.ndCnt := rfl
@[simp] theorem modMd_warp (a : Nat) (f : AxMod → AxMod) : (modMd s a f).warp = s.warp := rfl
@[simp] theorem modMd_lanes (a : Nat) (f : AxMod → AxMod) : (modMd s a f).lanes = s.lanes := rfl
@[simp] theorem modMd_lnCnt (a : Nat) (f : AxMod → AxMod) : (modMd s a f).lnCnt = s.lnCnt := rfl
@[simp] theorem modMd_grps (a : Nat) (f : AxMod → AxMod) : (modMd s a f).grps = s.grps := rfl
@[simp] theorem modMd_storeCorr (a : Nat) (f : AxMod → AxMod) : (modMd s a f).storeCorr = s.storeCorr := rfl
@[simp] theorem modMd_echo (a : Nat) (f : AxMod → AxMod) : (modMd s a f).echo = s.echo := rfl
@[simp] theorem modMd_kiln (a : Nat) (f : AxMod → AxMod) : (modMd s a f).kiln = s.kiln := rfl
@[simp] theorem modMd_cans (a : Nat) (f : AxMod → AxMod) : (modMd s a f).cans = s.cans := rfl
@[simp] theorem modMd_dmp (a : Nat) (f : AxMod → AxMod) : (modMd s a f).dmp = s.dmp := rfl
@[simp] theorem modMd_pair (a : Nat) (f : AxMod → AxMod) : (modMd s a f).pair = s.pair := rfl
@[simp] theorem modMd_freeCtr (a : Nat) (f : AxMod → AxMod) : (modMd s a f).freeCtr = s.freeCtr := rfl
@[simp] theorem modMd_pending (a : Nat) (f : AxMod → AxMod) : (modMd s a f).pending = s.pending := rfl

/-! ### modCnt -/

@[simp] theorem modCnt_boot (a : Nat) (f : AxCnt → AxCnt) : (modCnt s a f).boot = s.boot := rfl
@[simp] theorem modCnt_fw (a : Nat) (f : AxCnt → AxCnt) : (modCnt s a f).fw = s.fw := rfl
@[simp] theorem modCnt_ddr (a : Nat) (f : AxCnt → AxCnt) : (modCnt s a f).ddr = s.ddr := rfl
@[simp] theorem modCnt_clk (a : Nat) (f : AxCnt → AxCnt) : (modCnt s a f).clk = s.clk := rfl
@[simp] theorem modCnt_ptp (a : Nat) (f : AxCnt → AxCnt) : (modCnt s a f).ptp = s.ptp := rfl
@[simp] theorem modCnt_par (a : Nat) (f : AxCnt → AxCnt) : (modCnt s a f).par = s.par := rfl
@[simp] theorem modCnt_mbs (a : Nat) (f : AxCnt → AxCnt) : (modCnt s a f).mbs = s.mbs := rfl
@[simp] theorem modCnt_log (a : Nat) (f : AxCnt → AxCnt) : (modCnt s a f).log = s.log := rfl
@[simp] theorem modCnt_eth (a : Nat) (f : AxCnt → AxCnt) : (modCnt s a f).eth = s.eth := rfl
@[simp] theorem modCnt_qspi (a : Nat) (f : AxCnt → AxCnt) : (modCnt s a f).qspi = s.qspi := rfl
@[simp] theorem modCnt_hed (a : Nat) (f : AxCnt → AxCnt) : (modCnt s a f).hed = s.hed := rfl
@[simp] theorem modCnt_acc (a : Nat) (f : AxCnt → AxCnt) : (modCnt s a f).acc = s.acc := rfl
@[simp] theorem modCnt_net (a : Nat) (f : AxCnt → AxCnt) : (modCnt s a f).net = s.net := rfl
@[simp] theorem modCnt_brs (a : Nat) (f : AxCnt → AxCnt) : (modCnt s a f).brs = s.brs := rfl
@[simp] theorem modCnt_brCnt (a : Nat) (f : AxCnt → AxCnt) : (modCnt s a f).brCnt = s.brCnt := rfl
@[simp] theorem modCnt_nodes (a : Nat) (f : AxCnt → AxCnt) : (modCnt s a f).nodes = s.nodes := rfl
@[simp] theorem modCnt_ndCnt (a : Nat) (f : AxCnt → AxCnt) : (modCnt s a f).ndCnt = s.ndCnt := rfl
@[simp] theorem modCnt_warp (a : Nat) (f : AxCnt → AxCnt) : (modCnt s a f).warp = s.warp := rfl
@[simp] theorem modCnt_lanes (a : Nat) (f : AxCnt → AxCnt) : (modCnt s a f).lanes = s.lanes := rfl
@[simp] theorem modCnt_lnCnt (a : Nat) (f : AxCnt → AxCnt) : (modCnt s a f).lnCnt = s.lnCnt := rfl
@[simp] theorem modCnt_grps (a : Nat) (f : AxCnt → AxCnt) : (modCnt s a f).grps = s.grps := rfl
@[simp] theorem modCnt_storeCorr (a : Nat) (f : AxCnt → AxCnt) : (modCnt s a f).storeCorr = s.storeCorr := rfl
@[simp] theorem modCnt_echo (a : Nat) (f : AxCnt → AxCnt) : (modCnt s a f).echo = s.echo := rfl
@[simp] theorem modCnt_kiln (a : Nat) (f : AxCnt → AxCnt) : (modCnt s a f).kiln = s.kiln := rfl
@[simp] theorem modCnt_cans (a : Nat) (f : AxCnt → AxCnt) : (modCnt s a f).cans = s.cans := rfl
@[simp] theorem modCnt_dmp (a : Nat) (f : AxCnt → AxCnt) : (modCnt s a f).dmp = s.dmp := rfl
@[simp] theorem modCnt_pair (a : Nat) (f : AxCnt → AxCnt) : (modCnt s a f).pair = s.pair := rfl
@[simp] theorem modCnt_freeCtr (a : Nat) (f : AxCnt → AxCnt) : (modCnt s a f).freeCtr = s.freeCtr := rfl
@[simp] theorem modCnt_pending (a : Nat) (f : AxCnt → AxCnt) : (modCnt s a f).pending = s.pending := rfl

/-! ### raiseAt -/

@[simp] theorem raiseAt_boot (c i : Nat) (pl : Bytes) (p : BitVec 32) : (raiseAt s c i pl p).boot = s.boot := rfl
@[simp] theorem raiseAt_fw (c i : Nat) (pl : Bytes) (p : BitVec 32) : (raiseAt s c i pl p).fw = s.fw := rfl
@[simp] theorem raiseAt_ddr (c i : Nat) (pl : Bytes) (p : BitVec 32) : (raiseAt s c i pl p).ddr = s.ddr := rfl
@[simp] theorem raiseAt_clk (c i : Nat) (pl : Bytes) (p : BitVec 32) : (raiseAt s c i pl p).clk = s.clk := rfl
@[simp] theorem raiseAt_ptp (c i : Nat) (pl : Bytes) (p : BitVec 32) : (raiseAt s c i pl p).ptp = s.ptp := rfl
@[simp] theorem raiseAt_par (c i : Nat) (pl : Bytes) (p : BitVec 32) : (raiseAt s c i pl p).par = s.par := rfl
@[simp] theorem raiseAt_eth (c i : Nat) (pl : Bytes) (p : BitVec 32) : (raiseAt s c i pl p).eth = s.eth := rfl
@[simp] theorem raiseAt_qspi (c i : Nat) (pl : Bytes) (p : BitVec 32) : (raiseAt s c i pl p).qspi = s.qspi := rfl
@[simp] theorem raiseAt_hed (c i : Nat) (pl : Bytes) (p : BitVec 32) : (raiseAt s c i pl p).hed = s.hed := rfl
@[simp] theorem raiseAt_acc (c i : Nat) (pl : Bytes) (p : BitVec 32) : (raiseAt s c i pl p).acc = s.acc := rfl
@[simp] theorem raiseAt_net (c i : Nat) (pl : Bytes) (p : BitVec 32) : (raiseAt s c i pl p).net = s.net := rfl
@[simp] theorem raiseAt_brs (c i : Nat) (pl : Bytes) (p : BitVec 32) : (raiseAt s c i pl p).brs = s.brs := rfl
@[simp] theorem raiseAt_brCnt (c i : Nat) (pl : Bytes) (p : BitVec 32) : (raiseAt s c i pl p).brCnt = s.brCnt := rfl
@[simp] theorem raiseAt_nodes (c i : Nat) (pl : Bytes) (p : BitVec 32) : (raiseAt s c i pl p).nodes = s.nodes := rfl
@[simp] theorem raiseAt_ndCnt (c i : Nat) (pl : Bytes) (p : BitVec 32) : (raiseAt s c i pl p).ndCnt = s.ndCnt := rfl
@[simp] theorem raiseAt_warp (c i : Nat) (pl : Bytes) (p : BitVec 32) : (raiseAt s c i pl p).warp = s.warp := rfl
@[simp] theorem raiseAt_lanes (c i : Nat) (pl : Bytes) (p : BitVec 32) : (raiseAt s c i pl p).lanes = s.lanes := rfl
@[simp] theorem raiseAt_lnCnt (c i : Nat) (pl : Bytes) (p : BitVec 32) : (raiseAt s c i pl p).lnCnt = s.lnCnt := rfl
@[simp] theorem raiseAt_axes (c i : Nat) (pl : Bytes) (p : BitVec 32) : (raiseAt s c i pl p).axes = s.axes := rfl
@[simp] theorem raiseAt_grps (c i : Nat) (pl : Bytes) (p : BitVec 32) : (raiseAt s c i pl p).grps = s.grps := rfl
@[simp] theorem raiseAt_storeCorr (c i : Nat) (pl : Bytes) (p : BitVec 32) : (raiseAt s c i pl p).storeCorr = s.storeCorr := rfl
@[simp] theorem raiseAt_echo (c i : Nat) (pl : Bytes) (p : BitVec 32) : (raiseAt s c i pl p).echo = s.echo := rfl
@[simp] theorem raiseAt_kiln (c i : Nat) (pl : Bytes) (p : BitVec 32) : (raiseAt s c i pl p).kiln = s.kiln := rfl
@[simp] theorem raiseAt_cans (c i : Nat) (pl : Bytes) (p : BitVec 32) : (raiseAt s c i pl p).cans = s.cans := rfl
@[simp] theorem raiseAt_dmp (c i : Nat) (pl : Bytes) (p : BitVec 32) : (raiseAt s c i pl p).dmp = s.dmp := rfl
@[simp] theorem raiseAt_pair (c i : Nat) (pl : Bytes) (p : BitVec 32) : (raiseAt s c i pl p).pair = s.pair := rfl
@[simp] theorem raiseAt_freeCtr (c i : Nat) (pl : Bytes) (p : BitVec 32) : (raiseAt s c i pl p).freeCtr = s.freeCtr := rfl
@[simp] theorem raiseAt_pending (c i : Nat) (pl : Bytes) (p : BitVec 32) : (raiseAt s c i pl p).pending = s.pending := rfl

/-! ### raise -/

@[simp] theorem raise_boot (c i : Nat) (pl : Bytes) : (raise s c i pl).boot = s.boot := rfl
@[simp] theorem raise_fw (c i : Nat) (pl : Bytes) : (raise s c i pl).fw = s.fw := rfl
@[simp] theorem raise_ddr (c i : Nat) (pl : Bytes) : (raise s c i pl).ddr = s.ddr := rfl
@[simp] theorem raise_clk (c i : Nat) (pl : Bytes) : (raise s c i pl).clk = s.clk := rfl
@[simp] theorem raise_ptp (c i : Nat) (pl : Bytes) : (raise s c i pl).ptp = s.ptp := rfl
@[simp] theorem raise_par (c i : Nat) (pl : Bytes) : (raise s c i pl).par = s.par := rfl
@[simp] theorem raise_eth (c i : Nat) (pl : Bytes) : (raise s c i pl).eth = s.eth := rfl
@[simp] theorem raise_qspi (c i : Nat) (pl : Bytes) : (raise s c i pl).qspi = s.qspi := rfl
@[simp] theorem raise_hed (c i : Nat) (pl : Bytes) : (raise s c i pl).hed = s.hed := rfl
@[simp] theorem raise_acc (c i : Nat) (pl : Bytes) : (raise s c i pl).acc = s.acc := rfl
@[simp] theorem raise_net (c i : Nat) (pl : Bytes) : (raise s c i pl).net = s.net := rfl
@[simp] theorem raise_brs (c i : Nat) (pl : Bytes) : (raise s c i pl).brs = s.brs := rfl
@[simp] theorem raise_brCnt (c i : Nat) (pl : Bytes) : (raise s c i pl).brCnt = s.brCnt := rfl
@[simp] theorem raise_nodes (c i : Nat) (pl : Bytes) : (raise s c i pl).nodes = s.nodes := rfl
@[simp] theorem raise_ndCnt (c i : Nat) (pl : Bytes) : (raise s c i pl).ndCnt = s.ndCnt := rfl
@[simp] theorem raise_warp (c i : Nat) (pl : Bytes) : (raise s c i pl).warp = s.warp := rfl
@[simp] theorem raise_lanes (c i : Nat) (pl : Bytes) : (raise s c i pl).lanes = s.lanes := rfl
@[simp] theorem raise_lnCnt (c i : Nat) (pl : Bytes) : (raise s c i pl).lnCnt = s.lnCnt := rfl
@[simp] theorem raise_axes (c i : Nat) (pl : Bytes) : (raise s c i pl).axes = s.axes := rfl
@[simp] theorem raise_grps (c i : Nat) (pl : Bytes) : (raise s c i pl).grps = s.grps := rfl
@[simp] theorem raise_storeCorr (c i : Nat) (pl : Bytes) : (raise s c i pl).storeCorr = s.storeCorr := rfl
@[simp] theorem raise_echo (c i : Nat) (pl : Bytes) : (raise s c i pl).echo = s.echo := rfl
@[simp] theorem raise_kiln (c i : Nat) (pl : Bytes) : (raise s c i pl).kiln = s.kiln := rfl
@[simp] theorem raise_cans (c i : Nat) (pl : Bytes) : (raise s c i pl).cans = s.cans := rfl
@[simp] theorem raise_dmp (c i : Nat) (pl : Bytes) : (raise s c i pl).dmp = s.dmp := rfl
@[simp] theorem raise_pair (c i : Nat) (pl : Bytes) : (raise s c i pl).pair = s.pair := rfl
@[simp] theorem raise_freeCtr (c i : Nat) (pl : Bytes) : (raise s c i pl).freeCtr = s.freeCtr := rfl
@[simp] theorem raise_pending (c i : Nat) (pl : Bytes) : (raise s c i pl).pending = s.pending := rfl

/-! ### sendItem -/

@[simp] theorem sendItem_boot (b : ItemBody) : (sendItem s b).boot = s.boot := rfl
@[simp] theorem sendItem_fw (b : ItemBody) : (sendItem s b).fw = s.fw := rfl
@[simp] theorem sendItem_ddr (b : ItemBody) : (sendItem s b).ddr = s.ddr := rfl
@[simp] theorem sendItem_clk (b : ItemBody) : (sendItem s b).clk = s.clk := rfl
@[simp] theorem sendItem_ptp (b : ItemBody) : (sendItem s b).ptp = s.ptp := rfl
@[simp] theorem sendItem_par (b : ItemBody) : (sendItem s b).par = s.par := rfl
@[simp] theorem sendItem_mbs (b : ItemBody) : (sendItem s b).mbs = s.mbs := rfl
@[simp] theorem sendItem_log (b : ItemBody) : (sendItem s b).log = s.log := rfl
@[simp] theorem sendItem_eth (b : ItemBody) : (sendItem s b).eth = s.eth := rfl
@[simp] theorem sendItem_qspi (b : ItemBody) : (sendItem s b).qspi = s.qspi := rfl
@[simp] theorem sendItem_hed (b : ItemBody) : (sendItem s b).hed = s.hed := rfl
@[simp] theorem sendItem_acc (b : ItemBody) : (sendItem s b).acc = s.acc := rfl
@[simp] theorem sendItem_net (b : ItemBody) : (sendItem s b).net = s.net := rfl
@[simp] theorem sendItem_brs (b : ItemBody) : (sendItem s b).brs = s.brs := rfl
@[simp] theorem sendItem_brCnt (b : ItemBody) : (sendItem s b).brCnt = s.brCnt := rfl
@[simp] theorem sendItem_nodes (b : ItemBody) : (sendItem s b).nodes = s.nodes := rfl
@[simp] theorem sendItem_ndCnt (b : ItemBody) : (sendItem s b).ndCnt = s.ndCnt := rfl
@[simp] theorem sendItem_warp (b : ItemBody) : (sendItem s b).warp = s.warp := rfl
@[simp] theorem sendItem_lanes (b : ItemBody) : (sendItem s b).lanes = s.lanes := rfl
@[simp] theorem sendItem_lnCnt (b : ItemBody) : (sendItem s b).lnCnt = s.lnCnt := rfl
@[simp] theorem sendItem_axes (b : ItemBody) : (sendItem s b).axes = s.axes := rfl
@[simp] theorem sendItem_grps (b : ItemBody) : (sendItem s b).grps = s.grps := rfl
@[simp] theorem sendItem_storeCorr (b : ItemBody) : (sendItem s b).storeCorr = s.storeCorr := rfl
@[simp] theorem sendItem_echo (b : ItemBody) : (sendItem s b).echo = s.echo := rfl
@[simp] theorem sendItem_kiln (b : ItemBody) : (sendItem s b).kiln = s.kiln := rfl
@[simp] theorem sendItem_cans (b : ItemBody) : (sendItem s b).cans = s.cans := rfl
@[simp] theorem sendItem_dmp (b : ItemBody) : (sendItem s b).dmp = s.dmp := rfl
@[simp] theorem sendItem_freeCtr (b : ItemBody) : (sendItem s b).freeCtr = s.freeCtr := rfl
@[simp] theorem sendItem_pending (b : ItemBody) : (sendItem s b).pending = s.pending := rfl

/-! ### sendWait -/

@[simp] theorem sendWait_boot (b : ItemBody) (bolt : Bool) : (sendWait s b bolt).1.boot = s.boot := rfl
@[simp] theorem sendWait_fw (b : ItemBody) (bolt : Bool) : (sendWait s b bolt).1.fw = s.fw := rfl
@[simp] theorem sendWait_ddr (b : ItemBody) (bolt : Bool) : (sendWait s b bolt).1.ddr = s.ddr := rfl
@[simp] theorem sendWait_clk (b : ItemBody) (bolt : Bool) : (sendWait s b bolt).1.clk = s.clk := rfl
@[simp] theorem sendWait_ptp (b : ItemBody) (bolt : Bool) : (sendWait s b bolt).1.ptp = s.ptp := rfl
@[simp] theorem sendWait_par (b : ItemBody) (bolt : Bool) : (sendWait s b bolt).1.par = s.par := rfl
@[simp] theorem sendWait_mbs (b : ItemBody) (bolt : Bool) : (sendWait s b bolt).1.mbs = s.mbs := rfl
@[simp] theorem sendWait_log (b : ItemBody) (bolt : Bool) : (sendWait s b bolt).1.log = s.log := rfl
@[simp] theorem sendWait_eth (b : ItemBody) (bolt : Bool) : (sendWait s b bolt).1.eth = s.eth := rfl
@[simp] theorem sendWait_qspi (b : ItemBody) (bolt : Bool) : (sendWait s b bolt).1.qspi = s.qspi := rfl
@[simp] theorem sendWait_hed (b : ItemBody) (bolt : Bool) : (sendWait s b bolt).1.hed = s.hed := rfl
@[simp] theorem sendWait_acc (b : ItemBody) (bolt : Bool) : (sendWait s b bolt).1.acc = s.acc := rfl
@[simp] theorem sendWait_net (b : ItemBody) (bolt : Bool) : (sendWait s b bolt).1.net = s.net := rfl
@[simp] theorem sendWait_brs (b : ItemBody) (bolt : Bool) : (sendWait s b bolt).1.brs = s.brs := rfl
@[simp] theorem sendWait_brCnt (b : ItemBody) (bolt : Bool) : (sendWait s b bolt).1.brCnt = s.brCnt := rfl
@[simp] theorem sendWait_nodes (b : ItemBody) (bolt : Bool) : (sendWait s b bolt).1.nodes = s.nodes := rfl
@[simp] theorem sendWait_ndCnt (b : ItemBody) (bolt : Bool) : (sendWait s b bolt).1.ndCnt = s.ndCnt := rfl
@[simp] theorem sendWait_warp (b : ItemBody) (bolt : Bool) : (sendWait s b bolt).1.warp = s.warp := rfl
@[simp] theorem sendWait_lanes (b : ItemBody) (bolt : Bool) : (sendWait s b bolt).1.lanes = s.lanes := rfl
@[simp] theorem sendWait_lnCnt (b : ItemBody) (bolt : Bool) : (sendWait s b bolt).1.lnCnt = s.lnCnt := rfl
@[simp] theorem sendWait_axes (b : ItemBody) (bolt : Bool) : (sendWait s b bolt).1.axes = s.axes := rfl
@[simp] theorem sendWait_grps (b : ItemBody) (bolt : Bool) : (sendWait s b bolt).1.grps = s.grps := rfl
@[simp] theorem sendWait_storeCorr (b : ItemBody) (bolt : Bool) : (sendWait s b bolt).1.storeCorr = s.storeCorr := rfl
@[simp] theorem sendWait_echo (b : ItemBody) (bolt : Bool) : (sendWait s b bolt).1.echo = s.echo := rfl
@[simp] theorem sendWait_kiln (b : ItemBody) (bolt : Bool) : (sendWait s b bolt).1.kiln = s.kiln := rfl
@[simp] theorem sendWait_cans (b : ItemBody) (bolt : Bool) : (sendWait s b bolt).1.cans = s.cans := rfl
@[simp] theorem sendWait_dmp (b : ItemBody) (bolt : Bool) : (sendWait s b bolt).1.dmp = s.dmp := rfl
@[simp] theorem sendWait_freeCtr (b : ItemBody) (bolt : Bool) : (sendWait s b bolt).1.freeCtr = s.freeCtr := rfl
@[simp] theorem sendWait_pending (b : ItemBody) (bolt : Bool) : (sendWait s b bolt).1.pending = s.pending := rfl
/-- Outside SYNC nothing waits for an acknowledgement. -/
theorem sendWait_out {s : State} (b : ItemBody) (bolt : Bool) (h : inSync s = false) : (sendWait s b bolt).2 = none := by simp [sendWait, h]
@[simp] theorem itemDone_none : itemDone s none = true := rfl

/-! ### A record after its update -/

@[simp] theorem mbOf_modMb (m : Nat) (f : Mb → Mb) : mbOf (modMb s m f) m = f (mbOf s m) := tabGet_tabMod_same ..
theorem mbOf_modMb_other {m j : Nat} (f : Mb → Mb) (h : j ≠ m) : mbOf (modMb s m f) j = mbOf s j := tabGet_tabMod_other _ _ f h
@[simp] theorem brOf_modBr (b : Nat) (f : Branch → Branch) : brOf (modBr s b f) b = f (brOf s b) := tabGet_tabMod_same ..
theorem brOf_modBr_other {b j : Nat} (f : Branch → Branch) (h : j ≠ b) : brOf (modBr s b f) j = brOf s j := tabGet_tabMod_other _ _ f h
@[simp] theorem brcOf_modBrc (b : Nat) (f : BranchCnt → BranchCnt) : brcOf (modBrc s b f) b = f (brcOf s b) := tabGet_tabMod_same ..
theorem brcOf_modBrc_other {b j : Nat} (f : BranchCnt → BranchCnt) (h : j ≠ b) : brcOf (modBrc s b f) j = brcOf s j := tabGet_tabMod_other _ _ f h
@[simp] theorem ndOf_modNd (n : Nat) (f : Node → Node) : ndOf (modNd s n f) n = f (ndOf s n) := tabGet_tabMod_same ..
theorem ndOf_modNd_other {n j : Nat} (f : Node → Node) (h : j ≠ n) : ndOf (modNd s n f) j = ndOf s j := tabGet_tabMod_other _ _ f h
@[simp] theorem ndcOf_modNdc (n : Nat) (f : NodeCnt → NodeCnt) : ndcOf (modNdc s n f) n = f (ndcOf s n) := tabGet_tabMod_same ..
theorem ndcOf_modNdc_other {n j : Nat} (f : NodeCnt → NodeCnt) (h : j ≠ n) : ndcOf (modNdc s n f) j = ndcOf s j := tabGet_tabMod_other _ _ f h
@[simp] theorem laneOf_modLane (l : Nat) (f : Lane → Lane) : laneOf (modLane s l f) l = f (laneOf s l) := tabGet_tabMod_same ..
theorem laneOf_modLane_other {l j : Nat} (f : Lane → Lane) (h : j ≠ l) : laneOf (modLane s l f) j = laneOf s j := tabGet_tabMod_other _ _ f h
@[simp] theorem lncOf_modLnc (l : Nat) (f : LaneCnt → LaneCnt) : lncOf (modLnc s l f) l = f (lncOf s l) := tabGet_tabMod_same ..
theorem lncOf_modLnc_other {l j : Nat} (f : LaneCnt → LaneCnt) (h : j ≠ l) : lncOf (modLnc s l f) j = lncOf s j := tabGet_tabMod_other _ _ f h
@[simp] theorem axOf_modAx (a : Nat) (f : Axis → Axis) : axOf (modAx s a f) a = f (axOf s a) := tabGet_tabMod_same ..
theorem axOf_modAx_other {a j : Nat} (f : Axis → Axis) (h : j ≠ a) : axOf (modAx s a f) j = axOf s j := tabGet_tabMod_other _ _ f h
@[simp] theorem grpOf_modGrp (g : Nat) (f : Grp → Grp) : grpOf (modGrp s g f) g = f (grpOf s g) := tabGet_tabMod_same ..
theorem grpOf_modGrp_other {g j : Nat} (f : Grp → Grp) (h : j ≠ g) : grpOf (modGrp s g f) j = grpOf s j := tabGet_tabMod_other _ _ f h
@[simp] theorem ecOf_modEc (e : Nat) (f : Echo → Echo) : ecOf (modEc s e f) e = f (ecOf s e) := tabGet_tabMod_same ..
theorem ecOf_modEc_other {e j : Nat} (f : Echo → Echo) (h : j ≠ e) : ecOf (modEc s e f) j = ecOf s j := tabGet_tabMod_other _ _ f h
@[simp] theorem unOf_modUn (u : Nat) (f : AcqU → AcqU) : unOf (modUn s u f) u = f (unOf s u) := tabGet_tabMod_same ..
theorem unOf_modUn_other {u j : Nat} (f : AcqU → AcqU) (h : j ≠ u) : unOf (modUn s u f) j = unOf s j := tabGet_tabMod_other _ _ f h
@[simp] theorem hiOf_modHi (a : Nat) (f : Hist → Hist) : hiOf (modHi s a f) a = f (hiOf s a) := tabGet_tabMod_same ..
theorem hiOf_modHi_other {a j : Nat} (f : Hist → Hist) (h : j ≠ a) : hiOf (modHi s a f) j = hiOf s j := tabGet_tabMod_other _ _ f h
@[simp] theorem canOf_modCan (c : Nat) (f : Can → Can) : canOf (modCan s c f) c = f (canOf s c) := tabGet_tabMod_same ..
theorem canOf_modCan_other {c j : Nat} (f : Can → Can) (h : j ≠ c) : canOf (modCan s c f) j = canOf s j := tabGet_tabMod_other _ _ f h

/-! ### Outcomes -/

theorem finish_next {t u : State} (h : finish s t = .next u) : u.pending = s.pending ∧ u.ddr = s.ddr ∧ u.dmp = t.dmp := by
  cases h; exact ⟨rfl, rfl, rfl⟩
theorem finishD_next {t u : State} (h : finishD s t = .next u) : u.pending = s.pending ∧ u.ddr = s.ddr ∧ u.dmp = s.dmp := by
  cases h; exact ⟨rfl, rfl, rfl⟩
theorem finishV_next {t u : State} (h : finishV s t = .next u) : u.pending = s.pending ∧ u.ddr = s.ddr ∧ u.dmp = islandKeep s.dmp t.dmp := by
  cases h; exact ⟨rfl, rfl, rfl⟩
theorem finishM_next {t u : State} (h : finishM s t = .next u) : u.pending = s.pending ∧ u.ddr = t.ddr ∧ u.dmp = s.dmp := by
  cases h; exact ⟨rfl, rfl, rfl⟩
theorem finishAll_next {t u : State} (h : finishAll s t = .next u) : u.pending = s.pending ∧ u.ddr = t.ddr ∧ u.dmp = t.dmp := by
  cases h; exact ⟨rfl, rfl, rfl⟩

end Sys2Proof.Machine
end

