-- ==== Sys2Proof/Laws/Mailbox.lean ====
section
/-! SUPPORT. The way of a command from its entry to its completion: what acceptance, execution and the completion change, said once. -/
namespace Sys2Proof.Machine

/-! ### Nothing outside the mailboxes and their carriers changes -/

theorem quiet.refl (s : State) : quiet s s := rfl
theorem quiet.trans {s t u : State} (h : quiet s t) (k : quiet t u) : quiet s u := by
  unfold quiet at *
  rw [k, h]

theorem quiet_modMb (s : State) (m : Nat) (f : Mb → Mb) : quiet s (modMb s m f) := rfl
theorem quiet_modCan (s : State) (c : Nat) (f : Can → Can) : quiet s (modCan s c f) := rfl
theorem quiet_raise (s : State) (c i : Nat) (pl : Bytes) : quiet s (raise s c i pl) := rfl
theorem quiet_sendItem (s : State) (b : ItemBody) : quiet s (sendItem s b) := rfl
theorem quiet_sendWait (s : State) (b : ItemBody) (bolt : Bool) : quiet s (sendWait s b bolt).1 := rfl
theorem quiet_noteTurn (s : State) (m op : Nat) : quiet s (noteTurn s m op) := rfl

theorem quiet_canSendFw (s : State) (c : Nat) (f : CanFrame) : quiet s (canSendFw s c f) := rfl
theorem quiet_tpSend (s : State) (c pf peer : Nat) (d : Bytes) : quiet s (tpSend s c pf peer d) := rfl

theorem quiet_gwStart (s : State) (c peer : Nat) (msg : Bytes) : quiet s (gwStart s c peer msg) := by
  unfold gwStart
  simp only []
  split <;> rfl

theorem quiet_gwPump (c n : Nat) (s : State) : quiet s (gwPump s c n) := by
  induction n generalizing s with
  | zero => exact quiet.refl s
  | succ n ih =>
    simp only [gwPump]
    split
    · split
      · exact ((quiet_modCan s c _).trans (quiet_gwStart _ c _ _)).trans (ih _)
      · exact quiet.refl s
    · exact quiet.refl s

theorem quiet_gwSend (s : State) (c : Nat) (msg : Bytes) : quiet s (gwSend s c msg) :=
  (quiet_modCan s c _).trans (quiet_gwPump c 4 _)

theorem quiet_ringPut (s : State) (m : Nat) (x : RingEntry) : quiet s (ringPut s m x) := by
  unfold ringPut
  split
  · exact quiet.refl s
  · split
    · split <;> rfl
    · split
      · exact quiet_gwSend s _ _
      · simp only []
        split <;> rfl

theorem quiet_evtPut (s : State) (m : Nat) : quiet s (evtPut s m) := by
  unfold evtPut
  split
  · exact quiet.refl s
  · split
    · exact quiet.refl s
    · exact (quiet_modMb s m _).trans (quiet_ringPut _ m _)

theorem quiet_evtFlush (m n : Nat) (s : State) : quiet s (evtFlush m n s) := by
  induction n generalizing s with
  | zero => exact quiet.refl s
  | succ n ih => exact (quiet_evtPut s m).trans (ih _)

theorem quiet_evtsFirst (s : State) (m : Nat) : quiet s (evtsFirst s m) := by
  unfold evtsFirst
  split
  · exact quiet_evtFlush m _ s
  · exact quiet.refl s

theorem quiet_cplPut (s : State) (m : Nat) (c : Cpl) : quiet s (cplPut s m c) := by
  unfold cplPut
  split
  · exact (quiet_modMb s m _).trans (quiet_ringPut _ m _)
  · exact quiet_modMb s m _

theorem quiet_writeCpl (s : State) (m : Nat) (c : Cpl) : quiet s (writeCpl s m c) :=
  (quiet_evtsFirst s m).trans (quiet_cplPut _ m c)

theorem quiet_notAcc (s : State) (e : CmdEntry) (op st : Nat) (pl : Bytes) : quiet s (notAcc s e op st pl) :=
  (quiet_modMb s _ _).trans (quiet_writeCpl _ _ _)

theorem quiet_cplItem (s : State) (m : Nat) (c : Cpl) : quiet s (cplItem s m c) := by
  unfold cplItem
  split
  · exact quiet_sendItem s _
  · exact quiet.refl s

theorem quiet_produce (s : State) (m : Nat) (f : Flight) (st : Nat) (pl : Bytes) : quiet s (produce s m f st pl) :=
  ((quiet_modMb s m _).trans (quiet_cplItem _ m _)).trans (quiet_writeCpl _ m _)

theorem quiet_settle (m : Nat) (f : Flight) (n : BitVec 32) (r : State × CmdRes) : quiet r.1 (settle m f n r) := by
  unfold settle
  split
  · exact quiet_produce _ _ _ _ _
  · next w _ =>
    refine (quiet_modMb r.1 m (flightWait f.entry w)).trans ?_
    unfold when
    simp only []
    split
    · exact quiet_sendItem _ _
    · exact quiet.refl _

theorem quiet_takeIn (s : State) (e : CmdEntry) (op : Nat) : quiet s (takeIn s e op) :=
  (quiet_modMb s _ _).trans (quiet_sendItem _ _)

theorem quiet_repeatAns (s : State) (e : CmdEntry) (op : Nat) : quiet s (repeatAns s e op) := by
  unfold repeatAns
  simp only []
  split
  · exact (quiet_modMb s _ _).trans (quiet_writeCpl _ _ _)
  · exact quiet_notAcc _ _ _ _ _

theorem quiet_accept (s : State) (e : CmdEntry) (op : Nat) : quiet s (accept s e op) := by
  unfold accept
  simp only []
  split_ifs
  · exact (quiet_modMb s _ _).trans (quiet_notAcc _ _ _ _ _)
  · exact quiet_notAcc _ _ _ _ _
  · exact quiet_notAcc _ _ _ _ _
  · exact quiet_notAcc _ _ _ _ _
  · exact quiet_takeIn _ _ _
  · exact quiet.refl s
  · exact quiet_repeatAns _ _ _
  · exact quiet_notAcc _ _ _ _ _
  · exact quiet_notAcc _ _ _ _ _

theorem quiet_taken (s : State) (e : CmdEntry) (op : Nat) : quiet s (taken s e op) :=
  (quiet_accept s e op).trans (quiet_noteTurn _ _ _)

/-! ### Completions stand in the journal -/

/-- A part of a mailbox that writing entries to its ring leaves alone: everything but the ring, the events still to be delivered, the
flights and the completions that wait. -/
def ringFree {β : Type} (p : Mb → β) : Prop :=
  ∀ (x : Mb) (r : List RingEntry) (ev : List Ev) (q : BitVec 16) (fl : List Flight) (w : List Cpl) (wt : Nat),
    p { x with ring := r, events := ev, eseq := q, flights := fl, waiting := w, waitT := wt } = p x

variable {β : Type} {p : Mb → β}

theorem mb_modMb (s : State) (m k : Nat) (f : Mb → Mb) (h : ∀ x, p (f x) = p x) : p (mbOf (modMb s m f) k) = p (mbOf s k) := by
  by_cases hk : k = m
  · subst hk; simp [h]
  · rw [mbOf_modMb_other s f hk]

theorem mbs_gwPump (c n : Nat) (s : State) : (gwPump s c n).mbs = s.mbs := by
  induction n generalizing s with
  | zero => rfl
  | succ n ih =>
    simp only [gwPump]
    split
    · split
      · rw [ih]; unfold gwStart; simp only []; split <;> rfl
      · rfl
    · rfl

theorem mb_ringPut (hp : ringFree p) (s : State) (m k : Nat) (x : RingEntry) : p (mbOf (ringPut s m x) k) = p (mbOf s k) := by
  unfold ringPut
  split
  · rfl
  · split
    · split <;> rfl
    · split
      · unfold gwSend mbOf; rw [mbs_gwPump]; rfl
      · simp only []
        split
        · exact mb_modMb s m k (fun mb => { mb with ring := mb.ring ++ [x] }) (fun y => hp y _ _ _ _ _ _)
        · exact mb_modMb s m k (fun mb => { mb with ring := mb.ring ++ [x] }) (fun y => hp y _ _ _ _ _ _)

theorem mb_evtPut (hp : ringFree p) (s : State) (m k : Nat) : p (mbOf (evtPut s m) k) = p (mbOf s k) := by
  unfold evtPut
  split
  · rfl
  · split
    · rfl
    · rw [mb_ringPut hp]; exact mb_modMb s m k _ (fun y => hp y _ _ _ _ _ _)

theorem mb_evtFlush (hp : ringFree p) (m n k : Nat) (s : State) : p (mbOf (evtFlush m n s) k) = p (mbOf s k) := by
  induction n generalizing s with
  | zero => rfl
  | succ n ih => rw [evtFlush, ih, mb_evtPut hp]

theorem mb_retire (hp : ringFree p) (c : Cpl) (x : Mb) : p (retire c x) = p x := by
  unfold retire
  split
  · rfl
  · exact hp x _ _ _ _ _ _

theorem mb_evtsFirst (hp : ringFree p) (s : State) (m k : Nat) : p (mbOf (evtsFirst s m) k) = p (mbOf s k) := by
  unfold evtsFirst
  split
  · exact mb_evtFlush hp m _ k s
  · rfl

theorem mb_cplPut (hp : ringFree p) (s : State) (m k : Nat) (c : Cpl) : p (mbOf (cplPut s m c) k) = p (mbOf s k) := by
  unfold cplPut
  split
  · rw [mb_ringPut hp, mb_modMb _ m k _ (mb_retire hp c)]
  · exact mb_modMb s m k _ (fun y => hp y _ _ _ _ _ _)

theorem mb_writeCpl (hp : ringFree p) (s : State) (m k : Nat) (c : Cpl) : p (mbOf (writeCpl s m c) k) = p (mbOf s k) := by
  rw [writeCpl, mb_cplPut hp, mb_evtsFirst hp]

theorem ringFree_journal : ringFree (fun x => x.journal) := fun _ _ _ _ _ _ _ => rfl

/-! ### What a completion does to the CAN channels -/

theorem canGrows.refl (x : Can) : canGrows x x := ⟨List.prefix_rfl, rfl⟩
theorem canGrows.trans {x y z : Can} (h : canGrows x y) (k : canGrows y z) : canGrows x z :=
  ⟨h.1.trans k.1, by rw [k.2, h.2]⟩

theorem canGrows_fwEnter (now : Nat) (f : CanFrame) (brs : Bool) (x : Can) : canGrows x (canFwEnter now f brs x) := by
  unfold canFwEnter
  simp only []
  split
  · exact ⟨List.prefix_append _ _, rfl⟩
  · exact ⟨List.prefix_rfl, rfl⟩

/-- Every channel grows. -/
def cansGrow (s t : State) : Prop := ∀ k, canGrows (canOf s k) (canOf t k)

theorem cansGrow.refl (s : State) : cansGrow s s := fun _ => canGrows.refl _
theorem cansGrow.trans {s t u : State} (h : cansGrow s t) (k : cansGrow t u) : cansGrow s u := fun i => (h i).trans (k i)
theorem cansGrow_of_eq {s t : State} (h : t.cans = s.cans) : cansGrow s t := fun k => by
  unfold canOf; rw [h]; exact canGrows.refl _

theorem cansGrow_modCan (s : State) (c : Nat) (f : Can → Can) (hf : ∀ x, canGrows x (f x)) : cansGrow s (modCan s c f) := fun k => by
  by_cases hk : k = c
  · subst hk; rw [canOf_modCan]; exact hf _
  · rw [canOf_modCan_other s f hk]; exact canGrows.refl _

theorem cansGrow_gwStart (s : State) (c peer : Nat) (msg : Bytes) : cansGrow s (gwStart s c peer msg) := by
  unfold gwStart
  simp only []
  split
  · exact cansGrow_modCan s c _ (canGrows_fwEnter _ _ _)
  · exact (cansGrow_modCan s c _ (canGrows_fwEnter _ _ _)).trans (cansGrow_modCan _ c _ fun _ => ⟨List.prefix_rfl, rfl⟩)

theorem cansGrow_gwPump (c n : Nat) (s : State) : cansGrow s (gwPump s c n) := by
  induction n generalizing s with
  | zero => exact cansGrow.refl s
  | succ n ih =>
    simp only [gwPump]
    split
    · split
      · refine cansGrow.trans (cansGrow.trans ?_ (cansGrow_gwStart _ c _ _)) (ih _)
        exact cansGrow_modCan s c _ fun _ => ⟨List.prefix_rfl, rfl⟩
      · exact cansGrow.refl s
    · exact cansGrow.refl s

theorem cansGrow_ringPut (s : State) (m : Nat) (x : RingEntry) : cansGrow s (ringPut s m x) := by
  unfold ringPut
  split
  · exact cansGrow.refl s
  · split
    · split <;> exact cansGrow_of_eq rfl
    · split
      · unfold gwSend
        refine cansGrow.trans ?_ (cansGrow_gwPump _ _ _)
        exact cansGrow_modCan s _ _ fun _ => ⟨List.prefix_rfl, rfl⟩
      · simp only []
        split <;> exact cansGrow_of_eq rfl

theorem cansGrow_evtPut (s : State) (m : Nat) : cansGrow s (evtPut s m) := by
  unfold evtPut
  split
  · exact cansGrow.refl s
  · split
    · exact cansGrow.refl s
    · refine cansGrow.trans ?_ (cansGrow_ringPut _ m _)
      exact cansGrow_of_eq rfl

theorem cansGrow_evtFlush (m n : Nat) (s : State) : cansGrow s (evtFlush m n s) := by
  induction n generalizing s with
  | zero => exact cansGrow.refl s
  | succ n ih => exact (cansGrow_evtPut s m).trans (ih _)

theorem cansGrow_writeCpl (s : State) (m : Nat) (c : Cpl) : cansGrow s (writeCpl s m c) := by
  have h : cansGrow s (evtsFirst s m) := by
    unfold evtsFirst
    split
    · exact cansGrow_evtFlush m _ s
    · exact cansGrow.refl s
  refine h.trans ?_
  show cansGrow _ (cplPut _ m c)
  unfold cplPut
  split
  · refine cansGrow.trans ?_ (cansGrow_ringPut _ m _)
    exact cansGrow_of_eq rfl
  · exact cansGrow_of_eq rfl

theorem cansGrow_produce (s : State) (m : Nat) (f : Flight) (st : Nat) (pl : Bytes) : cansGrow s (produce s m f st pl) := by
  refine (cansGrow_of_eq (t := cplItem (modMb s m (cplNote (cplMake s f st pl))) m (cplMake s f st pl)) ?_).trans (cansGrow_writeCpl _ m _)
  unfold cplItem
  split <;> rfl

/-- The rings of a master that is no gateway are not on a CAN channel. -/
theorem cans_produce (s : State) (m : Nat) (f : Flight) (st : Nat) (pl : Bytes) (hm : gwMaster m = false) : (produce s m f st pl).cans = s.cans := by
  have hr : ∀ (u : State) (x : RingEntry), (ringPut u m x).cans = u.cans := by
    intro u x
    unfold ringPut
    rw [hm]
    split
    · rfl
    · split
      · split <;> rfl
      · simp only [Bool.false_eq_true, if_false]
        split <;> rfl
  have he : ∀ (u : State), (evtPut u m).cans = u.cans := by
    intro u
    unfold evtPut
    split
    · rfl
    · split
      · rfl
      · rw [hr]; rfl
  have hf : ∀ (n : Nat) (u : State), (evtFlush m n u).cans = u.cans := by
    intro n
    induction n with
    | zero => exact fun _ => rfl
    | succ n ih => exact fun u => by rw [evtFlush, ih, he]
  have hw : ∀ (u : State) (c : Cpl), (writeCpl u m c).cans = u.cans := by
    intro u c
    unfold writeCpl cplPut
    have h1 : (evtsFirst u m).cans = u.cans := by
      unfold evtsFirst
      split
      · exact hf _ u
      · rfl
    split
    · rw [hr]; exact h1
    · exact h1
  show (writeCpl _ m _).cans = _
  rw [hw]
  unfold cplItem
  split <;> rfl

theorem mbs_cplItem (s : State) (m : Nat) (c : Cpl) : (cplItem s m c).mbs = s.mbs := by
  unfold cplItem; split <;> rfl

/-- A completion leaves the counters and the acceptance of every mailbox as they were. -/
theorem mb_produce (hp : ringFree p) (hj : ∀ x j, p { x with journal := j } = p x) (s : State) (m k : Nat) (f : Flight) (st : Nat) (pl : Bytes) :
    p (mbOf (produce s m f st pl) k) = p (mbOf s k) := by
  show p (mbOf (writeCpl _ m _) k) = _
  rw [mb_writeCpl hp]
  unfold mbOf; rw [mbs_cplItem]
  refine mb_modMb s m k _ (fun y => ?_)
  have h1 := hp y y.ring y.events y.eseq (cplNote (cplMake s f st pl) y).flights y.waiting y.waitT
  rw [← h1]
  exact hj { y with flights := (cplNote (cplMake s f st pl) y).flights } _

/-- A completion that is produced is the latest in its master's journal. -/
theorem journal_produce (s : State) (m : Nat) (f : Flight) (st : Nat) (pl : Bytes) :
    (mbOf (produce s m f st pl) m).journal.head? = some (cplMake s f st pl) := by
  have h : (mbOf (cplItem (modMb s m (cplNote (cplMake s f st pl))) m (cplMake s f st pl)) m).journal.head? = some (cplMake s f st pl) := by
    unfold mbOf; rw [mbs_cplItem]
    show (mbOf (modMb s m _) m).journal.head? = _
    rw [mbOf_modMb]; rfl
  show (mbOf (writeCpl _ m _) m).journal.head? = _
  rw [mb_writeCpl (p := fun x => x.journal) ringFree_journal]; exact h

/-! ### A command that is taken at once -/

theorem takesNow_entry {s : State} {e : CmdEntry} (h : takesNow s e = true) : entryTakes s e = true := by
  simp only [takesNow, Bool.and_eq_true] at h; exact h.1
theorem takesNow_active {s : State} {e : CmdEntry} (h : takesNow s e = true) : isStandby s = false := by
  simp only [takesNow, Bool.and_eq_true, Bool.not_eq_true'] at h; exact h.2

theorem entryTakes_flights {s : State} {e : CmdEntry} (h : entryTakes s e = true) (m : Nat) (hm : m < 12) : (mbOf s m).flights = [] := by
  simp only [entryTakes, Bool.and_eq_true, heddleFree, List.all_eq_true, List.mem_range] at h
  exact List.isEmpty_iff.mp (h.2 m hm)
theorem takesNow_flights {s : State} {e : CmdEntry} (h : takesNow s e = true) (m : Nat) (hm : m < 12) : (mbOf s m).flights = [] :=
  entryTakes_flights (takesNow_entry h) m hm

/-- The entry of a command that is taken at once is accepted. -/
theorem accept_entryTakes {s : State} {e : CmdEntry} (op : Nat) (h : entryTakes s e = true) : accept s e op = takeIn s e op := by
  have hf := entryTakes_flights h e.master e.master.isLt
  simp only [entryTakes, Bool.and_eq_true, decide_eq_true_eq, beq_iff_eq] at h
  obtain ⟨⟨⟨⟨⟨-, h1⟩, h2⟩, h3⟩, h4⟩, -⟩ := h
  simp only [accept, hf, h2, h3]
  rw [if_neg (by omega), if_pos (by simp), if_neg (by simp), if_neg (by simp; omega), if_neg (by simp)]

theorem mbOf_takeIn (s : State) (e : CmdEntry) (op k : Nat) :
    mbOf (takeIn s e op) k =
      mbOf (modMb s e.master (fun b => { b with sNext := b.sNext + 1, flights := b.flights ++ [{ entry := e, opcode := op, wait := none }] })) k := rfl

/-- The mailbox of the master while a command that was taken at once executes: one command in flight. -/
theorem taken_flights {s : State} {e : CmdEntry} (op : Nat) (h : entryTakes s e = true) :
    (mbOf (taken s e op) e.master).flights = [{ entry := e, opcode := op, wait := none }] := by
  have hf := entryTakes_flights h e.master e.master.isLt
  show (mbOf (accept s e op) e.master).flights = _
  rw [accept_entryTakes op h, mbOf_takeIn]
  simp [hf]

theorem taken_others {s : State} {e : CmdEntry} (op : Nat) (h : entryTakes s e = true) {m : Nat} (hm : m ≠ e.master) :
    mbOf (accept s e op) m = mbOf s m := by
  rw [accept_entryTakes op h, mbOf_takeIn]
  exact mbOf_modMb_other s _ hm

theorem candIn_single (s : State) (b : Bool) (e : CmdEntry) (op : Nat) :
    candIn s b [] [{ entry := e, opcode := op, wait := none }] =
      if opMotion op = b then some { entry := e, opcode := op, wait := none } else none := by
  have hm : mayStart s [] { entry := e, opcode := op, wait := none } = true := by simp [mayStart]
  simp [candIn, hm]

theorem findSome_one {β : Type} (f : Nat → Option β) (m : Nat) (x : β) (hf : f m = some x) (ho : ∀ k, k < 12 → k ≠ m → f k = none) (xs : List Nat)
    (hx : ∀ k ∈ xs, k < 12) (hm : m ∈ xs) : xs.findSome? f = some x := by
  induction xs with
  | nil => simp at hm
  | cons k ks ih =>
    by_cases h : k = m
    · subst h; simp [hf]
    · rw [List.findSome?_cons, ho k (hx k (by simp)) h]
      exact ih (fun j hj => hx j (List.mem_cons_of_mem _ hj)) ((List.mem_cons.mp hm).resolve_left (Ne.symm h))

/-- The turn of a class when one master has the only command in flight. -/
theorem turnOf_only (s : State) (b : Bool) (last m : Nat) (hm : m < 12) (e : CmdEntry) (op : Nat)
    (h1 : (mbOf s m).flights = [{ entry := e, opcode := op, wait := none }]) (h2 : ∀ k, k < 12 → k ≠ m → (mbOf s k).flights = []) :
    turnOf s b last = if opMotion op = b then some (m, { entry := e, opcode := op, wait := none }) else none := by
  have ho : ∀ k, k < 12 → k ≠ m → (candIn s b [] (mbOf s k).flights).map (fun f => (k, f)) = none := by
    intro k hk hkm; rw [h2 k hk hkm]; rfl
  have hx : ∀ k ∈ (List.range 12).map (fun i => (last + 1 + i) % 12), k < 12 := by
    intro k hk
    obtain ⟨i, -, rfl⟩ := List.mem_map.mp hk
    exact Nat.mod_lt _ (by omega)
  unfold turnOf
  by_cases h : opMotion op = b
  · rw [if_pos h]
    refine findSome_one _ m _ (by rw [h1, candIn_single, if_pos h]; rfl) ho _ hx ?_
    refine List.mem_map.mpr ⟨(m + 12 - (last + 1) % 12) % 12, List.mem_range.mpr (Nat.mod_lt _ (by omega)), ?_⟩
    omega
  · rw [if_neg h]
    refine List.findSome?_eq_none_iff.mpr fun k hk => ?_
    by_cases hkm : k = m
    · subst hkm; rw [h1, candIn_single, if_neg h]; rfl
    · exact ho k (hx k hk) hkm

/-- Where a listed command has the turn, no command of an unlisted opcode is served before it. -/
theorem unlistedRun_listed {s : State} {m : Nat} {f : Flight} (n : Nat) (h : heddlePick s = some (m, f)) (ho : opcodes.contains f.opcode = true) :
    unlistedRun n s = s := by
  cases n with
  | zero => rfl
  | succ n => simp only [unlistedRun, h, ho, if_true]

/-- A command that is taken at once executes where the part serves its opcode, and what it answers is settled; a standby that does not
serve it refuses it (R380). -/
theorem command_entryTakes {s : State} {e : CmdEntry} (op : Nat) (body : State → Nat → Bytes → State × CmdRes) (h : entryTakes s e = true)
    (hop : opcodes.contains op = true := by decide) :
    command s e op body =
      if isStandby s && !opStandby op then produce (taken s e op) e.master { entry := e, opcode := op, wait := none } (if op = 0x0801 then 0xA004 else 0x2006) []
      else settle e.master { entry := e, opcode := op, wait := none } (taken s e op).pair.iseqSent (body (taken s e op) e.master e.payload) := by
  have hr : s.boot.ready = true := by simp only [entryTakes, Bool.and_eq_true] at h; exact h.1.1.1.1.1
  have h1 : (mbOf (accept s e op) e.master).flights = [{ entry := e, opcode := op, wait := none }] := taken_flights op h
  have h2 : ∀ k, k < 12 → k ≠ e.master.val → (mbOf (accept s e op) k).flights = [] := fun k hk hke => by
    rw [taken_others op h hke]; exact entryTakes_flights h k hk
  have hp : heddlePick (accept s e op) = some (e.master.val, { entry := e, opcode := op, wait := none }) := by
    unfold heddlePick
    rw [turnOf_only _ true _ e.master e.master.isLt e op h1 h2, turnOf_only _ false _ e.master e.master.isLt e op h1 h2]
    cases hm : opMotion op <;> simp
  have hst : isStandby (noteTurn (accept s e op) e.master op) = isStandby s := by
    show decide ((noteTurn (accept s e op) e.master op).net.phase = .following) = decide (s.net.phase = .following)
    rw [show (noteTurn (accept s e op) e.master op).net = s.net by rw [accept_entryTakes op h]; rfl]
  unfold command
  rw [if_pos hr, unlistedRun_listed _ hp hop]
  simp only [hp, and_self, if_true, execFlight]
  rw [hst]
  rfl

/-- A command that is taken at once at a part that is no standby executes, and what it answers is settled. -/
theorem command_takesNow {s : State} {e : CmdEntry} (op : Nat) (body : State → Nat → Bytes → State × CmdRes) (h : takesNow s e = true)
    (hop : opcodes.contains op = true := by decide) :
    command s e op body =
      settle e.master { entry := e, opcode := op, wait := none } (taken s e op).pair.iseqSent (body (taken s e op) e.master e.payload) := by
  rw [command_entryTakes op body (takesNow_entry h) hop, takesNow_active h]
  rfl

/-- A command that is taken at once and served completes as it answers (`command_fin` for a standby too). -/
theorem command_fin_served {s u : State} {e : CmdEntry} (op : Nat) (body : State → Nat → Bytes → State × CmdRes) {st : Nat} {pl : Bytes} (h : entryTakes s e = true)
    (hv : (isStandby s && !opStandby op) = false) (hb : body (taken s e op) e.master e.payload = (u, .fin st pl))
    (hop : opcodes.contains op = true := by decide) :
    answered u (command s e op body) e op st pl ∧ quiet u (command s e op body) := by
  rw [command_entryTakes op body h hop, if_neg (by rw [hv]; exact Bool.false_ne_true), hb]
  exact ⟨journal_produce u e.master _ st pl, quiet_produce u _ _ st pl⟩

/-- A command that a standby does not serve completes with CMD_STANDBY, an arm command with ACQ_STANDBY, and has no effect (R380). -/
theorem command_standby {s : State} {e : CmdEntry} (op : Nat) (body : State → Nat → Bytes → State × CmdRes) (h : entryTakes s e = true)
    (hs : isStandby s = true) (ho : opStandby op = false) (hop : opcodes.contains op = true := by decide) :
    answered s (command s e op body) e op (if op = 0x0801 then 0xA004 else 0x2006) [] ∧ quiet s (command s e op body) := by
  rw [command_entryTakes op body h hop, if_pos (by rw [hs, ho]; rfl)]
  refine ⟨?_, (quiet_taken s e op).trans (quiet_produce _ _ _ _ _)⟩
  have hj := journal_produce (taken s e op) e.master { entry := e, opcode := op, wait := none } (if op = 0x0801 then 0xA004 else 0x2006) []
  unfold answered
  rw [hj]
  unfold cplMake cplOf
  rw [show ps (taken s e op) = ps s by rw [show taken s e op = _ from quiet_taken s e op]; rfl]

/-- A command that is taken at once and completes leaves its completion in the journal, and nothing outside the mailboxes changes
beyond what its own effect changes. -/
theorem command_fin {s u : State} {e : CmdEntry} (op : Nat) (body : State → Nat → Bytes → State × CmdRes) {st : Nat} {pl : Bytes} (h : takesNow s e = true)
    (hb : body (taken s e op) e.master e.payload = (u, .fin st pl))
    (hop : opcodes.contains op = true := by decide) :
    answered u (command s e op body) e op st pl ∧ quiet u (command s e op body) := by
  rw [command_takesNow op body h hop, hb]
  exact ⟨journal_produce u e.master _ st pl, quiet_produce u _ _ st pl⟩

/-- A command that is taken at once and waits stays in flight with what it waits for. -/
theorem command_wait {s u : State} {e : CmdEntry} (op : Nat) (body : State → Nat → Bytes → State × CmdRes) {w : Wait} (h : takesNow s e = true)
    (hb : body (taken s e op) e.master e.payload = (u, .wait w))
    (hu : (mbOf u e.master).flights = [{ entry := e, opcode := op, wait := none }])
    (hop : opcodes.contains op = true := by decide) :
    awaits (command s e op body) e w ∧ quiet u (command s e op body) := by
  rw [command_takesNow op body h hop, hb]
  refine ⟨?_, quiet_settle _ _ _ (u, .wait w)⟩
  have hm : mbOf (settle e.master { entry := e, opcode := op, wait := none } (taken s e op).pair.iseqSent (u, .wait w)) e.master =
      mbOf (modMb u e.master (flightWait e w)) e.master := by
    unfold settle when
    simp only []
    split <;> rfl
  unfold awaits
  rw [hm]
  simp [flightWait, hu]

/-! ### The state in which a command executes -/

theorem taken_eq {s : State} {e : CmdEntry} (op : Nat) (h : entryTakes s e = true) : taken s e op = noteTurn (takeIn s e op) e.master op := by
  rw [taken, accept_entryTakes op h]

/-- The Selvedge record while a command executes: at most an acceptance item more than before. -/
theorem taken_pair {s : State} {e : CmdEntry} (op : Nat) (h : entryTakes s e = true) :
    (taken s e op).pair = if mirroring s then itemAdd s (.acceptance e op none) false else s.pair := by
  rw [taken_eq op h]; rfl

theorem taken_log {s : State} {e : CmdEntry} (op : Nat) (h : entryTakes s e = true) : (taken s e op).log = s.log := by
  rw [taken_eq op h]; rfl
theorem taken_cans {s : State} {e : CmdEntry} (op : Nat) (h : entryTakes s e = true) : (taken s e op).cans = s.cans := by
  rw [taken_eq op h]; rfl
theorem taken_qspi {s : State} {e : CmdEntry} (op : Nat) (h : entryTakes s e = true) : (taken s e op).qspi = s.qspi := by
  rw [taken_eq op h]; rfl

@[simp] theorem hasRights_taken (s : State) (e : CmdEntry) (op m tgt k : Nat) : hasRights (taken s e op) m tgt k = hasRights s m tgt k := by
  rw [show taken s e op = _ from quiet_taken s e op]; rfl
@[simp] theorem ps_taken (s : State) (e : CmdEntry) (op : Nat) : ps (taken s e op) = ps s := by
  rw [show taken s e op = _ from quiet_taken s e op]; rfl

/-- A command that is taken at once and only reads: its completion, and nothing else. -/
theorem completes_read {i : Instr} {s : State} {e : CmdEntry} {op : Nat} {body : State → Nat → Bytes → State × CmdRes} {pl : Bytes}
    (hi : exec i s = finishD s (command s e op body) ∨ exec i s = finish s (command s e op body)) (h : takesNow s e = true)
    (hb : body (taken s e op) e.master e.payload = (taken s e op, .fin 0 pl))
    (hop : opcodes.contains op = true := by decide) : completes i s e op pl (quiet s) := by
  obtain ⟨h1, h2⟩ := command_fin op body h hb hop
  have h3 : quiet s (command s e op body) := (quiet_taken s e op).trans h2
  have h4 : answered s (command s e op body) e op 0 pl := by
    unfold answered cplOf at *; rw [ps_taken] at h1; exact h1
  rcases hi with hi | hi
  · exact ⟨_, hi.trans rfl, h4, by unfold quiet at h3 ⊢; rw [h3]⟩
  · exact ⟨_, hi.trans rfl, h4, by unfold quiet at h3 ⊢; rw [h3]⟩

/-- `completes_read` at a standby too, where the opcode is one it serves. -/
theorem completes_read_served {i : Instr} {s : State} {e : CmdEntry} {op : Nat} {body : State → Nat → Bytes → State × CmdRes} {pl : Bytes}
    (hi : exec i s = finishD s (command s e op body) ∨ exec i s = finish s (command s e op body)) (h : entryTakes s e = true)
    (hb : body (taken s e op) e.master e.payload = (taken s e op, .fin 0 pl))
    (ho : opStandby op = true := by decide) (hop : opcodes.contains op = true := by decide) : completes i s e op pl (quiet s) := by
  obtain ⟨h1, h2⟩ := command_fin_served op body h (by rw [ho]; cases isStandby s <;> rfl) hb hop
  have h3 : quiet s (command s e op body) := (quiet_taken s e op).trans h2
  have h4 : answered s (command s e op body) e op 0 pl := by
    unfold answered cplOf at *; rw [ps_taken] at h1; exact h1
  rcases hi with hi | hi
  · exact ⟨_, hi.trans rfl, h4, by unfold quiet at h3 ⊢; rw [h3]⟩
  · exact ⟨_, hi.trans rfl, h4, by unfold quiet at h3 ⊢; rw [h3]⟩

/-- What a completion of a master leaves of the state its command's effect has made: everything outside the mailboxes and their
carriers, every transport block, and the CAN channels but for the frames of a gateway's completion. -/
structure AfterCpl (u : State) (m : Nat) (t : State) : Prop where
  quiet : Sys2Proof.Machine.quiet u t
  blocks : ∀ k, hostBlock t k = hostBlock u k
  grow : cansGrow u t
  cans : gwMaster m = false → t.cans = u.cans

/-- A command that is taken at once, changes the state and completes: every field outside the mailboxes is as its effect leaves it. -/
theorem completes_effect {i : Instr} {s u : State} {e : CmdEntry} {op : Nat} {body : State → Nat → Bytes → State × CmdRes} {pl : Bytes} {P : State → Prop}
    (hi : exec i s = finishD s (command s e op body)) (h : takesNow s e = true)
    (hb : body (taken s e op) e.master e.payload = (u, .fin 0 pl)) (hp : ps u = ps s)
    (hP : ∀ t : State, AfterCpl { u with pending := s.pending, ddr := s.ddr, dmp := s.dmp } e.master t → P t)
    (hop : opcodes.contains op = true := by decide) : completes i s e op pl P := by
  have hc := command_takesNow op body h hop
  rw [hb] at hc
  obtain ⟨h1, h2⟩ := command_fin op body h hb hop
  refine ⟨_, hi.trans rfl, ?_, hP _ ⟨?_, ?_, ?_, ?_⟩⟩
  · unfold answered cplOf at *; rw [hp] at h1; exact h1
  · unfold Sys2Proof.Machine.quiet at h2 ⊢; rw [h2]
  · intro k
    have hq : hostBlock (command s e op body) k = hostBlock u k := by
      rw [hc]
      exact mb_produce (p := fun b => words [b.sessions + b.evtMerged * 65536, b.repeatCnt + b.notAccCnt * 65536, b.malformed, b.dropAuth])
        (fun _ _ _ _ _ _ _ => rfl) (fun _ _ => rfl) u e.master k _ 0 pl
    exact hq
  · intro k
    have hq := cansGrow_produce u e.master { entry := e, opcode := op, wait := none } 0 pl
    rw [show produce u e.master _ 0 pl = command s e op body from hc.symm] at hq
    exact hq k
  · intro hm
    have hq := cans_produce u e.master { entry := e, opcode := op, wait := none } 0 pl hm
    rw [show produce u e.master _ 0 pl = command s e op body from hc.symm] at hq
    exact hq

/-- A command that is taken at once, changes the state and waits: every field outside the mailboxes is as its effect leaves it. -/
theorem completesLater_effect {i : Instr} {s u : State} {e : CmdEntry} {op : Nat} {body : State → Nat → Bytes → State × CmdRes} {w : Wait} {P : State → Prop}
    (hi : exec i s = finishD s (command s e op body)) (h : takesNow s e = true)
    (hb : body (taken s e op) e.master e.payload = (u, .wait w)) (hu : (mbOf u e.master).flights = [{ entry := e, opcode := op, wait := none }])
    (hP : ∀ t : State, quiet { u with pending := s.pending, ddr := s.ddr, dmp := s.dmp } t → P t)
    (hop : opcodes.contains op = true := by decide) : completesLater i s e w P := by
  obtain ⟨h1, h2⟩ := command_wait op body h hb hu hop
  exact ⟨_, hi.trans rfl, h1, hP _ (by unfold quiet at h2 ⊢; rw [h2])⟩

end Sys2Proof.Machine
end

