-- ==== Sys2Proof/Laws/Axis.lean ====
section
/-! SUPPORT. What the shared operations of the axes, of the groups and of the safety island can change, said once for each: an
operation of one axis changes that axis, its history and what carries completions, events and items away. -/
namespace Sys2Proof.Machine

/-- Outside axes, groups, the Kiln and the carriers of completions, events and items nothing has changed. -/
def axFrame (s t : State) : Prop := quiet { s with axes := t.axes, grps := t.grps, kiln := t.kiln } t
/-- As `axFrame`, and of the axes only one may have changed. -/
def axLocal (s t : State) (a : Nat) : Prop := axFrame s t ∧ axesBut s t a

theorem axFrame.refl (s : State) : axFrame s s := rfl
theorem axFrame.trans {s t u : State} (h : axFrame s t) (k : axFrame t u) : axFrame s u := by
  unfold axFrame quiet at *
  rw [k, h]
theorem axesBut.trans {s t u : State} {a : Nat} (h : axesBut s t a) (k : axesBut t u a) : axesBut s u a := fun i hi => (k i hi).trans (h i hi)
theorem axLocal.refl (s : State) (a : Nat) : axLocal s s a := ⟨rfl, fun _ _ => rfl⟩
theorem axLocal.trans {s t u : State} {a : Nat} (h : axLocal s t a) (k : axLocal t u a) : axLocal s u a := ⟨h.1.trans k.1, h.2.trans k.2⟩
theorem axLocal_of_quiet {s t : State} (a : Nat) (h : quiet s t) : axLocal s t a := by
  have h' := h
  unfold quiet at h'
  refine ⟨?_, fun i _ => ?_⟩
  · unfold axFrame quiet
    rw [h']
  · rw [h']
    rfl

theorem axLocal_modAx (s : State) (a : Nat) (f : Axis → Axis) : axLocal s (modAx s a f) a :=
  ⟨rfl, fun _ hi => tabGet_tabMod_other _ _ _ hi⟩
theorem axLocal_modSm (s : State) (a : Nat) (f : AxSm → AxSm) : axLocal s (modSm s a f) a := axLocal_modAx _ _ _
theorem axLocal_modHm (s : State) (a : Nat) (f : AxHome → AxHome) : axLocal s (modHm s a f) a := by
  unfold modHm when
  simp only []
  split
  · exact (axLocal_modAx _ _ _).trans (axLocal_of_quiet a (quiet_sendItem _ _))
  · exact axLocal_modAx _ _ _
theorem axLocal_modHi (s : State) (a k : Nat) (f : Hist → Hist) : axLocal s (modHi s k f) a := ⟨rfl, fun _ _ => rfl⟩
theorem axLocal_modGrp (s : State) (a g : Nat) (f : Grp → Grp) : axLocal s (modGrp s g f) a := ⟨rfl, fun _ _ => rfl⟩

/-! ### Repetition and completions -/

/-- A property of a state and its successor that every turn of a loop keeps, the whole loop keeps. -/
theorem forEach_keeps {α : Type} (R : State → State → Prop) (hr : ∀ s, R s s) (ht : ∀ {s t u}, R s t → R t u → R s u)
    (xs : List α) (f : State → α → State) (hf : ∀ t x, R t (f t x)) (s : State) : R s (forEach xs f s) := by
  unfold forEach
  induction xs generalizing s with
  | nil => exact hr s
  | cons x xs ih => exact ht (hf s x) (ih (f s x))

theorem quiet_completeWaits (s : State) (p : Wait → Bool) (st : Nat) (pl : Bytes) : quiet s (completeWaits s p st pl) :=
  forEach_keeps quiet quiet.refl quiet.trans _ _ (fun t m => forEach_keeps quiet quiet.refl quiet.trans _ _ (fun u f => quiet_produce u m f st pl) t) s

/-! ### One axis -/

theorem axLocal_axItem (s : State) (a : Nat) : axLocal s (axItem s a) a := axLocal_of_quiet a (quiet_sendItem _ _)
theorem axLocal_raise (s : State) (a c i : Nat) (pl : Bytes) : axLocal s (raise s c i pl) a := axLocal_of_quiet a (quiet_raise _ _ _ _)

theorem axLocal_loopReset (s : State) (a : Nat) : axLocal s (loopReset s a) a := axLocal_modAx _ _ _
theorem axLocal_boostStart (s : State) (a : Nat) : axLocal s (boostStart s a) a := by
  unfold boostStart
  simp only []
  split
  · exact axLocal_modAx _ _ _
  · exact ((axLocal_modAx _ _ _).trans (axLocal_modAx _ _ _)).trans (axLocal_raise _ _ _ _ _)
theorem axLocal_enableReset (s : State) (a : Nat) : axLocal s (enableReset s a) a :=
  ((axLocal_loopReset _ _).trans (axLocal_modAx _ _ _)).trans (axLocal_boostStart _ _)
theorem axLocal_ovrStop (s : State) (a : Nat) (on : Bool) : axLocal s (ovrStop s a on) a := by
  unfold ovrStop
  split
  · exact .refl _ _
  · simp only []
    have h := (axLocal_modAx s a _).trans (axLocal_of_quiet a (quiet_completeWaits (modMd s a (fun m => { m with ovr := none })) (fun w => w = .override a) 0x6001 []))
    split
    · exact h.trans (axLocal_enableReset _ _)
    · exact h.trans (axLocal_loopReset _ _)
/-- Changing the state of an axis changes that axis only. -/
theorem axLocal_setSt (s : State) (a : Nat) (st : AxSt) : axLocal s (setSt s a st) a := by
  unfold setSt
  split
  · exact .refl _ _
  · exact ((axLocal_modAx _ _ _).trans (axLocal_ovrStop _ _ _)).trans (axLocal_axItem _ _)
theorem axLocal_queueDrop (s : State) (a : Nat) : axLocal s (queueDrop s a) a := by
  unfold queueDrop
  simp only []
  split
  · exact .refl _ _
  · exact ((axLocal_modAx _ _ _).trans (axLocal_raise _ _ _ _ _)).trans (axLocal_of_quiet a (quiet_sendItem _ _))
theorem axLocal_grpDrop (s : State) (a g : Nat) : axLocal s (grpDrop s g) a := by
  unfold grpDrop
  simp only []
  split
  · exact .refl _ _
  · exact ⟨rfl, fun _ _ => rfl⟩
/-- A member that leaves its path changes no axis. -/
theorem axLocal_grpLeave (s : State) (a : Nat) : axLocal s (grpLeave s a) a := by
  unfold grpLeave when
  split
  · simp only []
    split
    · exact (axLocal_grpDrop _ _ _).trans ⟨rfl, fun _ _ => rfl⟩
    · exact axLocal_grpDrop _ _ _
  · exact .refl _ _
theorem axLocal_profIdle (s : State) (a : Nat) : axLocal s (profIdle s a) a :=
  ((axLocal_queueDrop _ _).trans (axLocal_grpLeave _ _)).trans (axLocal_modAx _ _ _)
theorem axLocal_homeEnd (s : State) (a r : Nat) : axLocal s (homeEnd s a r) a := by
  unfold homeEnd
  simp only []
  split
  · exact .refl _ _
  · exact (axLocal_modHm s a _).trans (axLocal_raise _ a _ _ _)
/-- Entering FAULT changes the axis and its history only. -/
theorem axLocal_enterFault (s : State) (a c r : Nat) : axLocal s (enterFault s a c r) a := by
  unfold enterFault
  have h : ∀ f, axLocal s (homeAbort (setSt (modSm s a f) a .fault) a) a := fun f => ((axLocal_modSm s a f).trans (axLocal_setSt _ _ _)).trans (axLocal_homeEnd _ _ _)
  have k : ∀ (t : State) (c : Prop) [Decidable c] (f : AxProf → AxProf), axLocal t (if c then profIdle t a else modProf (queueDrop t a) a f) a := by
    intro t c _ f
    split
    · exact axLocal_profIdle _ _
    · exact (axLocal_queueDrop _ _).trans (axLocal_modAx _ _ _)
  exact ((h _).trans (k _ _ _)).trans ((axLocal_modHi _ _ _ _).trans (axLocal_axItem _ _))
theorem axLocal_react1 (s : State) (a c r : Nat) : axLocal s (react1 s a c r) a := by
  unfold react1
  simp only []
  split
  · exact .refl _ _
  · split
    · exact (axLocal_modAx _ _ _).trans (axLocal_axItem _ _)
    · exact .refl _ _
  · split
    · exact ((axLocal_modAx _ _ _).trans (axLocal_axItem _ _)).trans (axLocal_profIdle _ _)
    · split
      · exact (axLocal_modAx _ _ _).trans (axLocal_axItem _ _)
      · exact .refl _ _
  · exact axLocal_enterFault _ _ _ _

/-! ### Groups and faults -/

theorem axFrame_grpStop (s : State) (g : Nat) (ms : List Nat) (dec : Nat → Int) : axFrame s (grpStop s g ms dec) := by
  have h : axFrame s (grpDrop s g) := by
    unfold grpDrop
    simp only []
    split
    · exact .refl _
    · exact rfl
  exact h.trans rfl
theorem axFrame_raises (xs : List (Nat × Nat)) (a : Nat) (s : State) : axFrame s (forEach xs (fun t f => raise t f.1 a []) s) := by
  apply forEach_keeps axFrame axFrame.refl axFrame.trans
  intro t f
  exact (axLocal_raise t a f.1 a []).1
theorem axFrame_others (xs : List Nat) (s : State) : axFrame s (forEach xs (fun t o => react1 (modSm (raise t 0x610C o []) o (fun x => { x with faults := [0x610C] })) o 0x610C (reactFor t o 1)) s) := by
  apply forEach_keeps axFrame axFrame.refl axFrame.trans
  intro t o
  exact (((axLocal_raise t o 0x610C o []).trans (axLocal_modAx _ _ _)).trans (axLocal_react1 _ _ _ _)).1
/-- Taking faults changes axes, groups, histories and what carries completions, events and items away, and nothing else. -/
theorem axFrame_takeFaults (s : State) (a : Nat) (fs : List (Nat × Nat)) : axFrame s (takeFaults s a fs) := by
  unfold takeFaults
  split
  · exact .refl _
  · extract_lets fs1 m new s0 cs s1 b
    have h0 : axFrame s s0 := axFrame_raises new a s
    have h1 : axFrame s s1 := h0.trans (axLocal_modSm s0 a _).1
    clear_value s1
    split
    · exact h1
    · rename_i others s2 s3 _
      have h2 : axFrame s s3 := (h1.trans (axLocal_react1 _ _ _ _).1).trans (axFrame_others others s2)
      clear_value s3
      split
      · exact h2.trans (axFrame_grpStop _ _ _ _)
      · exact h2

/-! ### The safety island -/

theorem sogKeep_self (h : Bool) (x : Sog) : sogKeep h x x = x := by
  unfold sogKeep
  split
  · omega
  · rfl
/-- A row outside the island that leaves the Damper alone leaves it as it was (`finishV`). -/
theorem islandKeep_self (d : Damper) : islandKeep d d = d := by
  have h3 : retainKeep d d = d.retain := by
    unfold retainKeep
    have : (List.range 4).filter (fun g => decide (d.halted = false ∧ 2 ≤ (sogOf d g).st ∧ (sogOf d g).st = 1)) = [] := by
      simp only [List.filter_eq_nil_iff, decide_eq_true_eq]
      intros
      omega
    rw [this]
    show d.retain &&& 15#4 = d.retain
    generalize d.retain = r
    revert r
    decide
  unfold islandKeep
  rw [h3]
  simp [sogKeep_self, List.range_succ]
theorem finishV_self (s t : State) (h : t.dmp = s.dmp) : finishV s t = .next { t with pending := s.pending, ddr := s.ddr } := by
  unfold finishV
  rw [← h, islandKeep_self]

end Sys2Proof.Machine
end

