-- ==== Sys2Proof/Tests/Slice0.lean ====
section
/-! SUPPORT. Tests on small states, and a witness for the hypotheses of every statement. -/
open Sys2Proof Sys2Proof.Machine

namespace Sys2Proof.Tests

-- one theorem after the other, which keeps the memory of this file small
set_option Elab.async false

/-- An entry of a master with a payload. -/
def ent (m : MasterNo) (pl : Bytes) : CmdEntry := { master := m, seq := 0, tag := 7, fence := false, payload := pl }

/-- A delivered part that is READY and leads its network, in pick 0 of bolt 2. -/
def up : State :=
  { boot := { stage := 7, ready := true },
    clk := { now := 800000, locked := true, started := true, pickT0 := 800000, pstamp := 64, markers := true },
    net := { phase := .running }, pair := { active := true } }

/-- Other parameter values in force. -/
def withPar (s : State) (xs : List (Nat × Nat × Int)) : State :=
  { s with par.force := xs.foldl (fun t x => tabSet t (pkey x.1 x.2.1) x.2.2) s.par.force }

/-- The placement of an axis of node 0 on a lane of its number. -/
def axPl (a : Nat) : AxisPl :=
  { axis := a, node := 0, lax := a, unplaced := false, why := 0, lane := a, coding := 2, phCur := 0, phSpd := 0, phPos := 0, cyc := 100,
    poolBase := 0, poolSize := 0, late := false, order := 0, await := false, pinSp := false, pinLn := false, slot := 0 }
/-- The slot of node 0, in every pick. -/
def nd0Pl : NodePl :=
  { node := 0, rcode := 0, phase := 0, slen := 56, pos := 0, spare := none, starts := [(0, 100)], pinned := false, classes := [1, 1], codes := [2, 2] }
/-- What node 0 has been assigned. -/
def asg0 : SlotAsg := { sofs := 100, slen := 56, rcode := 0, phase := 0, fromBolt := 0, codes := [2, 2], exc := [], classes := [1, 1] }

/-- `up` with servo axes 0 and 1 of node 0 placed and ready, each with all three loops and an incremental encoder. -/
def line : State :=
  { withPar up [(0x0100, 0, 1), (0x0100, 1, 1), (0x0101, 0, 0), (0x0101, 1, 0), (0x0102, 1, 1), (0x0103, 0, 7), (0x0103, 1, 7), (0x0345, 0, 64)] with
    warp := { place := { axes := [axPl 0, axPl 1], nodes := [nd0Pl] }, placed := true },
    nodes := [(0, { admitted := true, joined := true, integrated := true, desc := [0, 0, 0, 0, 0, 0, 0, 0, 0, 1, 0, 0, 1, 0] ++ List.replicate 18 0, asg := some asg0,
                    asgBegun := true })],
    brs := [(0, { brpwr := true, markers := true })],
    axes := [(0, { sm := { st := .ready }, fb := { valid := true, pos := 655360, cExt := 10 } }), (1, { sm := { st := .enabled }, prof := { live := true } })],
    dmp := { sogs := [(0, { st := 0, cause := 0, hs := true, ls := true })] } }

/-- `line` with one axis in a state. -/
def inSt (a : Nat) (st : AxSt) : State := modSm line a (fun x => { x with st := st })

theorem wit_takes : takesNow up (ent 5 []) = true ∧ takesNow line (ent 10 []) = true := by decide
theorem wit_rights : ∀ k ∈ [(7, rREAD), (6, rREAD), (0, rREAD), (3, rREAD), (4, rREAD), (4, rOWN), (5, rUPDATE), (6, rSAFE), (7, rCOMMIT), (1, rCOMMIT),
    (2, rWRITE), (8, rARM), (8, rREAD), (16, rMOVE), (31, rMOVE + rWRITE), (13, rREAD + rWRITE)], hasRights up 5 k.1 k.2 = true := by decide
theorem wit_LogCommandsRead : (ent 5 (words [0, 15])).payload.length = 8 ∧ word (words [0, 15]) 1 = 15 ∧ word (words [9, 1]) 1 = 1 := by decide
theorem wit_PlacementAndAccessRead : (ent 5 (le 4 (65535 + 57 * 65536))).payload.length = 4 ∧ hasRights up 5 4 rREAD = true := by decide
theorem wit_ParReadReturns : parPasses .read (taken up (ent 5 (words [2, 0x00100000, 0x02000001])) 0x0201) 5 (words [1, 0x00100000]) = true := by decide
theorem wit_statKinds : (∃ x, netKind 3 = some x ∧ 63 ≤ x.most ∧ 65 + 63 ≤ x.inst) ∧ (∃ x, loomKind 2 = some x ∧ 126 ≤ x.most ∧ 2 + 126 ≤ x.inst) :=
  ⟨⟨_, rfl, by decide, by decide⟩, ⟨_, rfl, by decide, by decide⟩⟩
/-- PAR_WRITE of LP_SPD_KP and the next parameter of axis 0: two values of one tied set. -/
def pw : Bytes := words [2, 0x0310 * 65536, 5, 0, 0x0312 * 65536, 0x7FFF, 0]
theorem wit_ParWriteStages : parPasses .write (taken line (ent 5 pw) 0x0202) 5 pw = true ∧
    writeFails (taken line (ent 5 pw) 0x0202) 5 (pItems pw 12) = none ∧
    (∀ x ∈ writeVals (taken line (ent 5 pw) 0x0202) (pItems pw 12), x.1.tset ≠ noSet) := by decide
/-- PAR_WRITE of one untied value. -/
def pw1 (num v : Nat) : Bytes := words [1, num * 65536, v, 0]
theorem wit_ParWriteUntied : ∀ p ∈ [pw1 0x0349 7, pw1 0x0010 2, pw1 0x0014 1],
    let v := taken up (ent 5 p) 0x0202
    parPasses .write v 5 p = true ∧ writeFails v 5 (pItems p 12) = none ∧ writeVals v (pItems p 12) ≠ [] ∧
    (∀ x ∈ writeVals v (pItems p 12), x.1.tset = noSet) := by decide
theorem wit_ParWriteUntied2 : (writeVals (taken up (ent 5 (pw1 0x0010 2)) 0x0202) (pItems (pw1 0x0010 2) 12)).map (fun x => (x.1.num, x.2)) = [(0x0010, 0, 2)] ∧
    pget up 0x0010 0 ≠ 2 ∧ warpBusy up = false ∧ up.warp.queue = [] ∧
    (writeVals (taken up (ent 5 (pw1 0x0014 1)) 0x0202) (pItems (pw1 0x0014 1) 12)).map (fun x => (x.1.num, x.2)) = [(0x0014, 0, 1)] ∧ up.acc.dbgOff = false := by decide
/-- `line` with staged values of a tied set for master 5. -/
def stagedIn (key : Nat) (vs : Tab Int) : State := { withPar up [(0x0800, 0, 1), (0x0800, 1, 1)] with par.stages := [(key, { owner := 5, t0 := 0, vals := vs })] }
def setName (num inst : Nat) : Bytes := words [1, num * 65536 + inst * 256]
/-- PAR_COMMIT of one set that is neither of a placement run nor of the safety settings, of one of a placement run, and of the safety set. -/
def commits : List (State × Bytes) :=
  [(stagedIn (3 * 256) [(pkey 0x0310 0, 5)], setName 0x0310 0), (stagedIn 256 [(pkey 0x0B05 0, 512)], setName 0x0200 0),
   (stagedIn (23 * 256) [(pkey 0x0905 0, 60)], setName 0x0900 0)]
theorem wit_ParCommit : ∀ x ∈ commits,
    takesNow x.1 (ent 5 x.2) = true ∧ parPasses .commit (taken x.1 (ent 5 x.2) 0x0203) 5 x.2 = true ∧
    (∀ i ∈ pItems x.2 4, stageOwner (taken x.1 (ent 5 x.2) 0x0203) (itemKey i) = some 5) ∧
    (let v := taken x.1 (ent 5 x.2) 0x0203
     let keys := dedup ((pItems x.2 4).map itemKey)
     let u : State := { v with par.force := tabMerge v.par.force (stagedVals v keys) }
     commitFail u ((pItems x.2 4).map itemKey) 0 v = none ∧ (keys = [23 * 256] → safDiffers v u = true)) ∧
    parPasses .discard (taken x.1 (ent 5 x.2) 0x0204) 5 x.2 = true := by decide
theorem wit_ParCommit2 : (commits.map (fun x => dedup ((pItems x.2 4).map itemKey))) = [[3 * 256], [256], [23 * 256]] := by decide

/-! ### Placement, network, axes -/

/-- Four runs in the queue of the Warper. -/
def runQ (n : Nat) : List Run := List.replicate n { id := 9, trig := 1, full := false, vals := [], sets := [], nodes := [] }
theorem wit_PlaceFullAsksForARun : warpBusy up = false ∧ up.warp.queue = [] ∧ ({ up with warp.queue := runQ 3 } : State).warp.queue.length = 3 ∧
    takesNow { up with warp.queue := runQ 4 } (ent 5 []) = true := by decide
/-- Branch 0 was cut at time 0; 100 ms are 40,000,000 time units. -/
def cutAt (now : Nat) : State := modBr { line with clk.now := now } 0 (fun r => { r with cut := true })
theorem wit_BranchCommands : (brOf line 0).cut = false ∧ brEnabled line 0 = true ∧ (brOf (cutAt 40000000) 0).cut = true ∧
    ((cutAt 40000000).clk.now < (brOf (cutAt 40000000) 0).cutT + 100 * millisecond) = false ∧
    (cutAt 39999999).clk.now < (brOf (cutAt 39999999) 0).cutT + 100 * millisecond ∧ brEnabled (withPar line [(0x0200, 0, 2)]) 0 = false := by decide +kernel
/-- 256 bytes of a part of the microstep table, good and bad, and a load that waits for a part. -/
def part (b : Byte) : Bytes := List.replicate 256 b
def load0 (k : Nat) (bs : Bytes) : MsLoad := { master := 5, next := k, seq := 0xFFFFFFFF, t := 0, bytes := bs }
theorem wit_MicrostepTableLoads : (part 0x11).length = 256 ∧ tabAxesOk line 0 = true ∧
    (∀ k ∈ [1, 2, 3], loadFits (modNd line 0 (fun d => { d with load := some (load0 k []) })) 0 5 k 0 = some (load0 k [])) ∧ loadFits line 0 5 3 0 = none ∧
    tabAxesOk (withPar (modNd (inSt 1 .moving) 0 (fun d => { d with load := some (load0 3 []) })) [(0x0100, 1, 3), (0x0404, 1, 1)]) 0 = false ∧
    (ndOf line 0).integrated = true ∧ (ndOf up 0).integrated = false := by decide +kernel
theorem wit_MicrostepImage : tabOk (part 0x11 ++ part 0x11 ++ part 0x11 ++ part 0x11) = true ∧ tabOk (part 0x11 ++ part 0x11 ++ part 0x11 ++ part 0x81) = false := by
  decide +kernel
/-- `line` with node 0 in safe output group 0, which is closed. -/
def sogLine : State := withPar line [(0x0920, 0, 0)]
theorem wit_AxisEnable : (axOf sogLine 0).sm.changed = false ∧ wrOpen sogLine 0 = false ∧ (axOf sogLine 0).sm.st = .ready ∧ enaCond sogLine 0 = true ∧
    (let s := modSm sogLine 0 (fun x => { x with st := .disabled, disCmd := true })
     wrOpen s 0 = false ∧ placed s 0 = true ∧ (ndOf s (axNode s 0)).integrated = true ∧ enaCond s 0 = true ∧
       axClass (withPar s [(0x0100, 0, 4)]) 0 = 4) := by decide
theorem wit_FaultReset : causeGone line 0 (axOf line 0).sm.fcode = true ∧
    (let s := modSm line 0 (fun x => { x with st := .fault, react := 2, fcode := 0x6104 })
     causeGone s 0 (axOf s 0).sm.fcode = true ∧ (axOf s 0).sm.changed = false) := by decide
theorem wit_OutputOverride : parseBody (axFmt line 1) (List.replicate 12 0) = some (.duty 0 0 0) ∧ (axOf line 1).sm.st = .enabled ∧ (axOf line 1).sm.changed = false ∧
    (axOf line 1).prof.queue = [] ∧ inGroup line 1 = false := by decide
/-- A move descriptor: mode, target and the rest 0, or the only one with REPLACE. -/
def mv (kind target : Nat) : Bytes := words [kind, 0, 0, target, 0]
theorem wit_Move : ∀ k ∈ [1, 2, 3, 257], descStatus line 1 (descOf (mv k 65536)) (descBase line 1 (descOf (mv k 65536))) (axOf line 1).prof.queue.length true = 0 := by decide
/-- `line` with axis 1, MOVING, as the only member of group 3. -/
def grouped : State := withPar (inSt 1 .moving) [(0x0107, 1, 3)]
theorem wit_GroupMove : grpMembers grouped 3 = [1] ∧ grpStatus grouped 3 (grpDescs grouped 3 (le 4 (3 + 256) ++ mv 1 65536)) = 0 ∧ moveState grouped 1 = true ∧
    hasRights grouped 5 (axTarget 1) rMOVE = true := by decide
theorem wit_Halt : hasProfile line 1 = true ∧ inGroup line 1 = false ∧ homing (axOf (modAx grouped 1 (fun x => { x with hm.phase := 2 })) 1) = true := by decide
/-- `line` with a homing mode of axis 1. -/
def homes (mode : Int) : State := withPar line [(0x0630, 1, mode), (0x0540, 1, 7)]
theorem wit_Home : ∀ k ∈ [0, 1, 2, 3, 4, 5, 0x14], homeStatus (homes k) 1 = 0 ∧ axEnc (homes k) 1 = 1 := by decide

/-! ### Acquisition -/

/-- A channel of unit 0 records the position of axis 0. -/
def chan : List (Nat × Nat × Int) := [(0x0720, 0, 1), (0x0721, 0, 0)]
/-- `up` with unit 0 in a state, with one channel. -/
def unitIn (st : Nat) : State := modUn (withPar up chan) 0 (fun u => { u with st := st })
/-- A capture without blocks. -/
def cap0 (q : Nat) : Capture := { seq := q, hdr := List.replicate 24 0, chans := [], rates := [], blocks := [] }
theorem wit_AcquisitionCommands : unChans (unitIn 0) 0 ≠ [] ∧ (∀ k ∈ [1, 2, 3, 5], (unOf (unitIn k) 0).st = k) ∧ (∀ k ∈ [0, 1, 2], unMode (withPar up [(0x0700, 0, k)]) 0 = k) ∧
    word (words [7, 0xFFFFFFFF]) 1 = 2 ^ 32 - 1 := by decide
/-- `up` with a capture of unit 0, a stream of unit 1 and a history block of axis 0. -/
def kb : KBlock := { hist := true, src := 0, hvar := 2, ps0 := 0, t0 := 0, dcode := 0, bexp := 0, avgk := 0, wraps := false, gaps := List.replicate 3 false, sat := List.replicate 3 false, xs := [1, 2, 3], lost := false }
def kilnUp : State := modHi (modUn (modUn up 0 (fun u => { u with caps := [cap0 1, cap0 2] })) 1 (fun u => { u with st := 6, blocks := [kb, kb] })) 0 (fun h => { h with blocks := [kb] })
theorem wit_AcquisitionReads : ((unOf kilnUp 0).caps.find? (fun x => x.seq = 2)) = some (cap0 2) ∧ (∀ k ∈ (cap0 2).blocks, k.lost = false) ∧ (unOf kilnUp 1).st = 6 ∧
    (∀ k ∈ (hiOf kilnUp 0).blocks, k.lost = false) ∧ blocksFit 268 [kb, kb] ≠ [] := by decide

/-! ### Access, CAN, safety, pair, firmware -/

theorem wit_AccessWrite : reservedTarget 31 = false ∧ hasRights up 5 31 rOWN = true ∧ (0x7F#16) ≠ rightsOf up 10 31 ∧ owners up 31 ≠ [10] ∧ up.acc.dbgOff = false ∧
    (mirroring up && inSync up) = false ∧ (mirroring { up with pair.lstate := 3 } && inSync { up with pair.lstate := 3 }) = true := by decide
theorem wit_KeyCommands : (keyOf up 7).state = 0 ∧ liveSlots up 1 = [] ∧ (ent 5 (le 4 (7 + 256) ++ List.replicate 32 1)).master = 5 ∧
    (keyOf { up with acc.keys := [(7, { state := 1, master := 1 })] } 7).state = 1 := by decide
/-- In a pair in SYNC the free value of the partner's slot decides. -/
theorem wit_KeyCommands2 (b : Bool) (h : Config.freeBool 0 = b) :
    let s : State := { up with pair := { active := true, en := true, link := true, lstate := 3 } }
    (mirroring s && inSync s) = true ∧ ((mirroring s && inSync s) && Config.freeBool s.freeCtr) = b := ⟨rfl, h⟩
/-- `up` with CAN0 in normal mode and some entries in its FIFO. -/
def canUp (q : List CanEnt) : State := modCan (withPar up [(0x0800, 0, 1)]) 0 (fun c => { c with mode := 1, fifo := q })
/-- A standard frame. -/
def fr (id : Nat) : CanFrame := { ide := false, fdf := false, remote := false, ident := BitVec.ofNat 29 id, data := [1, 2] }
def entry (id t : Nat) : CanEnt := { f := fr id, brs := false, host := true, t := t }
theorem wit_CanCommands : takesNow (canUp []) (ent 5 []) = true ∧ canRunning (canOf (canUp []) 0) = true ∧ canTxOk (canUp []) 0 (fr 0x7FF) = true ∧
    (canOf (canUp (List.replicate 23 (entry 1 0))) 0).fifo.length = 23 ∧ (canRunning (canOf up 0)) = false := by decide
/-- The master of CAN0, which carries network A, with SAFE on target 6. -/
def safeUp : State := { up with acc.words := [(6 * 16 + 6, 0x0021)] }
theorem wit_SafeReset : masterNet up 5 = none ∧ hasRights up 5 6 rSAFE = true ∧ takesNow safeUp (ent 6 [15, 0, 0, 0]) = true ∧
    hasRights safeUp 6 6 rSAFE = true ∧ masterNet safeUp 6 = some .netA ∧ safeUp.dmp.halted = false := by decide
theorem wit_PairSwap : (swapCond up).2 = false ∧ hasRights up 5 7 rCOMMIT = true := by decide
/-- With the free value of the partner's firmware false, a pair that has been in SYNC for 32 bolts may swap. -/
theorem wit_PairSwap2 (h : Config.freeBool 0 = false) : (swapCond { up with pair := { active := true, lstate := 3, syncBolts := 32 } }).2 = true := by
  refine Eq.trans (b := !Config.freeBool 0) rfl ?_
  rw [h]
  rfl
theorem wit_Firmware : hasRights up 5 5 rUPDATE = true ∧
    (let s := { up with fw := { begun := true, bytes := 2000, filled := [(0, 2000)], verified := true } }
     0 + 1000 ≤ s.fw.bytes ∧ s.fw.programming = false ∧ s.fw.bytes ≤ covered s.fw.filled ∧ (s.pair.en && s.pair.active && inSync s) = false ∧ axesIdle s = true) := by decide

/-! ### Reset, start-up, picks -/

/-- The part at a step of start-up. -/
def atStage (k : Nat) : State := { boot := { stage := k }, clk := { locked := decide (0 < k) } }
/-- The part with groups CLOSED or OPEN. -/
def live : State := { up with dmp := { sogs := [(0, { st := 0, cause := 0, hs := true, ls := true }), (1, { st := 1 })] } }
/-- A valid image of a firmware of line 4. -/
def img : ImageInfo := { magic := 0x5446, hver := 1, fwline := 4, arb := 0, pver := 1, iver := 1, blen := 1, hashOk := true, sigOk := true }
theorem wit_ResetAndSupply : dmpLive live = true ∧ (railLimits .vddCore).2.1 = 700 ∧ (railLimits .vddCore).1 = (740, 860) ∧
    (railLimits .vddio33).2 = (2800, 2900) ∧ ((∀ g : Fin 4, (sogOf live.dmp g).st ≠ 3) ∧ live.dmp.retain = 0) := by decide
theorem wit_islandOk : islandOk live ∧ islandOk State.reset ∧ ddrOk live := by
  unfold islandOk sogOk ddrOk
  decide
theorem wit_StartUpSteps : (∀ k ∈ [0, 1, 2, 3, 4, 5], atStep (atStage k) k = true) ∧ (atStage 0).clk.locked = false ∧ imageOk (atStage 4) img = true ∧
    imageOk (atStage 4) { img with hashOk := false } = false ∧ (∀ k ∈ [1, 2, 5], atStep up k = false) ∧ up.clk.txStopped = false := by decide
theorem wit_ClockMemory : heldReset up = false ∧ up.boot.halted = false ∧ scrubReady up = true ∧
    scrubReady { up with boot.scrubAt := poolBurst, boot.granule := 1 } = true ∧ ({ up with boot.granule := 3839 } : State).boot.granule = 3839 := by decide
/-- A FW_VERIFY of master 5 that waits. -/
def waitsFw : State := { up with fw.programming := true, fw.erasing := true, mbs := [(5, { flights := [{ entry := ent 5 [], opcode := 0x0E03, wait := some .fwVerify }] })] }
theorem wit_ProgramDone : (mbOf waitsFw 5).flights = [{ entry := ent 5 [], opcode := 0x0E03, wait := some .fwVerify }] ∧ (∀ k : Fin 12, k.val ≠ 5 → (mbOf waitsFw k).flights = []) := by decide
theorem wit_PickStamp : psPick (ps { line with clk.pstamp := 95 }) = 31 ∧ psPick (ps line) ≠ 31 ∧ line.clk.boltDone = false := by decide
/-- `up` with MAC 0 in service and the host clock on. -/
def macUp : State := withPar up [(0x0A00, 0, 2), (0x0A01, 0, 0x0A000001), (0x0A20, 0, 1)]
theorem wit_HostClock : ptpOn macUp 0 = true ∧ ptpOn macUp 1 = false ∧ pnat macUp 0x0A22 0 = 0 ∧ pnat macUp 0x0A20 0 = 1 ∧
    pnat up 0x0A20 0 ≠ 1 ∧
    ({ macUp with ptp.sync := some (7, 9) } : State).ptp.sync = some (7, 9) ∧ ({ macUp with ptp.lost := false } : State).ptp.lost = false ∧ macUp.ptp.lost = true := by decide

/-! ### Network start, frames -/

/-- `up` in a phase of the network start. -/
def inPhase (p : NetPhase) : State := { line with net.phase := p }
theorem wit_NetworkStart : ({ up with net.toPower := [0, 1] } : State).net.toPower = [0, 1] ∧ pnat up 0x0012 0 = 5 ∧ pnat (withPar up [(0x0012, 0, 0)]) 0x0012 0 = 0 ∧
    brEnabled (inPhase .listening) 0 = true ∧ (brOf (modBr (inPhase .listening) 0 (fun r => { r with noise := true })) 0).noise = true ∧
    branchOn line 0 = true ∧ psPick (ps line) = 2 * (0 : Fin 16).val ∧ (brOf line 0).calDone = false ∧ isStandby (inPhase .following) = true ∧
    (brOf (modBr line 0 (fun r => { r with calDone := true })) 0).calDone = true ∧ (brOf (modBr line 0 (fun r => { r with cut := true })) 0).cut = true ∧
    ({ inPhase .following with clk.plenStop := 2 } : State).clk.plenStop = 2 ∧ ({ inPhase .listening with pair.en := true } : State).pair.en = true := by decide
/-- An empty gate, and one with energy only. -/
def silent : GateObs := { energyAtOpen := false, energyAtClose := false, energy := false, start := none, codeViol := 0, frame := [] }
def noisy : GateObs := { silent with energy := true, codeViol := 3 }
theorem wit_UpGate : asgOf line 0 = some asg0 ∧ nodeDue line 0 = true ∧ (ndOf line 0).gateNow = false ∧ branchOn line ((0 : Fin 64).val / 4) = true ∧
    upClass line 0 asg0 silent = .missed ∧ asgOf line 1 = none ∧ isStandby (inPhase .following) = true ∧ branchOn (inPhase .following) 0 = false := by decide
/-- Pick 31 of a bolt, with a free join slot of tap 1, and a valid join frame of it. -/
def joinUp : State := { line with clk.pstamp := 95, warp.place.draft :=
  [{ kind := 4, dir := 1, branch := 0, allbr := false, pick := 31, start := 0, len := 24, node := 1, coding := 0, await := false, late := false, pin := false }] }
def joinObs (tap : Nat) (d : Int) : GateObs := { noisy with start := some d, codeViol := 0, frame := frameBytes 0x1234 false 0 3 (le 4 tap) }
theorem wit_DownJoin : ({ line with clk.afterDl := true } : State).clk.afterDl = true ∧ joinGate joinUp 0 1 = true ∧
    argMin (fun (p : Nat × Int) => (p.1 : Int)) [(2, (9 : Int)), (1, 4)] = some (1, 4) ∧ joinCheck 1 silent = false ∧
    joinCheck 1 (joinObs 1 128) = true ∧ inJoinBand (joinObs 1 128) = true ∧ inJoinBand (joinObs 1 129) = false ∧ inJoinBand (joinObs 1 (-52)) = true ∧
    (let s : State := { joinUp with net.phase := .following }
     isStandby s = true ∧ (brOf s 0).brpwr = true ∧ joinGate s 0 1 = true) ∧ joinGate line 0 1 = false ∧ line.clk.afterDl = false := by decide +kernel
theorem wit_Guardian : sending line = true ∧ (ndOf line 0).admitted = true ∧ (ndOf line 0).joined = true ∧
    (ndOf (modNd line 0 (fun d => { d with viol := 4, noFrame := 32 })) 0).viol = 4 ∧ (ndOf line 0).viol < 4 := by decide
/-- Bursts: a valid header of node 0, and one without a header. -/
def burst (d : Bytes) : Burst := { goesOn := false, decoded := d }
theorem wit_Energy : line.boot.ready = true ∧ (atStage 3).boot.ready = false ∧ burstNode line 0 (burst (frameBytes 0 false 0 2 [])) = some 0 ∧
    burstNode line 0 (burst []) = none ∧ burstNode (modBr line 0 (fun r => { r with runOn := some 3 })) 0 { burst [] with goesOn := true } = some 3 ∧
    (let s := modBr line 0 (fun r => { r with cut := true, readmit := true })
     (brOf s 0).cut = true ∧ (brOf s 0).readmit = true ∧ (ndOf s 0).joined = true) ∧ (brOf line 0).readmit = false := by decide +kernel

/-! ### Acyclic transfers, the Loom, placement runs -/

/-- `line` with a record of branch 0. -/
def br0 (f : Branch → Branch) : State := modBr line 0 f
/-- A timing adjustment of node 0, repeated some times, and a reply to it. -/
def adj (reps : Nat) : Xfer := { node := 0, kind := .timing 3, reps := reps }
def reply (stat : Nat) : Bytes := frameBytes (4 * 2 ^ 28 + stat) false 0 5 []
theorem wit_Acyclic : branchOn line 0 = true ∧ acycIn line 0 0 = 1 ∧ (brOf line 0).win = 0 ∧ (brOf line 0).xfer = none ∧ rejoinWindow line 0 0 = false ∧
    lostTaps line 0 = [] ∧ (∀ i < 4, (ndOf line i).withdraw = 0) ∧ 45 ≤ pnat line 0x0204 0 ∧
    (brOf (br0 (fun r => { r with retry := some (adj 1) })) 0).retry = some (adj 1) ∧
    nextXfer (br0 (fun r => { r with xfers := [adj 0] })) 0 = some (adj 0) ∧ xferCut 4 (.parAxis 0 8 3) = (.parAxis 0 8 1, some (.parAxis 0 9 2)) := by decide +kernel
theorem wit_AcyclicReply : replyStat line (adj 0) [] = none ∧ replyStat line (adj 0) (reply 0) = some 0 ∧ replyStat line (adj 0) (reply 5) = none ∧
    replyStat line (adj 0) (reply 4) = some 4 ∧ (brOf (br0 (fun r => { r with xfer := some (adj 2) })) 0).xfer = some (adj 2) ∧ (adj 2).reps < 3 ∧ 3 ≤ (adj 3).reps ∧
    replyBand (-51) = true ∧ replyBand 52 = false ∧ replyStat line (adj 0) (reply 3) = some 3 ∧
    (let x : Xfer := { node := 0, kind := .tableCrc, reps := 0 }
     replyStat line x (frameBytes ((xferSpec line x).1 * 2 ^ 28 + (xferSpec line x).2.1 * 2 ^ 20 + 4) false 0 5 []) = some 4) := by
  decide +kernel
theorem wit_DescriptorRetry : (ndOf (modNd line 0 (fun d => { d with descRetry := some 2 })) 0).descRetry = some 2 ∧ boltReached line 2 = true ∧
    (ndOf line 0).admitted = true ∧ (some 3).any (boltReached line) = false := by decide
/-- A frame of node 0 in the receive buffer, and a held job of axis 1. -/
def rx : RxFrame := { node := 0, discarded := false, axes := [(0, {})] }
def job1 : Job := { kind := 1, id := 1, prio := 2 }
theorem wit_Parser : isStandby line = false ∧ line.clk.afterDl = false ∧ (brOf (br0 (fun r => { r with rxBuf := [rx] })) 0).held = [] ∧
    (brOf (br0 (fun r => { r with rxBuf := [rx] })) 0).rxBuf = [rx] ∧ isStandby (inPhase .following) = true ∧
    (let s := lanesGo (br0 (fun r => { r with held := [job1] }))
     ((brOf s 0).held.find? (fun j => match jobLane s j with | some ln => decide ((lnList (laneOf s ln) j.prio).length + heldBefore s ln j < 128) | none => false)) = some job1 ∧
     jobLane s job1 = some 1) := by decide
/-- A lane that runs a job. -/
def running (l kind id : Nat) : State := modLane line l (fun x => { x with run := some { kind := kind, id := id, prio := 0 } })
theorem wit_Jobs : (∀ k ∈ [1, 2, 3], laneRunning (loomTo (running 1 k 1) 9) k 1 = some 1) ∧ laneRunning (loomTo line 9) 1 1 = none ∧ line.clk.locked = true ∧
    line.clk.started = true ∧ line.clk.afterDl = false := by decide
/-- A run of PLACE_FULL, and `up` while it runs. -/
def run0 : Run := { id := 9, trig := 1, full := true, vals := [], sets := [], nodes := [] }
def runs (s : State) : State := { s with warp.running := some run0 }
theorem wit_PlacementRun : warpBusy (runs up) = true ∧ warpBusy up = false ∧ run0.trig ≠ 4 ∧ ({ up with warp.queue := [run0] } : State).warp.queue = [run0] ∧
    ({ run0 with trig := 4 } : Run).trig = 4 ∧ ({ up with warp.pendNodes := [3] } : State).warp.pendNodes ≠ [] ∧ isStandby up = false := by decide
/-- No axis is declared and one branch is enabled: the full run succeeds. Two axes are declared on a branch out of service: it fails. -/
theorem wit_PlacementRunResult : (match fullRun (runView (runs (withPar up [(0x0200, 0, 1)])) run0) with
      | .ok p => poolReady (runs (withPar up [(0x0200, 0, 1)])) p.1 | .error _ => false) = true ∧
    (match fullRun (runView (runs (withPar line [(0x0200, 0, 2)])) run0) with | .ok _ => false | .error _ => true) = true := by decide +kernel

/-! ### Axes -/

/-- `line` with a change of record of axis 1. -/
def ax1 (f : Axis → Axis) : State := modAx line 1 f
theorem wit_Switches : debReady (ax1 (fun x => { x with inp := { x.inp with home := { init := true, run := 31 } } })) 1 { init := true, run := 31 } = true ∧
    debReady line 1 (debOf (axOf line 1).inp .limP) = false ∧ (debOf (axOf line 1).inp .home).chat = false ∧
    (let s := modSm (ax1 (fun x => { x with inp := { x.inp with limN := { chat := true, lastChg := 0 } } })) 1 (fun x => { x with decoded := true })
     (debOf (axOf s 1).inp .limN).chat = true ∧ (axOf s 1).sm.decoded = true ∧ 64 ≤ psDiff (ps s) (debOf (axOf s 1).inp .limN).lastChg) := by decide
theorem wit_HardStop : let s := ax1 (fun x => { x with hm := { mode := 5, phase := 2, par := [1, 1, 1, 0, 0, 0, 20], stallPs := some 45 } })
    (axOf s 1).hm.stallPs = some 45 ∧ hmTstop (axOf s 1).hm ≤ psDiff (ps s) 45 + 1 ∧ (axOf line 1).hm.stallPs = none := by decide
theorem wit_FbLost : fbLostHolds (modNd line 0 (fun d => { d with lost := true })) 1 = true ∧ (axOf line 1).sm.st = .enabled ∧ fbLostHolds line 1 = false := by decide
/-- Axis 1 in the quick stop. -/
def stopping : State := modSm line 1 (fun x => { x with st := .fault, react := 1, fcode := 0x6106, qsRest := some 33, qsT := 0 })
theorem wit_AxisConditions : (axOf stopping 1).sm.qsRest = some 33 ∧ 31 ≤ psDiff (ps stopping) 33 ∧ (axOf line 1).sm.qsRest = none ∧
    pnat (withPar stopping [(0x0346, 1, 64)]) 0x0346 1 ≤ psDiff (ps stopping) (axOf stopping 1).sm.qsT ∧ (axOf line 1).sm.st ≠ .fault ∧
    (let s := modLp (withPar line [(0x033B, 1, 8)]) 1 (fun l => { l with vNzPs := some 56 })
     (axOf s 1).lp.vNzPs = some 56 ∧ (axOf s 1).prof.vRef = 0 ∧ pnat s 0x033B 1 ≤ psDiff (ps s) 56) ∧ (axOf line 1).lp.vNzPs = none ∧
    8 ≤ (axOf (modMd line 1 (fun m => { m with buvRun := 8 })) 1).md.buvRun ∧ (axOf line 1).md.buvRun < 8 ∧ boostOn line (axOf line 1).md = false ∧
    boostOn line { boost := some 1 } = true ∧ (axOf (modMd line 1 (fun m => { m with ovr := some (0, .duty 0 0 0) })) 1).md.ovr = some (0, .duty 0 0 0) ∧
    (axOf line 1).md.ovr = none := by decide
theorem wit_Overtemp : let s := modMd (withPar line [(0x0405, 1, 10)]) 1 (fun m => { m with otwPs := some 50, otwLast := 59 })
    (axOf s 1).md.otwPs = some 50 ∧ pnat s 0x0405 1 ≠ 0 ∧ pnat s 0x0405 1 ≤ psDiff (axOf s 1).md.otwLast 50 + 1 := by decide
theorem wit_ResyncStall : let s := modNd line 0 (fun d => { d with sync := .wait true 40, waitTx := 8 })
    (ndOf s 0).sync ≠ .sync ∧ 8 ≤ (ndOf s 0).waitTx ∧ (ndOf s 0).stallRaised = false ∧ (ndOf line 0).sync = .sync := by decide

/-- Lane 0 had a parity error at a time. -/
def parity (t0 : Nat) : State := modLane line 0 (fun l => { l with parityT := some t0 })
theorem wit_LaneStore : (laneOf line 0).dead = false ∧ (laneOf line 0).parityT = none ∧ (parity 1).clk.now - 1 < second ∧
    (let s : State := { parity 1 with clk.now := second + 1 }
     second ≤ s.clk.now - 1 ∧ (laneOf s 0).parityT = some 1) ∧
    (laneOf (modLane line 0 (fun l => { l with dead := true })) 0).dead = true ∧ (∀ a ∈ grpMembers grouped 3, (axOf grouped a).sm.st = .moving) ∧ grpMembers grouped 3 ≠ [] ∧ axLane line 1 = some 1 ∧ (axOf line 1).sm.st = .enabled := by decide +kernel

/-! ### Acquisition and transports -/

theorem wit_TrigEdge : let s := withPar (unitIn 1) [(0x0705, 0, 2), (0x0706, 0, 3)]
    pnat s 0x0705 0 = 2 ∧ pnat s 0x0706 0 = 3 ∧ pnat s 0x070A 0 = 0 ∧ tabFind s.kiln.edges 3 = none ∧ isStandby s = false ∧ (unOf s 0).st = 1 ∧
    tabFind ({ s with kiln.edges := [(3, 320)] } : State).kiln.edges 3 = some 320 := by decide
/-- Unit 0 CLOSING; its last block lies behind the last sample. -/
def closing : State := modUn (withPar up chan) 0 (fun u => { u with st := 3, trig := some { t32 := 0, src := 1 }, lastT := some 1000 })
theorem wit_CaptureClose : (unOf closing 0).st = 3 ∧ (unOf closing 0).trig = some { t32 := 0, src := 1 } ∧ (unOf closing 0).lastT = some 1000 ∧ unMode closing 0 ≠ 1 ∧
    (∀ k ∈ unStaged closing 0, 1000 < k.t0 + 160) ∧ unMode (withPar closing [(0x0700, 0, 1)]) 0 = 1 := by decide
theorem wit_Rates : (let s := modUn { up with kiln.lowBolts := 32 } 0 (fun u => { u with code := 3 })
     s.kiln.lowBolts = 32 ∧ (unOf s 0).rateDue = none ∧ (unOf s 0).rateBolt = false ∧ pnat s 0x0701 0 < (unOf s 0).code) ∧
    (let s := modUn up 0 (fun u => { u with st := 6, lowRing := 32 })
     (unOf s 0).st = 6 ∧ (unOf s 0).lowRing = 32 ∧ up.kiln.lowBolts ≠ 32) ∧
    (let s := modUn up 0 (fun u => { u with rateDue := some 2 })
     (unOf s 0).rateDue = some 2 ∧ (ps s).toNat % 2 ^ 2 = 0 ∧ s.clk.afterDl = false) ∧
    ({ unitIn 2 with kiln.staged := [(0, kb)] } : State).kiln.staged = [(0, kb)] ∧ (unOf { unitIn 2 with kiln.staged := [(0, kb)] } 0).st = 2 ∧
    ({ up with kiln.staged := [(8, kb)] } : State).kiln.staged = [(8, kb)] ∧ (hiOf (modHi up 0 (fun h => { h with left := some 0 })) 0).left = some 0 := by decide +kernel
/-- A live key of master 1 in slot 2, and an open session under a session key. -/
def key0 : Bytes := List.replicate 32 0x5A
def sess0 : Sess := { sid := 0x11223344, key := key0, slot := 2, mac := 0, ip := 1, port := 2, ctrHi := 5, seen := [5], txCtr := 0, t := 0 }
def ethUp : State := { modSess macUp 1 (fun _ => { cur := some sess0 }) with acc.keys := [(2, { state := 1, master := 1, key := key0 })] }
/-- Datagrams of master 1: HELLO, DATA without entries, and CLOSE. -/
def hello : Bytes := dgMake key0 1 1 0 0 0 (List.replicate 16 9)
def dgram (type ctr : Nat) : Bytes := dgMake key0 type 1 0 0x11223344 ctr []
/-- A datagram to MAC 0 and the mailbox port. -/
def toMac : UdpTo := { v6 := false, frag := false, ip := 0x0A000001, port := pnat ethUp 0x0A04 0 }
theorem wit_Hello : toMailbox ethUp 0 toMac = true ∧ toMailbox ethUp 0 { toMac with frag := true } = false ∧ dgType hello = 1 ∧ helloSlot ethUp hello = some 2 ∧ helloSlot macUp hello = none ∧ ethMaster (dgMaster hello) = true := by
  decide +kernel
theorem wit_Data : dgType (dgram 3 6) = 3 ∧ dgUsable ethUp (dgram 3 6) = some (false, sess0, []) ∧ dgUsable ethUp (dgram 3 5) = none ∧
    ethMaster (dgMaster (dgram 3 5)) = true ∧ dgType (dgram 4 6) = 4 ∧ dgUsable ethUp (dgram 4 6) = some (false, sess0, []) ∧
    dgUsable (modSess ethUp 1 (fun _ => { cur := none, opening := some sess0 })) (dgram 4 6) = some (true, sess0, []) ∧ (sessOf ethUp 1).cur.isSome = true ∧ (sessOf ethUp 2).cur = none := by decide +kernel
/-- A completion and an event. -/
def cpl0 : Cpl := { seq := 0, opcode := 1, tag := 7, rep := false, notAcc := false, status := 0, psl := 64, payload := [] }
def ev0 : Ev := { pstamp := 64, code := 0x1104, inst := 1, payload := [], count := 0 }
theorem wit_Answers : macOn ethUp 0 = true ∧ pnat ethUp 0x0A01 0 = 0x0A000001 ∧ macOn ethUp 1 = false ∧ sessLive ethUp sess0 = true ∧
    (mbOf (modMb ethUp 1 (fun b => { b with ring := [.cpl cpl0] })) 1).ring ≠ [] := by decide
/-- The entry of a NOP of master 5 with SEQ 0. -/
def qNop : Bytes := words [0x11, 0, 0x0100 * 65536 + 7 * 256, 0]
theorem wit_Qspi2 : (match parseEntry 5 (padTo 1024 (qNop.take 1024)) with | .ok e op n => decide (e = ent 5 []) && decide (op = 0x0100) && decide (n = 16) | _ => false) = true := by
  decide +kernel
theorem wit_Qspi3 : opcodes.contains 0x0100 = true ∧ entryTakes up (ent 5 []) = true ∧ (atStage 3).boot.ready = false := by decide
theorem wit_Qspi : up.boot.ready = true ∧ 64 < ((65 : BitVec 16) - up.qspi.cmdTail).toNat ∧ ((64 : BitVec 16) - up.qspi.cmdTail).toNat ≤ 64 ∧
    (up.qspi.cplHead - up.qspi.cplTail).toNat < ((1 : BitVec 16) - up.qspi.cplTail).toNat ∧
    (let s : State := { up with qspi.cplHead := 2 }
     ((2 : BitVec 16) - s.qspi.cplTail).toNat ≤ (s.qspi.cplHead - s.qspi.cplTail).toNat) := by decide
theorem wit_Rings : (mbOf (modMb up 5 (fun b => { b with waiting := [cpl0] })) 5).waiting = [cpl0] ∧ ringFull (modMb up 5 (fun b => { b with waiting := [cpl0] })) 5 = false ∧
    (mbOf up 5).waiting = [] ∧ (mbOf (modMb up 5 (fun b => { b with events := [ev0] })) 5).events = [ev0] ∧ ringFull (modMb up 5 (fun b => { b with events := [ev0] })) 5 = false ∧
    (mbOf (modMb up 5 (fun b => { b with waiting := [cpl0] })) 5).stalled = false := by decide
/-- A gateway message in which the holder of NAME 77 sends STATUS-like command 1 of the table to master 6. -/
def gwUp : State := modCan (withPar up [(0x0800, 0, 1), (0x0A0B, 0, 77), (0x0A08, 0, 0x7F)]) 0 (fun c => { c with mode := 1, claim := 2, sa := 3, seen := [(9, 77)] })
def gwMsg : Bytes := 1 :: words [0x11, 0, 0x0101 * 65536 + 7 * 256, 0]
theorem wit_Gateway : pnat gwUp 0x0A0B 0 ≠ 0 ∧ (canOf gwUp 0).mode = 1 ∧ (canOf gwUp 0).claim = 2 ∧ canHolder (canOf gwUp 0) (pnat gwUp 0x0A0B 0) = some 9 ∧
    List.headD gwMsg 0 = 1 ∧ gwLenOk 16 false gwMsg = true ∧ gwLenOk 16 true (padTo 20 gwMsg) = true ∧ pnat (withPar gwUp [(0x0803, 0, 1)]) 0x0803 0 % 2 = 1 ∧ opcodes.contains 0x0101 = true ∧
    entryTakes gwUp (ent 6 []) = true := by decide
theorem wit_Gateway2 : parseEntry (Fin.ofNat 12 (6 + (0 : CanNo).val)) (gwMsg.drop 1) = .ok (ent 6 []) 0x0101 16 := rfl
theorem wit_StageExpired : setFirst 3 ≠ 0 ∧ (∀ k < 3, setFirst k ≠ setFirst 3) ∧ stageTaken (stagedIn (3 * 256) []) (3 * 256) = false ∧
    (tabFind (stagedIn (3 * 256) []).par.stages (3 * 256)).isSome = true := by decide

/-! ### CAN, the Damper, the pair -/

theorem wit_CanStop : (canOf (canUp []) 0).stopDue = false ∧ (canOf (modCan (canUp [entry 1 0]) 0 (fun c => { c with stopDue := true })) 0).stopDue = true ∧
    canHeadOld (withPar (canUp [entry 5 0, entry 1 0]) [(0x0805, 0, 1)]) 0 = true ∧ canHeadOld (canUp []) 0 = false ∧
    canExpire (canOld (canUp []) 0) false [] = none := by decide +kernel
theorem wit_Can : (canOf (canUp []) 0).mode ≠ 0 ∧ (canOf (canUp []) 0).boff = false ∧ (fr 1).fdf = false ∧ nbit (pnat (canUp []) 0x0803 0) 0 = false ∧ (canOf up 0).mode = 0 ∧
    (canOf (canUp [entry 1 0]) 0).fifo = [entry 1 0] ∧ canErrFits (canOf (canUp [entry 1 0]) 0) .arbLost = true ∧ canErrFits (canOf (canUp []) 0) .rxError = true ∧
    (let s := modCan (canUp []) 0 (fun c => { c with boff := true, recov := true })
     (canOf s 0).boff = true ∧ (canOf s 0).recov = true) ∧
    pnat (withPar (canUp []) [(0x0805, 0, 4)]) 0x0805 0 ≠ 0 ∧ canLower (canOf (canUp [entry 5 0, entry 1 0]) 0) = true ∧ canLower (canOf (canUp [entry 1 0, entry 5 0]) 0) = false ∧
    pnat (withPar (canUp []) [(0x0806, 0, 4)]) 0x0806 0 ≠ 0 ∧ canExpire (canEntOld 1 9) false [entry 5 3, entry 1 2] = some ([entry 5 3], false) ∧
    canExpire (canEntOld 1 9) false [entry 5 2, entry 1 3] = some ([entry 1 3], true) ∧ canExpire (canEntOld 1 9) true [entry 5 2, entry 1 3] = some ([entry 5 2], false) ∧
    (∀ k ∈ [1, 3, 5], (canOf (modCan up 0 (fun c => { c with claim := k })) 0).claim = k) := by decide +kernel
theorem wit_CanTp : ∃ x, tabFind (canOf (modCan up 0 (fun c => { c with tpRx := [(9, { pgn := 0xEF00, data := [], len := 9, next := 1, upto := 2, per := 1, t := 0 })] })) 0).tpRx 9 = some x :=
  ⟨_, rfl⟩
theorem wit_DamperGroups : causesNow { live with dmp.evals := live.dmp.evals + 1 } 0 ≠ [] ∧ (sogOf (modSog live 0 (fun y => { y with lsDue := true })).dmp 0).lsDue = true ∧
    (sogOf live.dmp 0).lsDue = false ∧ live.clk.started = true ∧ (ps { live with clk.pstamp := 0 }).toNat % picksPerSec live = 0 ∧ (sogOf live.dmp 0).st = 0 ∧ (sogOf live.dmp 0).test = 0 ∧
    (sogOf live.dmp 1).st ≠ 0 ∧ (∀ k ∈ [1, 2, 3], (sogOf (modSog live 0 (fun y => { y with test := k })).dmp 0).test = k) ∧ (0b0011#4).getLsbD 0 = true ∧
    10 ≤ (sogOf (modSog live 0 (fun y => { y with midHigh := 10 })).dmp 0).midHigh ∧ iabs 101 > 100 ∧ iabs (-100) ≤ 100 := by decide
/-- The inputs are used as pairs, and networks A and B are CAN0 and CAN1. -/
def safeIn : State := withPar live [(0x0800, 0, 1), (0x0800, 1, 1), (0x0900, 0, 0), (0x0901, 0, 1), (0x0902, 0, 0x100), (0x0903, 0, 0x200), (0x0910, 0, 0x00F1), (0x0911, 0, 0x3F)]
/-- A copy of SSEQ 1 with every group demanded to run, and its CRC. -/
def copy (crc : Nat) : Bytes := words [1 * 2 ^ 24 + 0x11 * 65536 + 15, crc]
def goodCopy : Bytes := copy (safeCrc safeIn (le 4 (1 * 2 ^ 24 + 0x11 * 65536 + 15)))
theorem wit_DamperInputs : nbit (pnat safeIn 0x0911 0) 4 = true ∧ sinRun { safeIn with dmp.sins := [(0, { run := true })] } 0 ≠ sinRun { safeIn with dmp.sins := [(0, { run := true })] } 1 ∧
    sinDisc safeIn 0 = false ∧ sinDisc { safeIn with dmp.disc0 := true } 0 = true ∧
    [NetSel.netA, NetSel.netB].find? (srcIs safeIn (.can 0 false 0x100)) = some .netA ∧ [NetSel.netA, NetSel.netB].find? (srcIs safeIn (.can 1 false 0x200)) = some .netB ∧
    [NetSel.netA, NetSel.netB].find? (srcIs safeIn (.can 0 false 0x101)) = none ∧ goodCopy.length = 8 := by decide
theorem wit_SafePair : let v := BitVec.ofNat 64 (rdLe goodCopy 0 8)
    ∃ w : BitVec 64, w ≠ v ∧ w.toNat / 2 ^ 24 % 256 = v.toNat / 2 ^ 24 % 256 ∧ sogEn safeIn 0 = true ∧ (netOf safeIn.dmp .netB).copies = [] := by
  refine ⟨BitVec.ofNat 64 (rdLe (copy 0) 0 8), ?_⟩
  decide +kernel
theorem wit_SafeCopy : copyOk safeIn (netOf safeIn.dmp .netA) goodCopy = true ∧ copyOk safeIn (netOf safeIn.dmp .netA) (copy 0) = false := by decide +kernel
theorem wit_DamperInputs2 : (netOf ({ live with dmp.netA.copies := [(0, 0)] } : State).dmp .netA).copies ≠ [] ∧ ({ live with dmp.pairAt := some 0 } : State).dmp.pairAt.isSome = true ∧
    live.dmp.timeout = false ∧ sogEn safeIn 0 = true ∧ ({ live with dmp.pinLow := true } : State).dmp.pinLow = true ∧ live.dmp.stuck = false := by decide
/-- The chip of role A of a pair, with its link up, as the active controller and as the standby, in a link state. -/
def pairUp (lstate : Nat) : State := { line with pair := { active := true, en := true, link := true, lstate := lstate } }
def standby (lstate : Nat) : State := { line with net.phase := .following, pair := { en := true, link := true, lstate := lstate } }
/-- The least segment: 20 bytes of payload and its CRC. -/
def segBody : Bytes := words [0x11 + 20 * 65536, 0, 0, 0, 0, 0, 0]
def seg : Bytes := segBody ++ le 4 (crc32c segBody)
theorem wit_Selvedge : selvedge (pairUp 3) = true ∧ (pairUp 3).pair.link = true ∧ frameValid seg = true ∧ frameValid segBody = false ∧
    (∃ p : PartnerId, partnerRole p ≠ pairRole line ∧ p.pver = line.boot.pver) ∧ (∃ p : PartnerId, partnerRole p = pairRole line) ∧
    (∃ p : PartnerId, partnerRole p ≠ pairRole line ∧ p.pver ≠ line.boot.pver) := by
  refine ⟨?_, ?_, ?_, ?_, ⟨{ role := 2, csid := 0, pver := line.boot.pver }, ?_⟩, ⟨{ role := 1, csid := 0, pver := 0 }, ?_⟩, ⟨{ role := 2, csid := 0, pver := line.boot.pver + 1 }, ?_⟩⟩ <;> decide +kernel
/-- An item of a kind that waits for its pick. -/
def item1 : Item := { iseq := 1, pe := 96, body := .params [] }
/-- Item 1 as it was sent in pick 56. -/
def out1 : OutItem := { item := item1, bolt := false, sentAt := some 56, acked := false }
theorem wit_Selvedge2 : inSync (pairUp 3) = true ∧ inSync (pairUp 2) = false ∧
    ({ pairUp 3 with pair.outbox := [out1] } : State).pair.outbox.any (itemLate (pairUp 3)) = true ∧ itemLate (pairUp 3) { out1 with sentAt := some 57 } = false ∧
    isStandby (standby 2) = true ∧ selvedge (standby 2) = true ∧ (standby 2).pair.link = true ∧ (standby 2).pair.lstate = 2 ∧ (standby 2).pair.bulkDone = false ∧
    reached item1.iseq (standby 2).pair.iseqRcv = false ∧ itemHeld (standby 2).pair 0 = true ∧ itemNow item1.body = false ∧ (standby 2).pair.bulkEnd = false ∧
    8 ≤ ({ standby 3 with pair.noSeg := 8 } : State).pair.noSeg ∧ (standby 3).pair.frames < 32 := by decide
theorem wit_PairRole : (let s : State := { standby 3 with pair.judge := true, pair.silent := 2 }
     selvedge s = true ∧ isStandby s = true ∧ s.pair.judge = true ∧ 2 ≤ s.pair.silent ∧ s.pair.lstate = 3 ∧ s.pair.active = false) ∧
    (let s : State := { standby 2 with pair.judge := true, pair.silent := 2 }
     selvedge s = true ∧ isStandby s = true ∧ 2 ≤ s.pair.silent ∧ s.pair.lstate ≠ 3 ∧ s.pair.syncHeld = false) ∧
    yields (pairUp 3) = false ∧ yields { pairUp 3 with pair.pEpoch := 7 } = true ∧ (pairUp 3).net.phase = .running ∧ (pairUp 3).pair.en = true ∧
    swapHours (withPar { pairUp 3 with clk.now := 3600 * second } [(0x0B02, 0, 1)]) = true ∧ swapHours (pairUp 3) = false ∧ brEnabled (standby 3) 0 = true ∧
    ({ pairUp 3 with pair.swapAt := some 64 } : State).pair.swapAt = some (ps (pairUp 3)) := by decide
theorem wit_DownValid : downValid 0 (frameBytes 0 true 0 1 []) = true ∧ downValid 0 [] = false := by decide +kernel

/-! ### Values of the spec's worked examples -/

/-- The residual coding example (R152, R154): t4 and t5 as adjacent channels, in the bytes 1D A5 1F; the steps t1 to t3 as fields. -/
def coded (x1 x2 : Int) (s q : Nat) : Chan × Samp :=
  let o := chanRead (s + q * 8) 0 false 2 { st := .live, x1 := x1, x2 := x2 }
  (o.ch, o.smp)
theorem test_coding_example :
    ((sectionDecode [0x1D, 0xA5, 0x1F] 2 [(0, 0, 2), (0, 1, 2)] [{ st := .live, x1 := 2231, x2 := 1790 }, { st := .live, x1 := -414, x2 := 2231 }]).outs.map
      (fun o => (o.smp.v, o.smp.tag))) = [(-414, 5), (-382, 4)] ∧
    coded 1200 1200 2 0x46 = ({ st := .live, x1 := 1480, x2 := 1200 }, { v := 1480, tag := 2 }) ∧ (coded 1480 1200 0 0x64).2.v = 1790 ∧
    (coded 1790 1480 1 0x68).2 = { v := 2231, tag := 1 } ∧ (coded (-382) (-414) 0 0xF4).2.v = -370 := by decide +kernel
/-- The Draft entry of node 1 of the reference planter (R133). -/
theorem test_draft_entry :
    le 8 (dentWord { kind := 3, dir := 1, branch := 0, allbr := false, pick := 0, start := 0x530, len := 0x440, node := 1, coding := 0, await := false, late := false, pin := false })
      = [0x00, 0x20, 0x00, 0x22, 0xC0, 0x14, 0x00, 0xB8] := by decide
/-- The record of a seed meter (R115, R218, R223). -/
theorem test_record_example : svm 327680000 (-131072000) 27307 4 12500 = (8363, 4137, 5723) ∧
    recHeader 0 0 0 false true ++ bodyBytes 0 0 false (.duty 8363 4137 5723) = [0x08, 0x00, 0xAB, 0xA0, 0x14, 0xC8, 0x96, 0x05] := by decide
/-- The coded block of five samples (R347, R348). -/
theorem test_block_example :
    kBytes { hist := false, src := 5, hvar := 0, ps0 := 0x1000, t0 := 0, dcode := 0, bexp := 0, avgk := 0, wraps := false, gaps := List.replicate 5 false, sat := List.replicate 5 false,
             xs := [1000, 1010, 1022, 1031, 1043], lost := false }
      = words [0x00000501, 0x00030A18, 0x00001000, 0x000003E8] ++ [0x23, 0x2A, 0x03] := by decide +kernel
/-- The level trigger between picks 200 and 201 (R334): TT 2,507,191, TT_FRAC 8. -/
theorem test_level_trigger : crossTime (7820 - 8000) (8140 - 8000) 2500160 2512660 = 2507191 * 32 + 8 := by decide
/-- Speeds and positions of the move from rest to 60 PU (R275 to R277). -/
def moveTo (t : Int) (n : Nat) : List (Int × Int) :=
  ((List.range n).foldl (fun (x : (Int × Int) × List (Int × Int)) _ =>
    let p := posStep (mkShape [2, 2, 6, 2, 1, 2, 1, 8]) 1 x.1.1 x.1.2 t 8 2 false
    ((p.q, p.v), x.2 ++ [(p.q, p.v)])) ((0, 0), [])).2
theorem test_move_example : moveTo 60 11 = [(2, 2), (8, 4), (18, 6), (31, 7), (46, 8), (62, 8), (77, 7), (91, 7), (104, 6), (114, 4), (120, 0)] := by decide +kernel
/-- The homing stop takes 16 steps and 1,048,576 half-PU, and the bounce before it is rejected (R303, R304). -/
def homingStop (n : Nat) : Int × Int :=
  (List.range n).foldl (fun (x : Int × Int) _ => let p := velStep (mkShape [0, 0, 0, 0, 64, 0, 4096, 65536]) 1 x.1 x.2 0; (p.q, p.v)) (0, 65536)
def bounce : Deb :=
  [(4998, true), (4999, false), (5000, true), (5001, true), (5002, true), (5003, true)].foldl (fun (d : Deb) (x : Int × Bool) => debSample x.1 x.2 d) { init := true }
theorem test_homing_example : homingStop 16 = (1048576 - 65536 + 65536, 0) ∧ (homingStop 15).2 ≠ 0 ∧ bounce.run = 4 ∧ (debChange 106 bounce).cEdge = 5000 ∧
    (debChange 106 bounce).lvl = true := by decide +kernel
/-- One execution of the speed loop (R188, R190): v_fb 512 and iq_ref 1,661 LSB. -/
def tuned : State := withPar line [(0x0300, 0, 65536), (0x0310, 0, 10485760), (0x0311, 0, 40960)]
def meter : Axis := { fb := { valid := true, pos := 131072, vAct := 8300 }, prof := { posRef := 262144, vRef := 8389 }, lp := { iv := 1280 * 2 ^ 24 } }
theorem test_speed_loop_example : (posLoop tuned 0 meter).1.vFb = 512 ∧
    (spdLoop tuned 0 2 { meter with lp := (posLoop tuned 0 meter).1 }).iv = 21573304320 ∧ (spdLoop tuned 0 2 { meter with lp := (posLoop tuned 0 meter).1 }).iqRef = 1661 := by
  decide +kernel
/-- The period estimate of a seed meter at 1 rev/s (R261): 8,389 PU for each pick. -/
theorem test_period_example : perStep 12500 1100160 1 501 (some 2512) (some (500, 1000000)) 9000 = (some (501, 1097648), 8389) := by decide
/-- Slot lengths of a row node, of a stepper node and of a hoe node (R48). -/
theorem test_slot_lengths :
    (let row := withPar up [(0x0100, 0, 1), (0x0100, 1, 1), (0x0100, 2, 2), (0x0100, 3, 2)]
     slotLen row 0 [0, 1, 2, 3] = 68 ∧ slotLen row 0 [0, 1] = 48) ∧
    slotLen (withPar line ((List.range 4).flatMap (fun a => [(0x0100, a, 3), (0x0102, a, 2)]))) 0 [0, 1, 2, 3] = 44 := by decide
/-- The check value of the frame CRC (R109), the default CAN timing (R425) and the payload of a PAR_WRITE (R384). -/
theorem test_wire_values : crc32c (ascii "123456789") = 0xE3069283 ∧ pnat up 0x0801 0 = 0x01830E0F ∧
    (pItems (words [2, 0x03200000, 0x01E00000, 0, 0x03210000, 0x000A0000, 0]) 12).map (fun i => (i.num, i.inst)) = [(0x0320, 0), (0x0321, 0)] := by decide +kernel
/-- SHA-256 of "abc" and the empty string's HMAC (PRESUMED, log 8: FIPS 180-4 and RFC 2104). -/
theorem test_sha256 : (sha256 (ascii "abc")).take 4 = [0xBA, 0x78, 0x16, 0xBF] := by decide +kernel

/-! ### The queue -/

/-- Rows run in the order they came; an empty queue idles. -/
theorem test_queue : (match step { up with pending := [.nresetRelease, .boltBoundary] } with | .next t => t.pending = [.boltBoundary] | _ => False) ∧
    step up = .next up := ⟨rfl, rfl⟩

/-! ### Ill-formed terms -/

/-- A good result of the cells. -/
def okIo : IoResult := { auditOk := true, flashOk := true, otpOk := true }
/-- Each check of WellFormed refuses a term. -/
theorem test_wf_refuses :
    (ent 5 (List.replicate 1009 0)).wf = false ∧ (Instr.nop (ent 5 (List.replicate 1009 0))).wf = false ∧
    (Instr.parWrite (ent 5 (List.replicate 1009 0)) okIo).wf = false ∧
    (fr 2048).wf = false ∧ ({ fr 1 with data := List.replicate 9 0 } : CanFrame).wf = false ∧
    ({ fr 1 with fdf := true, data := List.replicate 13 0 } : CanFrame).wf = false ∧ ({ fr 1 with fdf := true, remote := true } : CanFrame).wf = false ∧
    (Instr.canFrameReceive 0 (fr 2048) 0).wf = false ∧
    ({ silent with frame := List.replicate 1024 0 } : GateObs).wf = false ∧ ({ silent with energyAtOpen := true } : GateObs).wf = false ∧
    ({ silent with start := some 0 } : GateObs).wf = false ∧ (Instr.upSlotGateClose 0 { silent with energyAtClose := true }).wf = false ∧
    (Instr.joinSlotGateClose 0 0 { silent with energyAtClose := true }).wf = false ∧
    (Instr.selfCalibrationDone []).wf = false ∧ (Instr.selfCalibrationDone (List.replicate 16 { drv := 32, trim := 0 })).wf = false ∧
    (Instr.selfCalibrationDone (List.replicate 16 { drv := 0, trim := 128 })).wf = false ∧
    (Instr.acyclicWindow 0 16).wf = false ∧ (Instr.safeMessageReceive (.can 0 false 0) (List.replicate 65 0) 0).wf = false ∧
    (Instr.qspiCmdHeadWrite 0 (List.replicate 65 [])).wf = false ∧ (Instr.bulkSegmentReceive 101 ⟨[], true⟩).wf = false := by decide +kernel
/-- And accepts the nearest well-formed ones. -/
theorem test_wf_accepts : (ent 5 (List.replicate 1008 0)).wf = true ∧ (fr 2047).wf = true ∧ ({ fr 2048 with ide := true } : CanFrame).wf = true ∧
    silent.wf = true ∧ noisy.wf = true ∧ (Instr.acyclicWindow 0 15).wf = true := by decide +kernel

/-! ### More parameter commands -/

/-- Items of axes 0 and 127 in one payload. -/
def mixed : PCmd → Bytes
  | .write => words [2, 0x0310 * 65536, 5, 0, 0x0310 * 65536 + 127 * 256, 5, 0]
  | _ => words [2, 0x0310 * 65536, 0x0310 * 65536 + 127 * 256]
theorem wit_MixedTargets : ∀ c ∈ [PCmd.read, .write, .commit, .discard], takesNow up (ent 5 (mixed c)) = true ∧ c.lenOk (mixed c) = true ∧ c.bitsOk (mixed c) = true ∧
    (∀ i ∈ pItems (mixed c) c.size, c.itemOk i = true) ∧
    (∃ i ∈ pItems (mixed c) c.size, ∃ j ∈ pItems (mixed c) c.size, itemTarget (c = .read) i ≠ itemTarget (c = .read) j) := by decide
theorem wit_Discard : parPasses .discard (taken line (ent 5 (setName 0x0310 0)) 0x0204) 5 (setName 0x0310 0) = true ∧
    (∃ i ∈ pItems (setName 0x0310 0) 4, stageOwner line (itemKey i) ≠ some 5) ∧
    (∀ i ∈ pItems (setName 0x0310 0) 4, stageOwner (stagedIn (3 * 256) []) (itemKey i) = some 5) := by decide
theorem wit_StagesBoundary : (∀ c < 28, (∀ k < c, setFirst k ≠ setFirst c) → setFirst c ≠ 0) ∧ stageTaken (stagedIn (27 * 256 + 255) []) (27 * 256 + 255) = false := by decide

/-! ### Standby, ends of picks, boundaries -/

theorem wit_Standby : entryTakes (standby 3) (ent 5 []) = true ∧ isStandby (standby 3) = true ∧ opStandby 0x0601 = false ∧ opStandby 0x0801 = false ∧
    rowCommand (.axisEnable (ent 5 [])) = some (ent 5 [], 0x0601) ∧ rowCommand (.acqArm (ent 5 [])) = some (ent 5 [], 0x0801) ∧ opStandby 0x0100 = true ∧
    hasRights (standby 3) 5 7 rCOMMIT = true ∧ inSync (standby 3) = true ∧ inSync (standby 2) = false ∧ entryTakes up (ent 5 []) = true ∧ isStandby up = false := by decide
/-- An axis command of master 5 that waits for the end of the pick. -/
def endFlight (op a : Nat) : Flight := { entry := ent 5 [], opcode := op, wait := some (.axis op a) }
def endOf (s : State) (op a : Nat) : State := { s with mbs := [(5, { flights := [endFlight op a] })] }
theorem wit_AxisEnd (s : State) (op a : Nat) : actsAtEnd (endOf s op a) 5 op a (endFlight op a) := by
  refine ⟨by decide, rfl, rfl, ?_⟩
  intro k _ h
  simp [mbOf, endOf, tabGet, tabFind, Ne.symm h]
theorem wit_Stream : (∃ k ∈ blocksFit 268 [{ kb with lost := true }], k.lost = true) ∧ (∀ k ∈ blocksFit 268 [kb], k.lost = false) := by decide
theorem wit_CanHead : headBusy (modCan (canUp [entry 1 0]) 0 (fun x => { x with onBus := true })) 0 = (modCan (canUp [entry 1 0]) 0 (fun x => { x with onBus := true }), true) ∧
    (headBusy (canUp []) 0).2 = false ∧ (canOf (canUp [entry 5 0, entry 1 0]) 0).autoDue = false ∧
    (let s := modCan (canUp [entry 5 0, entry 1 0]) 0 (fun x => { x with onBus := true, autoDue := true })
     canRunning (canOf s 0) = true ∧ (canOf s 0).fifo ≠ [] ∧ (canOf s 0).autoDue = true) := by decide
/-- Where the free value says that the head is not on the bus. -/
theorem wit_CanHead2 (h : Config.freeNat 0 % 2 = 0) : (headBusy (canUp [entry 5 0, entry 1 0]) 0).2 = false := by
  have e : (headBusy (canUp [entry 5 0, entry 1 0]) 0).2 = if Config.freeNat 0 % 2 = 1 then true else false := by
    show (if Config.freeNat 0 % 2 = 1 then _ else _ : State × Bool).2 = _
    split <;> rfl
  rw [e, h]
  rfl
theorem wit_ClockRows2 : atStep (atStage 0) 0 = true ∧ (atStage 0).clk.locked = false ∧ atStep up 0 = false ∧
    (let s : State := { up with boot.dieTemp := 150 * 256 }
     heldReset s = false ∧ s.boot.tjHigh = false ∧ 150 * 256 ≤ s.boot.dieTemp ∧ s.boot.ready = true) ∧
    (atStage 3).boot.ready = false ∧ (atStage 3).boot.tjHigh = false ∧ heldReset (atStage 3) = false ∧ (atStage 3).clk.started = false := by decide
/-- One set of axis 0 that waits for a boundary, and a placement result. -/
def pend1 (b : Bound) : Pend := { id := 1, at' := b, sets := [3 * 256], vals := [(pkey 0x0310 0, 5)], item := none }
theorem wit_Boundary : calm line ∧ onlyPend { line with par.pends := [pend1 .pick] } (pend1 .pick) .pick ∧ onlyPend { line with par.pends := [pend1 .bolt] } (pend1 .bolt) .bolt ∧
    calm { line with clk.pstamp := 95 } ∧ line.clk.plenStop ≠ 1 ∧ line.par.pends = [] ∧ line.warp.result = none ∧ branchOn line 0 = true := by
  unfold calm onlyPend
  decide
theorem wit_Boundary2 : let s : State := { line with warp.result := some (run0, line.warp.place, line.warp.report) }
    calm s ∧ s.warp.resItem = none ∧ s.par.stepMod = [] ∧ ∀ x ∈ run0.vals, x.1 / 256 < 0x0401 ∨ 0x0405 < x.1 / 256 := by
  unfold calm
  decide
theorem wit_NetworkStart2 : isStandby (inPhase .powering) = false ∧ (inPhase .powering).net.toPower = [] ∧ line.par.stepMod = [] := by decide

/-! ### Frames, jobs, records -/

/-- An up frame of node 0 in its pick. -/
def upObs : GateObs := { silent with energy := true, start := some 0, frame := frameBytes (36 * 1024 + 64) false 0 2 (List.replicate 36 0) }
theorem wit_UpGateIn : upClass line 0 asg0 upObs = .accepted ∧ parsesOnly line = false ∧ (brOf line 0).rxBuf.length < 2 ∧
    (brOf (br0 (fun r => { r with rxBuf := [rx, rx] })) 0).rxBuf.length = 2 := by decide +kernel
theorem wit_Guardian2 : mirroring (pairUp 3) = true ∧ inSync (pairUp 3) = true ∧ mirroring line = false ∧ isStandby line = false ∧
    (ndOf (modNd line 0 (fun d => { d with muted := true })) 0).muted = true := by decide
theorem wit_Acyclic2 : (adj 1).stale = false ∧ ({ adj 1 with stale := true } : Xfer).stale = true ∧ (ndOf (modNd line 0 (fun d => { d with withdraw := 4 })) 0).withdraw ≠ 0 ∧
    (let s := modNd line 0 (fun d => { d with lost := true, admitted := false })
     lostTaps s 0 ≠ [] ∧ (brOf s 0).tabSent = false ∧ acycIn s 0 0 = 1 ∧ branchOn s 0 = true) ∧ rejoinWindow line 0 0 = false ∧
    parLax (.parAxis 1 8 3) = some 1 ∧ laxAxis line 0 1 = some 1 ∧ (ndOf line 0).wrBad.contains 1 = false ∧ (brOf line 0).xfers = [] := by decide +kernel
theorem wit_ParserJob : (let s := modSm (br0 (fun r => { r with rxBuf := [rx] })) 0 (fun x => { x with jobDue := true })
     parsesOnly s = false ∧ (ndOf s rx.node).muted = false ∧ rx.axes = [(0, {})] ∧ axAt s rx.node 0 = some 0 ∧ (axOf s 0).sm.jobDue = true ∧ axLane s 0 = some 0 ∧
     newRoom (loomTo s 9) 0 { kind := 1, id := 0, prio := axPrio s 0, made := (loomTo s 9).clk.now } = true) ∧
    (let s := modLane line 0 (fun x => { x with stopped := true, list2 := List.replicate 128 job1 })
     newRoom (loomTo s 9) 0 { kind := 1, id := 0, prio := axPrio s 0, made := (loomTo s 9).clk.now } = false) ∧
    (ndOf (modNd line 0 (fun d => { d with muted := true })) 0).muted = true := by decide +kernel
/-- Lane 1 runs the axis job of axis 1, with some parameters. -/
def jobAt (p : BitVec 32) (xs : List (Nat × Nat × Int)) : State := { withPar (running 1 1 1) xs with clk.pstamp := p }
/-- The decode and the loops of that job meet no fault, and the loops that are due. -/
def jobFine (s : State) : Bool × List Bool :=
  let u := loomTo s 9
  let f := fbRun u 1 (idxCheck (axOf s 1)) (axOf s 1).sm.raw
  let v := jobReady (jobDecode u 1).1 1
  let x := axOf v 1
  (decide (laneRunning u 1 1 = some 1) && f.faults.isEmpty && f.done && decide (f.turns = 0) && !homing (axOf s 1) &&
    (loopsRun v 1 (psPick (ps s)) x.sm.raw x).2.isEmpty && axClosed x, (List.range 3).map (fun k => loopDue s 1 k (psPick (ps s))))
theorem wit_AxisJob : jobFine (jobAt 64 [(0x0103, 1, 4)]) = (true, [false, false, true]) ∧
    jobFine (jobAt 65 [(0x0103, 1, 6), (0x0104, 1, 0x100)]) = (true, [false, true, false]) ∧ axLoop (jobAt 65 [(0x0103, 1, 6), (0x0104, 1, 0x100)]) 1 2 = true ∧
    jobFine (jobAt 64 [(0x0103, 1, 1)]) = (true, [true, false, false]) ∧ jobFine (jobAt 64 [(0x0100, 1, 3)]) = (true, [true, false, false]) ∧
    axClass (jobAt 64 []) 1 = 1 ∧ axClass (jobAt 64 [(0x0100, 1, 3)]) 1 = 3 := by decide +kernel
/-- Lane 1 runs the profile job of axis 1 with a profile. -/
def profAt (f : AxProf → AxProf) : State := modAx (running 1 3 1) 1 (fun x => { x with prof := f x.prof })
/-- A positional entry and a velocity entry. -/
def posEntry : MoveEntry := descEntry (descOf (mv 1 65536)) (some 0)
def velEntry : MoveEntry := descEntry (descOf (mv 3 65536)) (some 0)
theorem wit_ProfileJob : laneRunning (loomTo (profAt id) 9) 3 1 = some 1 ∧ posEntry.kind ≠ 3 ∧ velEntry.kind = 3 ∧
    (∀ q ∈ [[], [posEntry], [velEntry]], let s := profAt (fun p => { p with queue := q, act := !q.isEmpty, v := 5 })
      (axOf s 1).prof.live = true ∧ (axOf s 1).prof.catchUp = none ∧ homing (axOf s 1) = false ∧ inGroup s 1 = false ∧ (axOf s 1).sm.st ≠ .fault ∧
      (axOf s 1).prof.limStop = false ∧ (axOf s 1).md.ovr = none ∧ (axOf s 1).prof.queue = q ∧ (axOf s 1).prof.v ≠ 0) ∧
    softAhead (withPar line [(0x0500, 1, 1)]) 1 1 = none := by decide +kernel
theorem wit_InterpolationJob : laneRunning (loomTo (withPar (running 1 2 3) [(0x0107, 1, 3)]) 9) 2 3 = some 1 := by decide +kernel
theorem wit_Records : sending line = true ∧ line.pair.swapSt ≠ 2 ∧ (line.warp.place.axes.map (·.axis)).Nodup ∧ 0 ∈ brList line ∧ 1 ∈ downAxes line 0 ∧
    (axOf (inSt 1 .disabled) 1).sm.st = .disabled ∧
    (let s := modSm (modMd line 1 (fun m => { m with body := .duty 5 6 7 })) 1 (fun x => { x with jobDone := true })
     (axOf s 1).sm.st = .enabled ∧ inGroup s 1 = false ∧ (axOf s 1).sm.jobDone = true ∧ (ndOf s (axNode s 1)).muted = false ∧ fbLostHolds s 1 = false ∧
     (axOf s 1).md.ovr = none ∧ (axOf s 1).md.body ≠ .none) := by decide +kernel
theorem wit_HardStop2 : let s := ax1 (fun x => { x with hm := { mode := 5, phase := 6, trip := some 64, par := [1, 1, 1, 0, 0, 0, 20], stallPs := some 45 } })
    hmJust s (axOf s 1).hm = true ∧ hmTstop (axOf s 1).hm ≤ psDiff (ps s) 45 + 1 := by decide
theorem wit_DarkTest : ∀ k ∈ [0, 4], (sogOf (modSog live 0 (fun y => { y with test := k, lsDue := true })).dmp 0).test = k := by decide

/-! ### The pair, again -/

/-- A segment of the partner with this PVER, in TRAINING with a partner of a role. -/
def segOf (v : Nat) : Bytes := let b := words [0x11 + 20 * 65536, 0, 0, v, 0, 0, 0]; b ++ le 4 (crc32c b)
def training (role pver : Nat) : State := { pairUp 1 with pair.partner := some { role := role, csid := 0, pver := pver } }
theorem wit_Training : frameValid (segOf line.boot.pver) = true ∧ word (segOf line.boot.pver) 3 % 256 = line.boot.pver ∧ selvedge (training 2 line.boot.pver) = true ∧
    (training 2 0).pair.link = true ∧ (training 2 0).pair.lstate = 1 ∧ partnerRole { role := 1, csid := 0, pver := 0 } = pairRole (training 1 0) ∧
    partnerRole { role := 2, csid := 0, pver := 0 } ≠ pairRole (training 2 0) ∧ line.boot.pver + 1 ≠ line.boot.pver := by decide +kernel
theorem wit_Items : (let s : State := { standby 3 with pair := { (standby 3).pair with iseqRcv := 5, iseqMiss := [(1, 2)] } }
     reached item1.iseq s.pair.iseqRcv = true ∧ itemHeld s.pair item1.iseq = false ∧ (∀ r ∈ s.pair.iseqMiss, r.2 < 2 ^ 31) ∧ itemHeld s.pair 3 = true) ∧
    itemHeld (standby 3).pair 1 = false ∧ itemNow (.acceptance (ent 5 []) 0x0601 none) = true ∧ (standby 3).clk.locked = true ∧ (standby 3).pair.swapSt = 0 ∧
    reached item1.pe 65 = false ∧ reached { item1 with pe := 65 }.pe 65 = true ∧ (standby 3).par.pends = [] := by decide
theorem wit_Bulk : let s : State := { standby 2 with clk.pstamp := 95, pair := { (standby 2).pair with bulkEnd := true, bulk := [.microstep 0 [1]] } }
    isStandby s = true ∧ s.clk.locked = true ∧ s.clk.started = true ∧ psPick (ps s) = 31 ∧ s.clk.boltDone = false ∧ s.pair.lstate = 2 ∧ s.pair.bulkEnd = true ∧
    s.pair.bulkDone = false ∧ s.pair.inbox = [] ∧ s.warp.result = none ∧ ∀ n, .base n ∉ s.pair.bulk := by
  refine ⟨by decide, by decide, by decide, by decide, by decide, by decide, by decide, by decide, by decide, by decide, ?_⟩
  intro n h
  simp at h
theorem wit_Swap : ({ standby 3 with pair := { (standby 3).pair with swapSt := 2, lastTko := 64 } } : State).pair.swapSt ≠ 0 ∧
    ((standby 3).clk.pstamp + 1 ≠ (64 : BitVec 32)) ∧ (pairUp 3).pair.swapAt = none ∧
    (let s : State := { standby 3 with clk.plenStop := 2 }
     isStandby s = true ∧ s.clk.plenStop = 2 ∧ markerPlen (0x4000000000 : BitVec 48) = s.clk.plenNew ∧ markerPlen 0 ≠ s.clk.plenNew) := by decide

end Sys2Proof.Tests
end

section
/-! What the shared operations leave alone, beyond the Laws: loops over tables, the mailboxes and rings that a completion does not write,
and the outcome of a row whose effect is framed. -/
open Sys2Proof Sys2Proof.Machine
namespace Sys2Proof.Machine

/-! ### Loops and tables -/

@[simp] theorem when_true (f : State → State) (s : State) : when true f s = f s := rfl
@[simp] theorem when_false (f : State → State) (s : State) : when false f s = s := rfl

section
variable {α : Type} {f : State → α → State} {s t : State} {xs : List α}

/-- A loop that does nothing at any of its turns leaves the state. -/
theorem forEach_id (h : ∀ x ∈ xs, f s x = s) : forEach xs f s = s := by
  unfold forEach
  induction xs with
  | nil => rfl
  | cons x xs ih => rw [List.foldl_cons, h x (by simp), ih fun y hy => h y (List.mem_cons_of_mem _ hy)]

/-- A loop that acts at one turn only makes that turn. -/
theorem forEach_only {x : α} (hn : xs.Nodup) (hx : x ∈ xs) (h : f s x = t) (hs : ∀ y ∈ xs, y ≠ x → f s y = s) (ht : ∀ y ∈ xs, y ≠ x → f t y = t) :
    forEach xs f s = t := by
  induction xs with
  | nil => simp at hx
  | cons y ys ih =>
    obtain ⟨hy, hn⟩ := List.nodup_cons.mp hn
    show forEach ys f (f s y) = t
    by_cases hyx : y = x
    · subst hyx
      rw [h]
      exact forEach_id fun z hz => ht z (List.mem_cons_of_mem _ hz) fun he => hy (he ▸ hz)
    · rw [hs y (by simp) hyx]
      exact ih hn ((List.mem_cons.mp hx).resolve_left (Ne.symm hyx)) (fun z hz => hs z (List.mem_cons_of_mem _ hz)) fun z hz => ht z (List.mem_cons_of_mem _ hz)

/-- What every turn of a loop leaves, the loop leaves. -/
theorem forEach_leaves {β : Type} (p : State → β) (h : ∀ t, ∀ x ∈ xs, p (f t x) = p t) : p (forEach xs f s) = p s := by
  unfold forEach
  induction xs generalizing s with
  | nil => rfl
  | cons x xs ih => rw [List.foldl_cons, ih fun t y hy => h t y (List.mem_cons_of_mem _ hy), h s x (by simp)]
end

theorem tabFind_map {α : Type} (g : α → α) (t : Tab α) (k : Nat) : tabFind (t.map fun q => (q.1, g q.2)) k = (tabFind t k).map g := by
  induction t with
  | nil => rfl
  | cons q t ih =>
    simp only [List.map_cons, tabFind]
    split <;> simp [ih]

/-- A part of the records that a change of all of them sets, as it stands in the default. -/
theorem tabGet_map_set {α β : Type} (p : α → β) (d : α) (g : α → α) (c : β) (hg : ∀ x, p (g x) = c) (hd : p d = c) (t : Tab α) (k : Nat) :
    p (tabGet d (t.map fun q => (q.1, g q.2)) k) = c := by
  unfold tabGet
  rw [tabFind_map]
  cases tabFind t k <;> simp [hg, hd]

/-- The record of a key in a table made from a list of keys. -/
theorem tabFind_keys {α : Type} (g : Nat → α) (xs : List Nat) (k : Nat) : tabFind (xs.map fun i => (i, g i)) k = if k ∈ xs then some (g k) else none := by
  induction xs with
  | nil => rfl
  | cons x xs ih =>
    simp only [List.map_cons, tabFind, ih, List.mem_cons]
    by_cases h : x = k
    · simp [h]
    · simp [h, Ne.symm h]

/-! ### Outcomes -/

/-- The outcome of a row whose effect is framed by what it keeps. -/
theorem finishD_quiet {s u t : State} (h : quiet u t) (hp : u.pending = s.pending := by rfl) (hd : u.ddr = s.ddr := by rfl) (hm : u.dmp = s.dmp := by rfl) :
    finishD s t = .next t := by
  unfold quiet at h
  rw [finishD, h, ← hp, ← hd, ← hm]

/-! ### Rings and mailboxes -/

/-- Writing to rings changes mailboxes, the QSPI registers, the debug port and the CAN channels only. -/
def ringFrame (s t : State) : Prop := t = { s with mbs := t.mbs, qspi := t.qspi, hed := t.hed, cans := t.cans }

theorem ringFrame.refl (s : State) : ringFrame s s := rfl
theorem ringFrame.trans {s t u : State} (h : ringFrame s t) (k : ringFrame t u) : ringFrame s u := by
  unfold ringFrame at *
  rw [k, h]
theorem ringFrame.pair {s t : State} (h : ringFrame s t) : t.pair = s.pair := by unfold ringFrame at h; rw [h]
theorem ringFrame.log {s t : State} (h : ringFrame s t) : t.log = s.log := by unfold ringFrame at h; rw [h]

theorem ringFrame_gwPump (c n : Nat) (s : State) : ringFrame s (gwPump s c n) := by
  induction n generalizing s with
  | zero => exact .refl s
  | succ n ih =>
    simp only [gwPump]
    split
    · split
      · refine ringFrame.trans ?_ (ih _)
        unfold gwStart
        simp only []
        split <;> rfl
      · exact .refl s
    · exact .refl s

theorem ringFrame_ringPut (s : State) (m : Nat) (x : RingEntry) : ringFrame s (ringPut s m x) := by
  unfold ringPut
  split
  · exact .refl s
  · split
    · split <;> rfl
    · split
      · exact ringFrame.trans (t := modCan s _ _) rfl (ringFrame_gwPump _ 4 _)
      · simp only []
        split <;> rfl

theorem ringFrame_evtFlush (m n : Nat) (s : State) : ringFrame s (evtFlush m n s) := by
  induction n generalizing s with
  | zero => exact .refl s
  | succ n ih =>
    refine ringFrame.trans (t := evtPut s m) ?_ (ih _)
    unfold evtPut
    split
    · exact .refl s
    · split
      · exact .refl s
      · exact ringFrame.trans (t := modMb s m _) rfl (ringFrame_ringPut _ m _)

theorem ringFrame_writeCpl (s : State) (m : Nat) (c : Cpl) : ringFrame s (writeCpl s m c) := by
  have h : ringFrame s (evtsFirst s m) := by
    unfold evtsFirst
    split
    · exact ringFrame_evtFlush m _ s
    · exact .refl s
  refine h.trans ?_
  show ringFrame _ (cplPut _ m c)
  unfold cplPut
  split
  · exact ringFrame.trans (t := modMb _ m _) rfl (ringFrame_ringPut _ m _)
  · rfl

/-- An entry on the ring of a master leaves the mailboxes of the others. -/
theorem mbOf_ringPut_other (s : State) {m k : Nat} (x : RingEntry) (h : k ≠ m) : mbOf (ringPut s m x) k = mbOf s k := by
  unfold ringPut
  split
  · rfl
  · split
    · split <;> rfl
    · split
      · unfold gwSend mbOf; rw [mbs_gwPump]; rfl
      · simp only []
        have hr : mbOf (modMb s m fun mb => { mb with ring := mb.ring ++ [x] }) k = mbOf s k := mbOf_modMb_other s _ h
        split
        · exact hr
        · exact hr

theorem mbOf_evtFlush_other {m k : Nat} (h : k ≠ m) (n : Nat) (s : State) : mbOf (evtFlush m n s) k = mbOf s k := by
  induction n generalizing s with
  | zero => rfl
  | succ n ih =>
    rw [evtFlush, ih]
    unfold evtPut
    split
    · rfl
    · split
      · rfl
      · rw [mbOf_ringPut_other _ _ h, mbOf_modMb_other _ _ h]

theorem mbOf_writeCpl_other (s : State) {m k : Nat} (c : Cpl) (h : k ≠ m) : mbOf (writeCpl s m c) k = mbOf s k := by
  have he : mbOf (evtsFirst s m) k = mbOf s k := by
    unfold evtsFirst
    split
    · exact mbOf_evtFlush_other h _ s
    · rfl
  rw [← he]
  show mbOf (cplPut _ m c) k = _
  unfold cplPut
  split
  · rw [mbOf_ringPut_other _ _ h, mbOf_modMb_other _ _ h]
  · exact mbOf_modMb_other _ _ h

/-- A completion of a master leaves the mailboxes of the others. -/
theorem mbOf_produce_other (s : State) {m k : Nat} (f : Flight) (st : Nat) (pl : Bytes) (h : k ≠ m) : mbOf (produce s m f st pl) k = mbOf s k := by
  show mbOf (writeCpl _ m _) k = _
  rw [mbOf_writeCpl_other _ _ h]
  unfold mbOf
  rw [mbs_cplItem]
  exact mbOf_modMb_other s _ h

theorem link_itemAdd (s : State) (b : ItemBody) (bolt : Bool) : (itemAdd s b bolt).link = s.pair.link := by
  simp only [itemAdd]
  split <;> rfl
theorem link_sendItem (s : State) (b : ItemBody) : (sendItem s b).pair.link = s.pair.link := by
  unfold sendItem
  split
  · exact link_itemAdd s b false
  · rfl
theorem link_cplItem (s : State) (m : Nat) (c : Cpl) : (cplItem s m c).pair.link = s.pair.link := by
  unfold cplItem
  split
  · exact link_sendItem _ _
  · rfl
theorem pair_writeCpl (s : State) (m : Nat) (c : Cpl) : (writeCpl s m c).pair = s.pair := (ringFrame_writeCpl s m c).pair
/-- A completion leaves the state of the link to the partner. -/
theorem link_produce (s : State) (m : Nat) (f : Flight) (st : Nat) (pl : Bytes) : (produce s m f st pl).pair.link = s.pair.link := by
  unfold produce
  rw [pair_writeCpl, link_cplItem, modMb_pair]

/-! ### Commands that wait -/

/-- Where one command is in flight and its wait ends, it completes and nothing else happens. -/
theorem completeWaits_only {s : State} {p : Wait → Bool} {m : Nat} {f : Flight} {w : Wait} (st : Nat) (pl : Bytes) (hm : m < 12) (hf : (mbOf s m).flights = [f])
    (hw : f.wait = some w) (hp : p w = true) (ho : ∀ k < 12, k ≠ m → (mbOf s k).flights = []) : completeWaits s p st pl = produce s m f st pl := by
  refine forEach_only List.nodup_range (List.mem_range.mpr hm) ?_ (fun k hk hkm => ?_) (fun k hk hkm => ?_)
  · simp only [hf, List.filter_cons, hw, hp, if_true]; rfl
  · simp only [ho k (List.mem_range.mp hk) hkm]; rfl
  · simp only [mbOf_produce_other s f st pl hkm, ho k (List.mem_range.mp hk) hkm]; rfl

theorem link_completeWaits (s : State) (p : Wait → Bool) (st : Nat) (pl : Bytes) : (completeWaits s p st pl).pair.link = s.pair.link := by
  unfold completeWaits
  refine forEach_leaves (fun t => t.pair.link) fun t m _ => ?_
  exact forEach_leaves (fun t => t.pair.link) fun u f _ => link_produce u m f st pl

end Sys2Proof.Machine
end

section
open Sys2Proof Sys2Proof.Machine
namespace Sys2Proof.Machine

/-! ### Events -/

/-- An event that is raised is in the log. -/
theorem logged_raise (s : State) (c i : Nat) (pl : Bytes) : logged (raise s c i pl) c i := by
  refine ⟨{ lseq := s.log.next, code := c, inst := i, pstamp := ps s, payload := pl, tstamp := s.clk.now,
            t0 := s.ptp.t0, h0s := s.ptp.h0s, h0ns := s.ptp.h0ns, rho := s.ptp.rho }, ?_, rfl, rfl⟩
  show _ ∈ List.take 524288 (_ :: _)
  rw [List.take_cons (by decide)]
  exact List.mem_cons_self

/-! ### The host clock (R37 to R39) -/

section
variable {s : State} {mac : MacNo} {msg : PtpMsg}

/-- A message is valid where each of the conditions of R37 holds. -/
theorem ptpValid_iff : ptpValid s mac msg = true ↔
    ptpOn s mac = true ∧ msg.ipv6 = false ∧ msg.otherProfile = false ∧ msg.kind ≠ .peerDelay ∧ msg.domain ≤ 127 ∧ pnat s 0x0A22 0 = msg.domain := by
  cases hk : msg.kind <;> simp [ptpValid, hk, and_assoc]

/-- A valid message moves the time stamp on and is taken by the clock. -/
theorem exec_ptp_valid (h : ptpValid s mac msg = true) : exec (.ptpMessageReceive mac msg) s =
    .next { s with clk.now := max s.clk.now msg.tstamp, ptp := { ptpTake msg s.ptp with lastT := some msg.tstamp } } := by
  show finishD s (when _ _ s) = _
  rw [h]; rfl

/-- Any other message changes nothing. -/
theorem exec_ptp_invalid (h : ptpValid s mac msg = false) : exec (.ptpMessageReceive mac msg) s = .next s := by
  show finishD s (when _ _ s) = _
  rw [h]; rfl
end

/-- The mapping that has become invalid (R39). -/
theorem ptpInvalid_spec (s : State) : quiet { s with ptp := (ptpInvalid s).ptp } (ptpInvalid s) ∧ mapped (ptpInvalid s) = false ∧
    (ptpInvalid s).ptp.h0s = 0 ∧ (ptpInvalid s).ptp.h0ns = 0 ∧ (ptpInvalid s).ptp.lastT = none ∧
    (s.ptp.lost = false → logged (ptpInvalid s) 0xF102 0xFFFF) ∧ (s.ptp.lost = true → (ptpInvalid s).log = s.log) := by
  unfold ptpInvalid
  cases h : s.ptp.lost
  · exact ⟨rfl, rfl, rfl, rfl, rfl, fun _ => logged_raise _ _ _ _, by simp⟩
  · exact ⟨rfl, rfl, rfl, rfl, rfl, by simp, fun _ => rfl⟩

end Sys2Proof.Machine

/-- Settles O32: a valid message is taken as its kind says, every other one is dropped, and the time-out makes the mapping invalid. -/
theorem hostClockRows : Obligations.HostClockRows := by
  unfold Obligations.HostClockRows
  intro s mac msg
  refine ⟨fun hon h6 hp hd hdom => ?_, fun hbad => ?_, fun hen => ?_, fun hen => ?_⟩
  · have take : msg.kind ≠ .peerDelay → ∀ p : Ptp, ptpTake msg s.ptp = p → exec (.ptpMessageReceive mac msg) s =
        .next { s with clk.now := max s.clk.now msg.tstamp, ptp := { p with lastT := some msg.tstamp } } := by
      rintro hk p rfl
      exact exec_ptp_valid (ptpValid_iff.mpr ⟨hon, h6, hp, hk, hd, hdom⟩)
    refine ⟨fun hk => ?_, fun hk => ?_, fun t hk hsync => ?_, fun sent hk => ?_, fun hk => ?_⟩
    all_goals refine take (by simp [hk]) _ ?_
    · simp only [ptpTake, hk]
    · simp only [ptpTake, hk, ptpSync]
    · simp only [ptpTake, hk, hsync, if_true, ptpSync]
    · simp only [ptpTake, hk]
    · simp only [ptpTake, hk]
  · refine exec_ptp_invalid (Bool.eq_false_iff.mpr fun hv => ?_)
    obtain ⟨hon, h6, hp, hk, hd, hdom⟩ := ptpValid_iff.mp hv
    rcases hbad with h | h | h | h | h | h
    · simp [hon] at h
    · simp [h6] at h
    · simp [hp] at h
    · omega
    · exact h hdom
    · exact hk h
  · refine ⟨ptpInvalid s, ?_, ptpInvalid_spec s⟩
    show finishD s (when (decide (pnat s 0x0A20 0 = 1)) ptpInvalid s) = _
    have h := (ptpInvalid_spec s).1
    unfold quiet at h
    rw [decide_eq_true hen, finishD, when, if_pos rfl]
    rw [h]
  · show finishD s (when (decide (pnat s 0x0A20 0 = 1)) ptpInvalid s) = _
    rw [decide_eq_false hen]; rfl
end

section
open Sys2Proof Sys2Proof.Machine
namespace Sys2Proof.Machine

/-! ### Restarts (R495 to R498, R504, R507) -/

/-- The groups of a Damper that starts again: LOCKOUT where the register keeps it, RESTART else (R446). -/
theorem sogOf_dmpReset (d : Damper) (hard : Bool) (g : Nat) (hg : g < 4) :
    (sogOf (dmpReset d hard) g).st = if d.retain.getLsbD g then 3 else 2 := by
  simp only [sogOf, dmpReset, tabGet, tabFind_keys, List.mem_filter, List.mem_range, hg, true_and]
  cases d.retain.getLsbD g <;> rfl

/-- A restart that is no reset by nRESET or a supply. -/
theorem chipReset_restarted (s : State) (c : Nat) : restarted s { chipReset s c with pending := s.pending } c :=
  ⟨rfl, rfl, rfl, rfl, rfl, rfl, rfl, rfl, rfl, rfl, rfl, rfl, rfl, rfl, rfl, rfl, rfl, rfl, rfl, rfl, rfl,
    fun g => sogOf_dmpReset s.dmp _ g g.isLt⟩

/-! ### Loss of the clock (R22) -/

theorem quiet_partnerDone (s : State) (p : BitVec 32 → Bool) : quiet s (partnerDone s p) :=
  forEach_keeps quiet quiet.refl quiet.trans _ _ (fun t m => forEach_keeps quiet quiet.refl quiet.trans _ _ (fun u f => quiet_produce u m f 0 _) t) s

theorem link_partnerDone (s : State) (p : BitVec 32 → Bool) : (partnerDone s p).pair.link = s.pair.link := by
  unfold partnerDone
  refine forEach_leaves (fun t => t.pair.link) fun t m _ => ?_
  exact forEach_leaves (fun t => t.pair.link) fun u f _ => link_produce u m f 0 _

/-- The record of the pair when LSTATE goes to DOWN. -/
def pairCleared (s : State) : State :=
  { s with pair := { s.pair with lstate := 0, drops := satInc 16 s.pair.drops, outbox := [], bulkOut := [], swapAt := none, bulk := [], bulkEnd := false,
                                 bulkDone := false, bulkPct := 0, frames := 0, syncBolts := 0 } }

theorem pairDown_eq (s : State) (c : Nat) : pairDown s c = if s.pair.lstate = 0 then s else
    partnerDone (when s.pair.swapAt.isSome (fun t => completeWaits t (fun w => w = .swap) 0xE002 []) (raise (pairCleared s) 0xE102 noInst (le 1 c))) (fun _ => true) := rfl

theorem quiet_when {f : State → State} (c : Bool) (h : ∀ t, quiet t (f t)) (s : State) : quiet s (when c f s) := by
  cases c
  · exact .refl s
  · exact h s

theorem quiet_pairDown (s : State) (c : Nat) : quiet s (pairDown s c) := by
  rw [pairDown_eq]
  split
  · exact .refl s
  · have h : quiet s (raise (pairCleared s) 0xE102 noInst (le 1 c)) := rfl
    exact (h.trans (quiet_when _ (fun t => quiet_completeWaits t _ _ _) _)).trans (quiet_partnerDone _ _)

theorem link_pairDown (s : State) (c : Nat) : (pairDown s c).pair.link = s.pair.link := by
  rw [pairDown_eq]
  split
  · rfl
  · rw [link_partnerDone]
    cases s.pair.swapAt.isSome
    · rfl
    · rw [when_true, link_completeWaits]; rfl

/-- The effect of a loss of the clock before the pair and the event. -/
def clockStopped (s : State) : State :=
  { s with clk := { s.clk with locked := false, txStopped := true, markers := false, pickOut := 0 }, net := { s.net with phase := .off, toPower := [] },
           brs := s.brs.map (fun (q : Nat × Branch) => (q.1, { q.2 with markers := false, markFrom := none, resume := false })) }

theorem clockStopped_markers (s : State) (b : Nat) : (brOf (clockStopped s) b).markers = false :=
  tabGet_map_set (fun x : Branch => x.markers) {} (fun x => { x with markers := false, markFrom := none, resume := false }) false (fun _ => rfl) rfl s.brs b

theorem exec_pllLockLoss_locked {s : State} (hr : heldReset s = false) (hl : s.clk.locked = true) : exec .pllLockLoss s = finishD s
    (if s.boot.ready then raise (pairDown { clockStopped s with pair.link := false } 1) 0xF101 noInst []
     else { clockStopped s with boot.afterReady := s.boot.afterReady ++ [(0xF101, noInst)] }) := by
  show finishD s (if atStep s 0 = true ∧ s.clk.locked = false then _ else when (!heldReset s && s.clk.locked) _ s) = _
  rw [if_neg (by simp [hl]), hr, hl]
  rfl

theorem pllLockLoss_locked {s : State} (hr : heldReset s = false) (hl : s.clk.locked = true) : goes .pllLockLoss s (fun t =>
    quiet { s with clk := { s.clk with locked := false, txStopped := true, markers := false, pickOut := 0 }, net := { s.net with phase := .off, toPower := [] },
                   brs := t.brs, boot := t.boot } t ∧ (∀ b, (brOf t b).markers = false) ∧ (s.boot.ready = true → t.boot = s.boot ∧ t.pair.link = false)) := by
  unfold goes
  rw [exec_pllLockLoss_locked hr hl]
  cases s.boot.ready
  · exact ⟨_, rfl, rfl, clockStopped_markers s, by simp⟩
  · have hq := quiet_pairDown { clockStopped s with pair.link := false } 1
    have hk := link_pairDown { clockStopped s with pair.link := false } 1
    generalize pairDown { clockStopped s with pair.link := false } 1 = u at hq hk
    unfold quiet at hq
    refine ⟨_, rfl, ?_, fun b => ?_, fun _ => ⟨?_, hk⟩⟩
    · show quiet _ _
      unfold quiet
      rw [if_pos rfl, hq]
      rfl
    · show (tabGet {} u.brs b).markers = false
      rw [hq]
      exact clockStopped_markers s b
    · show u.boot = s.boot
      rw [hq]
      rfl

theorem exec_pllLockLoss_retry {s : State} (h0 : atStep s 0 = true) (hl : s.clk.locked = false) : exec .pllLockLoss s = .next { s with boot.err := 1 } := by
  show finishD s (if atStep s 0 = true ∧ s.clk.locked = false then _ else when (!heldReset s && s.clk.locked) _ s) = _
  rw [if_pos ⟨h0, hl⟩]; rfl

theorem exec_pllLockLoss_idle {s : State} (h0 : atStep s 0 = false) (h : heldReset s = true ∨ s.clk.locked = false) : exec .pllLockLoss s = .next s := by
  show finishD s (if atStep s 0 = true ∧ s.clk.locked = false then _ else when (!heldReset s && s.clk.locked) _ s) = _
  have hw : (!heldReset s && s.clk.locked) = false := by rcases h with h | h <;> simp [h]
  rw [if_neg (by simp [h0]), hw]; rfl

/-! ### The DDR (R506 to R509) -/

section
variable {s : State}

theorem exec_ddrInit_next (hr : s.boot.ready = true) (hg : s.boot.granule < 3839) :
    exec .ddrInitGranule s = .next { s with boot.granule := s.boot.granule + 1 } := by
  show finishD s (when (s.boot.ready && decide (s.boot.granule < 3840)) _ s) = _
  rw [hr, decide_eq_true (by omega : s.boot.granule < 3840), Bool.and_self, when_true, if_neg (show s.boot.granule + 1 ≠ 3840 by omega)]
  rfl

theorem exec_ddrInit_last (hr : s.boot.ready = true) (hg : s.boot.granule = 3839) :
    exec .ddrInitGranule s = .next (raise { s with boot := { s.boot with granule := 3840, ddrDone := true } } 0xF103 noInst []) := by
  show finishD s (when (s.boot.ready && decide (s.boot.granule < 3840)) _ s) = _
  rw [hr, decide_eq_true (by omega : s.boot.granule < 3840), Bool.and_self, when_true, if_pos (show s.boot.granule + 1 = 3840 by omega), hg]
  rfl

theorem exec_ddrInit_idle (h : s.boot.ready = false ∨ 3840 ≤ s.boot.granule) : exec .ddrInitGranule s = .next s := by
  show finishD s (when (s.boot.ready && decide (s.boot.granule < 3840)) _ s) = _
  have hw : (s.boot.ready && decide (s.boot.granule < 3840)) = false := by
    rcases h with h | h
    · simp [h]
    · simp [Nat.not_lt.mpr h]
  rw [hw]; rfl

theorem exec_scrub_ready (x : EccResult) (h : scrubReady s = true) : exec (.ddrScrubBurst x) s = finishAll s (scrubBurst s x) := by
  show finishAll s (when (scrubReady s) _ s) = _
  rw [h]; rfl

theorem exec_scrub_idle (x : EccResult) (h : scrubReady s = false) : exec (.ddrScrubBurst x) s = .next s := by
  show finishAll s (when (scrubReady s) _ s) = _
  rw [h]; rfl

theorem scrubNext_step (h : s.boot.scrubAt < 67108863) : scrubNext s = { s with boot.scrubAt := s.boot.scrubAt + 1 } := if_neg (by omega)
theorem scrubNext_wrap (h : s.boot.scrubAt = 67108863) : scrubNext s = { s with boot := { s.boot with scrubAt := 0, scrubT := s.clk.now } } := if_pos h
end

/-- The scrubber goes on in its own counters. -/
theorem scrubNext_boot (s : State) : ∃ b : Boot, scrubNext s = { s with boot := b } ∧ b.uncorr = s.boot.uncorr ∧ b.lostBursts = s.boot.lostBursts := by
  unfold scrubNext
  split
  · exact ⟨_, rfl, rfl, rfl⟩
  · exact ⟨_, rfl, rfl, rfl⟩

/-- The counters with a burst of the pool lost. -/
def lostBoot (s : State) : Boot :=
  { s.boot with uncorr := satInc 16 s.boot.uncorr,
                lostBursts := if s.boot.lostBursts.contains s.boot.scrubAt then s.boot.lostBursts else s.boot.scrubAt :: s.boot.lostBursts }

theorem mem_lostBoot (s : State) : s.boot.scrubAt ∈ (lostBoot s).lostBursts := by
  unfold lostBoot
  simp only []
  split
  · next h => exact List.contains_iff_mem.mp h
  · exact List.mem_cons_self

/-- A block that is lost is marked, and no capture comes or goes. -/
theorem capsLose_seqs (k : Nat) (cs : List Capture) : (capsLose k cs).map (·.seq) = cs.map (·.seq) := by
  induction cs generalizing k with
  | nil => rfl
  | cons c cs ih =>
    simp only [capsLose]
    split
    · rfl
    · simp [ih]

/-- What a lost burst of the pool leaves: everything but blocks of one region (R507). -/
structure PoolLost (s t : State) : Prop where
  rest : t = { s with kiln := t.kiln, freeCtr := t.freeCtr }
  units : ∀ u, (unOf t u).st = (unOf s u).st ∧ (unOf t u).caps.map (·.seq) = (unOf s u).caps.map (·.seq)
  free : s.warp.place.acq = [] → s.warp.place.axes = [] → t.kiln = s.kiln

theorem poolLose_lost (s : State) (burst : Nat) : PoolLost s (poolLose s burst) := by
  unfold poolLose
  simp only []
  split
  · next p hp =>
    refine ⟨rfl, fun u => ?_, fun h => by simp [h] at hp⟩
    by_cases hu : u = p.1
    · subst hu
      rw [unOf_modUn]
      exact ⟨rfl, capsLose_seqs _ _⟩
    · rw [unOf_modUn_other _ _ hu]
      exact ⟨rfl, rfl⟩
  · split
    · next p hp => exact ⟨rfl, fun _ => ⟨rfl, rfl⟩, fun _ h => by simp [h] at hp⟩
    · exact ⟨rfl, fun _ => ⟨rfl, rfl⟩, fun _ _ => rfl⟩

/-- An uncorrectable error in the pool (R507, R509). -/
theorem scrub_pool {s : State} (hr : scrubReady s = true) (hp : poolBurst ≤ s.boot.scrubAt) : goes (.ddrScrubBurst .uncorrectable) s (fun t =>
    s.boot.scrubAt ∈ t.boot.lostBursts ∧ t.boot.uncorr = satInc 16 s.boot.uncorr ∧ t = { s with boot := t.boot, kiln := t.kiln, freeCtr := t.freeCtr } ∧
    (∀ u, (unOf t u).st = (unOf s u).st ∧ (unOf t u).caps.map (·.seq) = (unOf s u).caps.map (·.seq)) ∧
    (s.warp.place.acq = [] → s.warp.place.axes = [] → t.kiln = s.kiln)) := by
  unfold goes
  have he : exec (.ddrScrubBurst .uncorrectable) s = finishAll s (scrubNext { poolLose s s.boot.scrubAt with boot := lostBoot s }) := by
    rw [exec_scrub_ready _ hr, scrubBurst, if_neg (by omega)]; rfl
  obtain ⟨hrest, hunits, hfree⟩ := poolLose_lost s s.boot.scrubAt
  generalize poolLose s s.boot.scrubAt = u at he hrest hunits hfree
  obtain ⟨b, hn, hu, hl⟩ := scrubNext_boot { u with boot := lostBoot s }
  refine ⟨_, he, ?_⟩
  rw [hn]
  exact ⟨hl ▸ mem_lostBoot s, hu, by rw [hrest], hunits, hfree⟩

/-! ### The die temperature (R529) -/

/-- The reading that TJ_HIGH notes. -/
def tjBoot (s : State) : Boot :=
  { s.boot with tjHigh := true, dieTemp := if s.clk.started then s.boot.dieTemp else max s.boot.dieTemp (150 * 256) }

theorem exec_tjHigh_hot {s : State} (hr : heldReset s = false) (ht : s.boot.tjHigh = false) (hs : s.clk.started = false ∨ 150 * 256 ≤ s.boot.dieTemp) :
    exec .tjHigh s = finishD s (if s.boot.ready then raise { s with boot := tjBoot s } 0xF108 noInst []
      else { s with boot := { tjBoot s with afterReady := s.boot.afterReady ++ [(0xF108, noInst)] } }) := by
  show finishD s (when (!heldReset s && (!s.clk.started || decide (150 * 256 ≤ s.boot.dieTemp)) && !s.boot.tjHigh) _ s) = _
  have hc : (!s.clk.started || decide (150 * 256 ≤ s.boot.dieTemp)) = true := by
    rcases hs with h | h
    · rw [h]; rfl
    · rw [decide_eq_true h, Bool.or_true]
  rw [hr, ht, hc]
  rfl

theorem exec_tjHigh_idle {s : State} (h : heldReset s = true ∨ s.boot.tjHigh = true ∨ (s.clk.started = true ∧ s.boot.dieTemp < 150 * 256)) :
    exec .tjHigh s = .next s := by
  show finishD s (when (!heldReset s && (!s.clk.started || decide (150 * 256 ≤ s.boot.dieTemp)) && !s.boot.tjHigh) _ s) = _
  have hw : (!heldReset s && (!s.clk.started || decide (150 * 256 ≤ s.boot.dieTemp)) && !s.boot.tjHigh) = false := by
    rcases h with h | h | ⟨h1, h2⟩
    · simp [h]
    · simp [h]
    · rw [h1, decide_eq_false (Int.not_le.mpr h2)]; simp
  rw [hw]; rfl

/-! ### The firmware slot (R504) -/

/-- A verification waits for the slot. -/
def verifyWaits (s : State) : Bool := (List.range 12).any (fun m => (mbOf s m).flights.any (fun f => f.wait = some .fwVerify))

theorem verifyWaits_true {s : State} {m : Nat} {f : Flight} (hm : m < 12) (hf : f ∈ (mbOf s m).flights) (hw : f.wait = some .fwVerify) : verifyWaits s = true :=
  List.any_eq_true.mpr ⟨m, List.mem_range.mpr hm, List.any_eq_true.mpr ⟨f, hf, by simp [hw]⟩⟩
theorem verifyWaits_false {s : State} (h : ∀ m < 12, ∀ f ∈ (mbOf s m).flights, f.wait ≠ some .fwVerify) : verifyWaits s = false := by
  simp only [verifyWaits, List.any_eq_false, List.mem_range]
  intro m hm
  simp only [Bool.not_eq_true, List.any_eq_false, decide_eq_true_eq]
  exact h m hm

/-- The erase has ended. -/
def erased (s : State) (ok : Bool) : State := { s with fw := { s.fw with erasing := false, eraseBad := !ok } }
/-- Programming has ended. -/
def programmed (s : State) (ok : Bool) : State := { s with fw := { s.fw with programming := false, verified := ok } }

theorem exec_eraseDone {s : State} (ok : Bool) (he : s.fw.erasing = true) : exec (.fwSlotEraseDone ok) s = finishD s
    (if verifyWaits s && ok then { s with fw := { (erased s ok).fw with programming := true, verified := false } } else fwAnswer (erased s ok) 0xF004) := by
  show finishD s (when s.fw.erasing _ s) = _
  rw [he]; rfl

theorem exec_programDone {s : State} (ok : Bool) (hp : s.fw.programming = true) :
    exec (.fwSlotProgramDone ok) s = finishD s (fwAnswer (programmed s ok) (if ok then 0 else 0xF004)) := by
  show finishD s (when s.fw.programming _ s) = _
  rw [hp]; rfl

theorem quiet_fwAnswer (s : State) (st : Nat) : quiet s (fwAnswer s st) := quiet_completeWaits s _ st []

/-- The only command in flight, a verification, completes with the result. -/
theorem journal_fwAnswer {s : State} {m : Nat} {f : Flight} (st : Nat) (hm : m < 12) (hf : (mbOf s m).flights = [f]) (hw : f.wait = some .fwVerify)
    (ho : ∀ k < 12, k ≠ m → (mbOf s k).flights = []) : (mbOf (fwAnswer s st) m).journal.head? = some (cplMake s f st []) := by
  rw [fwAnswer, completeWaits_only st [] hm hf hw (by simp) ho]
  exact journal_produce s m f st []

end Sys2Proof.Machine

/-- Settles O30: each row by what its effect does where its condition holds, and by the idle case where it does not. -/
theorem clockMemoryAndRestartRows : Obligations.ClockMemoryAndRestartRows := by
  unfold Obligations.ClockMemoryAndRestartRows
  intro s
  refine ⟨pllLockLoss_locked, exec_pllLockLoss_retry, exec_pllLockLoss_idle, fun hr hh h5 => ?_, fun h5 => ?_, fun hd => ?_, fun hd => ?_,
    exec_ddrInit_next, fun hr hg => ⟨_, exec_ddrInit_last hr hg, rfl, rfl⟩, exec_ddrInit_idle, fun hr ha => ⟨?_, ?_⟩, fun hr ha => ?_, fun hr ha => ?_,
    scrub_pool, fun x => exec_scrub_idle x, fun hr ht hs => ⟨fun hy => ?_, fun hy => ?_⟩, exec_tjHigh_idle, fun ok he hv => ?_, fun m f he hm hf hw => ?_,
    fun m f he hm hf hw ho => ?_, fun ok he => ?_, fun ok hp => ?_, fun ok m f hp hm hf hw ho => ?_, fun ok hp => ?_⟩
  · refine ⟨_, ?_, chipReset_restarted s 1⟩
    show finishAll s (when (!heldReset s && !s.boot.halted && decide (5 ≤ s.boot.stage)) _ s) = _
    rw [hr, hh, decide_eq_true h5]; rfl
  · show finishAll s (when (!heldReset s && !s.boot.halted && decide (5 ≤ s.boot.stage)) _ s) = _
    rw [decide_eq_false (Nat.not_le.mpr h5), Bool.and_false]; rfl
  · refine ⟨_, ?_, chipReset_restarted s 2⟩
    show finishAll s (when s.fw.restartDue _ s) = _
    rw [hd]; rfl
  · show finishAll s (when s.fw.restartDue _ s) = _
    rw [hd]; rfl
  · rw [exec_scrub_ready _ hr, scrubBurst, scrubNext_step ha]; rfl
  · rw [exec_scrub_ready _ hr]
    exact congrArg (finishAll s) (scrubNext_step (s := { s with boot.corr := satInc 32 s.boot.corr }) ha)
  · rw [exec_scrub_ready _ hr, scrubBurst, scrubNext_wrap ha]; rfl
  · refine ⟨_, ?_, chipReset_restarted s 3⟩
    rw [exec_scrub_ready _ hr, scrubBurst, if_pos ha]; rfl
  · refine ⟨raise { s with boot := tjBoot s } 0xF108 noInst [], ?_, rfl, rfl⟩
    rw [exec_tjHigh_hot hr ht hs, if_pos hy]; rfl
  · rw [exec_tjHigh_hot hr ht hs, if_neg (by simp [hy])]; rfl
  · have hn : (verifyWaits s && ok) = false := by
      rcases hv with rfl | hv
      · simp
      · simp [verifyWaits_false hv]
    refine ⟨_, ?_, quiet_fwAnswer (erased s ok) 0xF004⟩
    rw [exec_eraseDone ok he, hn]
    exact finishD_quiet (quiet_fwAnswer (erased s ok) 0xF004)
  · rw [exec_eraseDone true he, verifyWaits_true hm hf hw]; rfl
  · refine ⟨_, ?_, journal_fwAnswer (s := erased s false) 0xF004 hm hf hw ho⟩
    rw [exec_eraseDone false he, Bool.and_false]
    exact finishD_quiet (quiet_fwAnswer (erased s false) 0xF004)
  · show finishD s (when s.fw.erasing _ s) = _
    rw [he]; rfl
  · refine ⟨_, ?_, quiet_fwAnswer (programmed s ok) (if ok then 0 else 0xF004)⟩
    rw [exec_programDone ok hp]
    exact finishD_quiet (quiet_fwAnswer (programmed s ok) _)
  · refine ⟨_, ?_, journal_fwAnswer (s := programmed s ok) (if ok then 0 else 0xF004) hm hf hw ho⟩
    rw [exec_programDone ok hp]
    exact finishD_quiet (quiet_fwAnswer (programmed s ok) _)
  · show finishD s (when s.fw.programming _ s) = _
    rw [hp]; rfl
end

section
/-! Frames: which fields the shared operations of a pick and of a bolt can change, said once for each operation. -/
open Sys2Proof Sys2Proof.Machine
namespace Sys2Proof.Machine

/-! ### What carriers change -/

/-- Of the Selvedge record, what a swap of roles and the items of the partner wait in (R478, R487). -/
def swapState (s : State) : List Item × Nat × Option (BitVec 32) := (s.pair.inbox, s.pair.swapSt, s.pair.swapAt)
/-- Only carriers have changed, and no swap or received item is among what has. -/
def still (s t : State) : Prop := quiet s t ∧ swapState t = swapState s

theorem still.refl (s : State) : still s s := ⟨.refl s, rfl⟩
theorem still.trans {s t u : State} (h : still s t) (k : still t u) : still s u := ⟨h.1.trans k.1, k.2.trans h.2⟩
theorem still_raise (s : State) (c i : Nat) (pl : Bytes) : still s (raise s c i pl) := ⟨quiet_raise s c i pl, rfl⟩
theorem still_modMb (s : State) (m : Nat) (f : Mb → Mb) : still s (modMb s m f) := ⟨quiet_modMb s m f, rfl⟩
theorem still_sendItem (s : State) (b : ItemBody) : still s (sendItem s b) := by
  refine ⟨quiet_sendItem s b, ?_⟩
  unfold sendItem swapState
  split
  · simp only [itemAdd]
    split <;> rfl
  · rfl
theorem still_cplItem (s : State) (m : Nat) (c : Cpl) : still s (cplItem s m c) := by
  unfold cplItem
  split
  · exact still_sendItem s _
  · exact .refl s
theorem still_writeCpl (s : State) (m : Nat) (c : Cpl) : still s (writeCpl s m c) := by
  refine ⟨quiet_writeCpl s m c, ?_⟩
  unfold swapState
  rw [pair_writeCpl]
theorem still_produce (s : State) (m : Nat) (f : Flight) (st : Nat) (pl : Bytes) : still s (produce s m f st pl) :=
  ((still_modMb s m _).trans (still_cplItem _ m _)).trans (still_writeCpl _ m _)

/-! ### Frames -/

/-- A relation of a state and its successor that composes. -/
structure Steps (R : State → State → Prop) : Prop where
  refl : ∀ s, R s s
  trans : ∀ {s t u}, R s t → R t u → R s u
/-- One that holds also where carriers alone have changed. -/
structure Frame (R : State → State → Prop) : Prop where
  carriers : ∀ {s t}, still s t → R s t
  trans : ∀ {s t u}, R s t → R t u → R s u

namespace Steps
variable {R : State → State → Prop} (hR : Steps R)
include hR

theorem loop {α : Type} (xs : List α) {f : State → α → State} (hf : ∀ t x, R t (f t x)) (s : State) : R s (forEach xs f s) :=
  forEach_keeps R hR.refl hR.trans xs f hf s
theorem cond (c : Bool) {f : State → State} (hf : ∀ t, R t (f t)) (s : State) : R s (when c f s) := by
  cases c
  · exact hR.refl s
  · exact hf s
omit hR in
theorem ite (_ : Steps R) {s t u : State} {c : Prop} [Decidable c] (ht : R s t) (hu : R s u) : R s (if c then t else u) := by
  split
  · exact ht
  · exact hu
end Steps

theorem still_completeWaits (s : State) (p : Wait → Bool) (st : Nat) (pl : Bytes) : still s (completeWaits s p st pl) := by
  have h : Steps still := ⟨.refl, .trans⟩
  unfold completeWaits
  exact h.loop _ (fun t m => h.loop _ (fun u f => still_produce u m f st pl) t) s

namespace Frame
variable {R : State → State → Prop} (hR : Frame R)
include hR

theorem refl (s : State) : R s s := hR.carriers (.refl s)
theorem steps : Steps R := ⟨hR.refl, hR.trans⟩
theorem loop {α : Type} (xs : List α) {f : State → α → State} (hf : ∀ t x, R t (f t x)) (s : State) : R s (forEach xs f s) := hR.steps.loop xs hf s
theorem cond (c : Bool) {f : State → State} (hf : ∀ t, R t (f t)) (s : State) : R s (when c f s) := hR.steps.cond c hf s
theorem ite {s t u : State} {c : Prop} [Decidable c] (ht : R s t) (hu : R s u) : R s (if c then t else u) := hR.steps.ite ht hu
theorem waits (s : State) (p : Wait → Bool) (st : Nat) (pl : Bytes) : R s (completeWaits s p st pl) := hR.carriers (still_completeWaits s p st pl)
theorem event (s : State) (c i : Nat) (pl : Bytes) : R s (raise s c i pl) := hR.carriers (still_raise s c i pl)
theorem item (s : State) (b : ItemBody) : R s (sendItem s b) := hR.carriers (still_sendItem s b)
end Frame

/-- Of the axes alone, and the event log and the mailboxes. -/
def faceFrame (s t : State) : Prop := t = { s with axes := t.axes, log := t.log, mbs := t.mbs }
/-- Of the lanes alone, and the free values. -/
def laneFrame (s t : State) : Prop := t = { s with lanes := t.lanes, lnCnt := t.lnCnt, freeCtr := t.freeCtr }
/-- Of acquisition units and echo outputs alone, and the event log, the mailboxes and the CAN channels. -/
def outFrame (s t : State) : Prop := t = { s with kiln := t.kiln, echo := t.echo, log := t.log, mbs := t.mbs, cans := t.cans }
/-- Outside the fields of these three nothing has changed. -/
def handFrame (s t : State) : Prop :=
  t = { s with axes := t.axes, kiln := t.kiln, echo := t.echo, lanes := t.lanes, lnCnt := t.lnCnt, freeCtr := t.freeCtr,
               log := t.log, mbs := t.mbs, cans := t.cans }
/-- A node without a code violation in this bolt has none afterwards (R139). -/
def violKept (s t : State) : Prop := ∀ n, (ndOf s n).viol = 0 → (ndOf t n).viol = 0
/-- Outside nodes, branches and the carriers nothing has changed, and of the nodes no violation is new. -/
def lineFrame (s t : State) : Prop := still { s with nodes := t.nodes, ndCnt := t.ndCnt, brs := t.brs, brCnt := t.brCnt } t ∧ violKept s t
/-- Outside the numbered units, the free values and the carriers nothing has changed. -/
def unitFrame (s t : State) : Prop :=
  quiet { s with axes := t.axes, grps := t.grps, kiln := t.kiln, echo := t.echo, lanes := t.lanes, lnCnt := t.lnCnt, nodes := t.nodes, ndCnt := t.ndCnt,
                 brs := t.brs, brCnt := t.brCnt, freeCtr := t.freeCtr } t
/-- As `unitFrame`, with the safety island, the sessions, the host clock and what the placement says beside it: what values that come
into force may change beyond the values themselves. -/
def effFrame (s t : State) : Prop :=
  quiet { s with axes := t.axes, grps := t.grps, kiln := t.kiln, echo := t.echo, lanes := t.lanes, lnCnt := t.lnCnt, nodes := t.nodes, ndCnt := t.ndCnt,
                 brs := t.brs, brCnt := t.brCnt, freeCtr := t.freeCtr, dmp := t.dmp, eth := t.eth, ptp := t.ptp,
                 warp := { s.warp with place := t.warp.place } } t
/-- The pick timer (R25). -/
def timer (s : State) : BitVec 32 × Bool × Bool × Bool × Nat := (s.clk.pstamp, s.clk.started, s.clk.boltDone, s.clk.afterDl, s.clk.pickT0)
/-- The pick timer has not moved. -/
def sameTimer (s t : State) : Prop := timer t = timer s

theorem axFrame_of_quiet {s t : State} (h : quiet s t) : axFrame s t := (axLocal_of_quiet 0 h).1
theorem unitFrame_of_quiet {s t : State} (h : quiet s t) : unitFrame s t := by
  unfold unitFrame quiet at *
  rw [h]
theorem effFrame_of_quiet {s t : State} (h : quiet s t) : effFrame s t := by
  unfold effFrame quiet at *
  rw [h]
theorem sameTimer_of_quiet {s t : State} (h : quiet s t) : sameTimer s t := by
  unfold quiet at h
  rw [h]
  rfl
theorem quiets : Frame quiet := ⟨And.left, .trans⟩
theorem stills : Frame still := ⟨id, .trans⟩
theorem faceSteps : Steps faceFrame where
  refl _ := rfl
  trans h k := by
    unfold faceFrame at *
    rw [k, h]
theorem laneSteps : Steps laneFrame where
  refl _ := rfl
  trans h k := by
    unfold laneFrame at *
    rw [k, h]
theorem outSteps : Steps outFrame where
  refl _ := rfl
  trans h k := by
    unfold outFrame at *
    rw [k, h]
theorem handSteps : Steps handFrame where
  refl _ := rfl
  trans h k := by
    unfold handFrame at *
    rw [k, h]
theorem violKept_of_nodes {s t : State} (h : t.nodes = s.nodes) : violKept s t := fun n hn => by
  unfold ndOf at *
  rw [h, hn]
theorem violKept_of_quiet {s t : State} (h : quiet s t) : violKept s t := violKept_of_nodes (by
  unfold quiet at h
  rw [h])
theorem violKept.trans {s t u : State} (h : violKept s t) (k : violKept t u) : violKept s u := fun n hn => k n (h n hn)
theorem lineFrames : Frame lineFrame where
  carriers := fun ⟨hq, hs⟩ => by
    refine ⟨⟨?_, hs⟩, violKept_of_quiet hq⟩
    unfold quiet at *
    rw [hq]
  trans := fun ⟨⟨hq, hs⟩, hv⟩ ⟨⟨kq, ks⟩, kv⟩ => by
    refine ⟨⟨?_, ks.trans hs⟩, hv.trans kv⟩
    unfold quiet at *
    rw [kq, hq]
theorem unitFrames : Frame unitFrame where
  carriers h := unitFrame_of_quiet h.1
  trans h k := by
    unfold unitFrame quiet at *
    rw [k, h]
theorem effFrames : Frame effFrame where
  carriers h := effFrame_of_quiet h.1
  trans h k := by
    unfold effFrame quiet at *
    rw [k, h]
theorem axFrames : Frame axFrame where
  carriers h := axFrame_of_quiet h.1
  trans := axFrame.trans
theorem sameTimers : Frame sameTimer where
  carriers h := sameTimer_of_quiet h.1
  trans h k := Eq.trans k h

theorem faceFrame.hand {s t : State} (h : faceFrame s t) : handFrame s t := by
  unfold faceFrame handFrame at *
  rw [h]
theorem laneFrame.hand {s t : State} (h : laneFrame s t) : handFrame s t := by
  unfold laneFrame handFrame at *
  rw [h]
theorem outFrame.hand {s t : State} (h : outFrame s t) : handFrame s t := by
  unfold outFrame handFrame at *
  rw [h]
theorem handFrame.unit {s t : State} (h : handFrame s t) : unitFrame s t := by
  unfold handFrame unitFrame quiet at *
  rw [h]
theorem handFrame.par {s t : State} (h : handFrame s t) : t.par = s.par := by
  unfold handFrame at h
  rw [h]
theorem handFrame.nodes {s t : State} (h : handFrame s t) : t.nodes = s.nodes := by
  unfold handFrame at h
  rw [h]
theorem handFrame.brs {s t : State} (h : handFrame s t) : t.brs = s.brs := by
  unfold handFrame at h
  rw [h]
theorem axFrame.unit {s t : State} (h : axFrame s t) : unitFrame s t := by
  unfold axFrame unitFrame quiet at *
  rw [h]
theorem lineFrame.unit {s t : State} (h : lineFrame s t) : unitFrame s t := by
  obtain ⟨⟨h, -⟩, -⟩ := h
  unfold unitFrame quiet at *
  rw [h]
theorem unitFrame.eff {s t : State} (h : unitFrame s t) : effFrame s t := by
  unfold effFrame unitFrame quiet at *
  rw [h]
theorem effFrame.clk {s t : State} (h : effFrame s t) : t.clk = s.clk := by
  unfold effFrame quiet at h
  rw [h]
theorem effFrame.par {s t : State} (h : effFrame s t) : t.par = s.par := by
  unfold effFrame quiet at h
  rw [h]
theorem effFrame.warp {s t : State} (h : effFrame s t) : t.warp = { s.warp with place := t.warp.place } := by
  unfold effFrame quiet at h
  rw [h]
theorem effFrame.net {s t : State} (h : effFrame s t) : t.net = s.net := by
  unfold effFrame quiet at h
  rw [h]
theorem unitFrame.warp {s t : State} (h : unitFrame s t) : t.warp = s.warp := by
  unfold unitFrame quiet at h
  rw [h]
theorem sameTimer_of_clk {s t : State} (h : t.clk = s.clk) : sameTimer s t := by
  unfold sameTimer timer
  rw [h]
theorem effFrame.timer {s t : State} (h : effFrame s t) : sameTimer s t := sameTimer_of_clk h.clk
theorem unitFrame.timer {s t : State} (h : unitFrame s t) : sameTimer s t := h.eff.timer

end Sys2Proof.Machine
end

section
/-! What the operations on CAN channels, axes and acquisition units can change. -/
open Sys2Proof Sys2Proof.Machine
namespace Sys2Proof.Machine

/-! ### CAN channels (R425, R433, R435, R436) -/

theorem unitFrame_drawNat (s : State) : unitFrame s (drawNat s).1 := rfl
theorem unitFrame_modCan (s : State) (c : Nat) (f : Can → Can) : unitFrame s (modCan s c f) := rfl
theorem unitFrame_tpAbortNote (s : State) (c peer r : Nat) : unitFrame s (tpAbortNote s c peer r) :=
  unitFrames.trans (unitFrame_modCan s c _) (unitFrames.event _ _ _ _)
theorem unitFrame_tpDropPeer (s : State) (c peer : Nat) : unitFrame s (tpDropPeer s c peer) :=
  have go (f : Can → Can) (t : State) :
      unitFrame t (tpAbortNote (modCan (drawNat t).1 c f) c peer ((drawNat t).2 % 256)) :=
    unitFrames.trans (unitFrame_drawNat t) (unitFrames.trans (unitFrame_modCan _ c f) (unitFrame_tpAbortNote _ c peer _))
  unitFrames.trans (unitFrames.cond _ (go _) s) (unitFrames.cond _ (go _) _)
theorem unitFrame_tpDropAll (s : State) (c : Nat) : unitFrame s (tpDropAll s c) := unitFrames.loop _ (fun t p => unitFrame_tpDropPeer t c p) s
theorem unitFrame_claimLose (s : State) (c : Nat) : unitFrame s (claimLose s c) := by
  unfold claimLose
  simp only []
  split <;> exact unitFrames.trans (unitFrame_tpDropAll s c) (unitFrame_modCan _ c _)
theorem unitFrame_claimStartAt (s : State) (c sa : Nat) : unitFrame s (claimStartAt s c sa) := by
  unfold claimStartAt
  split
  · split
    · exact unitFrames.trans (t := modCan s c _) rfl (unitFrame_claimLose _ c)
    · rfl
  · rfl
theorem unitFrame_canRestart (s : State) (c : Nat) : unitFrame s (canRestart s c) :=
  unitFrames.trans (unitFrames.trans (unitFrame_tpDropAll s c) (unitFrame_modCan _ c _)) (unitFrame_claimStartAt _ c _)
theorem unitFrame_canRole (s : State) (c : Nat) : unitFrame s (canRole s c) := by
  unfold canRole
  simp only []
  split
  · exact unitFrames.trans (unitFrames.trans (unitFrame_tpDropAll s c) (unitFrame_modCan _ c _)) (unitFrame_claimStartAt _ c _)
  · exact unitFrames.trans (unitFrames.trans (unitFrame_tpDropAll s c) (unitFrame_modCan _ c _)) (unitFrame_modCan _ c _)
theorem unitFrame_canHeadEnd (s : State) (c : Nat) : unitFrame s (canHeadEnd s c) := by
  unfold canHeadEnd
  simp only []
  refine unitFrames.trans (unitFrames.trans (unitFrame_modCan s c _) (unitFrames.cond _ (fun t => unitFrame_modCan t c _) _)) (unitFrames.loop _ (fun t m => ?_) _)
  exact unitFrames.loop _ (fun u f => unitFrames.trans (unitFrame_modCan u c _) (unitFrames.carriers (still_produce _ m f _ _))) t
theorem unitFrame_canRestartEnd (s : State) (c : Nat) : unitFrame s (canRestartEnd s c) :=
  unitFrames.trans (unitFrame_canRestart s c) (unitFrame_canHeadEnd _ c)
theorem unitFrame_canStop (s : State) (c : Nat) : unitFrame s (canStop s c) := by
  unfold canStop
  simp only []
  split
  · exact unitFrames.refl s
  · split
    · rfl
    · exact unitFrames.trans (unitFrame_drawNat s) (unitFrame_canRestartEnd _ c)
theorem unitFrame_roleSet (s : State) (act : Bool) : unitFrame s (roleSet s act) := by
  refine unitFrames.trans (t := { s with pair.active := act, qspi.roleChg := true }) rfl (unitFrames.loop _ (fun u c => ?_) _)
  split
  · exact unitFrame_canRestartEnd u c
  · exact unitFrames.cond _ (fun v => unitFrames.trans (unitFrame_canRole v c) (unitFrame_canHeadEnd _ c)) u
/-! ### Axes, groups and the Kiln -/

section
variable (s : State) (a : Nat)

theorem axFrame_setSt (st : AxSt) : axFrame s (setSt s a st) := (axLocal_setSt s a st).1
theorem axFrame_profIdle : axFrame s (profIdle s a) := (axLocal_profIdle s a).1
theorem axFrame_homeAbort : axFrame s (homeAbort s a) := (axLocal_homeEnd s a _).1
theorem axFrame_axItem : axFrame s (axItem s a) := axFrames.item s _
theorem axFrame_modAx (f : Axis → Axis) : axFrame s (modAx s a f) := rfl
theorem axFrame_modSm (f : AxSm → AxSm) : axFrame s (modSm s a f) := rfl
theorem axFrame_setGrps (g : Tab Grp) : axFrame s { s with grps := g } := rfl
theorem axFrame_enterDisabled : axFrame s (enterDisabled s a) := by
  unfold enterDisabled
  refine axFrames.trans (axFrames.trans (axFrames.trans (axFrames.trans (axFrame_setSt s a .disabled) (axFrame_homeAbort _ a)) (axFrame_profIdle _ a))
    (axFrames.trans (axFrame_modAx _ a _) (axFrames.waits _ _ _ _))) (axFrame_axItem _ a)
theorem axFrame_axUnplace : axFrame s (axUnplace s a) := axFrames.trans (axFrame_modSm s a _) (axFrame_enterDisabled _ a)
theorem axFrame_axSafeOff : axFrame s (axSafeOff s a) := by
  unfold axSafeOff
  split
  · exact .refl s
  · split
    · exact .refl s
    · exact .refl s
    · exact axFrames.trans (axFrames.trans (axFrames.trans (axFrames.trans (axFrame_setSt s a .safeOff) (axFrame_homeAbort _ a)) (axFrame_profIdle _ a))
        (axFrame_modAx _ a _)) (axFrame_axItem _ a)
theorem axFrame_axSafeOn : axFrame s (axSafeOn s a) := by
  unfold axSafeOn
  split
  · split
    · exact axFrames.trans (axFrames.trans (axFrame_modAx s a _) (axFrame_setSt _ a _)) (axFrame_axItem _ a)
    · exact axFrames.trans (axFrame_setSt s a _) rfl
  · exact .refl s
theorem axFrame_axisSafe : axFrame s (axisSafe s a) := by
  unfold axisSafe
  extract_lets x opn seen s1
  have h1 : axFrame s s1 := by
    unfold s1
    split
    · exact .refl s
    · exact axFrame_modAx s a _
  clear_value s1
  split
  · exact h1
  · split
    · exact h1.trans (axFrame_axSafeOn s1 a)
    · split
      · exact h1
      · exact h1.trans (axFrame_axSafeOff s1 a)
theorem faceFrame_overrun (cause : Nat) (p : BitVec 32) : faceFrame s (overrun s a cause p) := by
  unfold overrun
  simp only []
  split <;> rfl
theorem faceFrame_raise (c i : Nat) (pl : Bytes) : faceFrame s (raise s c i pl) := rfl
theorem faceFrame_modAx (f : Axis → Axis) : faceFrame s (modAx s a f) := rfl
theorem faceFrame_axisBolt : faceFrame s (axisBolt s a) :=
  faceSteps.trans (faceSteps.cond _ (fun t => faceFrame_raise t _ _ _) s) (faceFrame_modAx _ a _)

theorem axFrame_axisEnableEnd : axFrame s (axisEnableEnd s a).1 := by
  unfold axisEnableEnd
  simp only []
  split
  · exact .refl s
  · split
    · split
      · split
        · exact .refl s
        · exact axFrames.trans (axFrame_modAx s a _) (axFrame_axItem _ a)
      · exact .refl s
    · split
      · split
        · exact .refl s
        · exact axFrames.trans (axFrames.trans (axLocal_enableReset s a).1 (axFrame_setSt _ a _)) (axFrame_modAx _ a _)
      · exact .refl s
    · exact .refl s
theorem axFrame_axisDisableEnd : axFrame s (axisDisableEnd s a).1 := by
  unfold axisDisableEnd
  extract_lets x ok
  by_cases h : x.sm.changed = false ∧ ok = true
  · rw [if_pos h]
    exact axFrames.trans (axFrame_modSm s a _) (axFrame_enterDisabled _ a)
  · rw [if_neg h]
    exact .refl s
theorem axFrame_faultResetEnd : axFrame s (faultResetEnd s a).1 := by
  have hm : ∀ (t : State) (c : Nat), axFrame t (resetMore t a c) := fun t c => by
    unfold resetMore
    split
    · exact axFrame_modAx t a _
    · split
      · exact axFrame_modAx t a _
      · exact .refl t
  unfold faultResetEnd
  extract_lets x code ok s1
  have h1 : axFrame s s1 := (axFrame_modAx s a _).trans (hm _ code)
  clear_value s1
  split
  · refine axFrames.trans ?_ (axFrame_axItem _ a)
    split
    · exact (h1.trans (axFrame_setSt s1 a _)).trans (axFrame_profIdle _ a)
    · exact h1
  · exact .refl s
end

theorem axFrame_axisCmdEnd (op a : Nat) (s : State) : axFrame s (axisCmdEnd op a s).1 := by
  unfold axisCmdEnd
  split
  · exact axFrame_axisEnableEnd s a
  · split
    · exact axFrame_axisDisableEnd s a
    · exact axFrame_faultResetEnd s a
/-- The axis commands of a pick change axes, groups, histories and carriers only. -/
theorem axFrame_axisCmds (s : State) : axFrame s (axisCmds s) := by
  refine axFrames.loop _ (fun t m => axFrames.loop _ (fun u f => ?_) t) s
  split
  · exact axFrames.trans (axFrame_axisCmdEnd _ _ u) (axFrame_of_quiet (quiet_settle m f _ _))
  · exact .refl u
theorem axFrame_loomPickStart (s : State) : axFrame s (loomPickStart s) := by
  refine axFrames.trans (axFrames.loop (List.range 128) (fun t a => ?_) s) (axFrame_setGrps _ _)
  split
  · exact .refl t
  · exact axFrame_modSm t a _

theorem axFrame_histEmpty (s : State) (a : Nat) : axFrame s (histEmpty s a) := rfl
theorem axFrame_unIdle (s : State) (u : Nat) : axFrame s (unIdle s u) := by
  unfold unIdle
  split
  · exact .refl s
  · rfl
theorem axFrame_unStop (s : State) (u : Nat) : axFrame s (unStop s u) :=
  axFrames.trans (axFrame_unIdle s u) (axFrames.cond _ (fun t => axFrames.event t _ _ _) _)

theorem outFrame_modCan (s : State) (c : Nat) (f : Can → Can) : outFrame s (modCan s c f) := rfl
theorem outFrame_raise (s : State) (c i : Nat) (pl : Bytes) : outFrame s (raise s c i pl) := rfl
theorem outFrame_canBolt (s : State) (c : Nat) : outFrame s (canBolt s c) := by
  unfold canBolt
  extract_lets x
  exact outSteps.ite (outSteps.refl s) (outSteps.trans (outSteps.loop _ (fun t _ => outFrame_raise t _ _ _) s) (outFrame_modCan _ c _))
theorem outFrame_modUn (s : State) (u : Nat) (f : AcqU → AcqU) : outFrame s (modUn s u f) := rfl
theorem outFrame_stagingCheck (s : State) : outFrame s (stagingCheck s) := by
  unfold stagingCheck
  extract_lets f s1
  have h1 : outFrame s s1 := by
    unfold s1
    split
    · refine outSteps.loop _ (fun t u => ?_) s
      simp only []
      split
      · exact outFrame_modUn t u _
      · exact outSteps.refl t
    · exact outSteps.refl s
  clear_value s1
  exact outSteps.trans h1 rfl
theorem outFrame_setKiln (s : State) (k : Kiln) : outFrame s { s with kiln := k } := rfl
theorem outFrame_kilnBolt (s : State) : outFrame s (kilnBolt s) := by
  refine outSteps.trans (outFrame_setKiln s _) (outSteps.loop (List.range 8) (fun t u => ?_) _)
  simp only []
  split
  · exact outSteps.refl t
  · split
    · split
      · exact outSteps.trans (t := modUn (modUn t u _) u _) rfl (outFrame_modUn _ u _)
      · rfl
    · rfl

end Sys2Proof.Machine
end

section
/-! What the operations on nodes, branches, lanes and echo outputs can change. -/
open Sys2Proof Sys2Proof.Machine
namespace Sys2Proof.Machine

/-! ### Nodes and branches -/

section
variable (s : State) (n : Nat)
theorem violKept_modNd {f : Node → Node} (hf : ∀ x, x.viol = 0 → (f x).viol = 0) : violKept s (modNd s n f) := fun j hj => by
  by_cases h : j = n
  · subst h
    rw [ndOf_modNd]
    exact hf _ hj
  · rw [ndOf_modNd_other s f h, hj]
theorem lineFrame_modNd (f : Node → Node) (hf : ∀ x : Node, x.viol = 0 → (f x).viol = 0 := by exact fun _ h => h) : lineFrame s (modNd s n f) :=
  ⟨⟨rfl, rfl⟩, violKept_modNd s n hf⟩
theorem lineFrame_modNdc (f : NodeCnt → NodeCnt) : lineFrame s (modNdc s n f) := ⟨⟨rfl, rfl⟩, violKept_of_nodes rfl⟩
theorem lineFrame_modBr (f : Branch → Branch) : lineFrame s (modBr s n f) := ⟨⟨rfl, rfl⟩, violKept_of_nodes rfl⟩
theorem lineFrame_modBrc (f : BranchCnt → BranchCnt) : lineFrame s (modBrc s n f) := ⟨⟨rfl, rfl⟩, violKept_of_nodes rfl⟩
theorem lineFrame_ndItem : lineFrame s (ndItem s n) := lineFrames.item s _
theorem lineFrame_brItem : lineFrame s (brItem s) := lineFrames.item s _
theorem lineFrame_rejoinBlock : lineFrame s (rejoinBlock s n) := by
  unfold rejoinBlock
  split
  · exact lineFrames.trans (lineFrame_modNd s n _) (lineFrames.event _ _ _ _)
  · exact lineFrames.refl s
theorem lineFrame_asgPlan (p : NodePl) : lineFrame s (asgPlan s p) :=
  lineFrames.trans (lineFrames.trans (lineFrames.trans (lineFrame_modBr s _ _) (lineFrame_modNd _ _ _)) (lineFrame_modBr _ _ _)) (lineFrame_ndItem _ _)
theorem lineFrame_asgLater : lineFrame s (asgLater s n) :=
  lineFrames.loop _ (fun t m => lineFrames.trans (lineFrame_modNd t m _) (lineFrame_ndItem _ m)) s
theorem lineFrame_asgAll (pl : Place) : lineFrame s (asgAll s pl) :=
  lineFrames.loop _ (fun t p => lineFrames.cond _ (fun u => lineFrames.trans (lineFrame_asgPlan u p) (lineFrame_asgLater _ _)) t) s
theorem lineFrame_parSend (xs : List Xfer) : lineFrame s (parSend s n xs) :=
  lineFrames.trans (lineFrame_modBr s _ _) (lineFrame_modNd _ n _)
theorem lineFrame_imageSend : lineFrame s (imageSend s n) :=
  lineFrames.trans (lineFrames.trans (lineFrame_modNd s n _) (lineFrame_modBr _ _ _)) (lineFrame_modBr _ _ _)
theorem lineFrame_nodeAdmit : lineFrame s (nodeAdmit s n) := by
  unfold nodeAdmit
  extract_lets s1 b s2 s3
  have h : lineFrame s s2 := lineFrames.trans (lineFrame_modNd s n _) (lineFrame_modBr _ _ _)
  refine lineFrames.trans (t := s3) (lineFrames.trans h ?_) (lineFrame_ndItem _ n)
  unfold s3
  split
  · exact lineFrames.trans (lineFrame_modNd s2 n _) (lineFrames.event _ _ _ _)
  · exact lineFrames.refl s2
theorem lineFrame_eowNote (node : Option Nat) (rb : Bool) : lineFrame s (eowNote s n node rb) :=
  lineFrames.trans (lineFrame_modBr s n _) (lineFrame_modBrc _ n _)
theorem lineFrame_nodeMean : lineFrame s (nodeMean s n) := by
  unfold nodeMean
  extract_lets d m t s1
  have h : lineFrame s s1 := by
    unfold s1
    split
    · exact lineFrames.refl s
    · split
      · exact lineFrames.trans (lineFrame_modNdc s n _) (lineFrame_modBr _ _ _)
      · exact lineFrame_modNdc s n _
  clear_value s1
  split
  · exact h
  · exact lineFrames.trans h (lineFrame_modNd _ n _ (fun _ _ => by rfl))
theorem lineFrame_tapBolt (b tap : Nat) : lineFrame s (tapBolt b s tap) := by
  unfold tapBolt
  extract_lets r k s1
  have h : lineFrame s s1 := lineFrame_modBr s b _
  clear_value s1
  split
  · exact lineFrames.trans (lineFrames.trans h (lineFrame_modBr s1 b _)) (lineFrames.event _ _ _ _)
  · exact h
theorem lineFrame_branchPick : lineFrame s (branchPick s n) := by
  unfold branchPick
  extract_lets r on s1
  refine lineFrames.trans (t := s1) ?_ (lineFrames.cond _ (fun t => lineFrames.waits t _ _ _) s1)
  unfold s1
  split
  · exact lineFrames.refl s
  · exact lineFrame_modBr s n _
theorem lineFrame_nodePick : lineFrame s (nodePick s n) := by
  unfold nodePick
  extract_lets s1 d go
  have h : lineFrame s s1 := by
    unfold s1
    split
    · split
      · exact lineFrame_nodeAdmit s n
      · exact lineFrame_modNd s n _
    · exact lineFrames.refl s
  clear_value s1
  split
  · exact h
  · exact lineFrames.trans h (lineFrame_modNd s1 n _)
theorem lineFrame_rejoinBolt : lineFrame s (rejoinBolt s n) :=
  lineFrames.trans (lineFrames.cond _ (fun t => lineFrame_modBr t n _) s)
    (lineFrames.cond _ (fun t => lineFrames.loop _ (fun u i => lineFrame_rejoinBlock u (4 * n + i)) t) _)
theorem viol_reqRekey (p : BitVec 32) (d : Node) : (reqRekey p d).viol = d.viol := by
  unfold reqRekey
  split
  · rfl
  · split <;> rfl
theorem lineFrame_laneRekeys (t : State) : lineFrame t (laneRekeys s t) :=
  lineFrames.loop _ (fun u _ => lineFrames.cond _ (fun v => lineFrame_modNd v _ _ (fun x h => (viol_reqRekey _ x).trans h)) u) t
end

/-! ### A branch that is cut (R92): the commits that wait for an acknowledgement of a node end with it -/

/-- Outside nodes, branches, the values and the carriers nothing has changed, and of the nodes no violation is new. -/
def cutFrame (s t : State) : Prop :=
  still { s with nodes := t.nodes, ndCnt := t.ndCnt, brs := t.brs, brCnt := t.brCnt, net.toPower := t.net.toPower, par := t.par } t ∧ violKept s t
/-- No commit waits for an acknowledgement of a node. -/
def noAck (s : State) : Prop := ∀ p ∈ s.par.pends, p.at' ≠ .ack
/-- As `cutFrame`; the values too where no commit waits for an acknowledgement. -/
def cutKeeps (s t : State) : Prop := cutFrame s t ∧ (noAck s → t.par = s.par)

theorem cutFrames : Frame cutFrame where
  carriers := fun ⟨hq, hs⟩ => by
    refine ⟨⟨?_, hs⟩, violKept_of_quiet hq⟩
    unfold quiet at *
    rw [hq]
  trans := fun ⟨⟨hq, hs⟩, hv⟩ ⟨⟨kq, ks⟩, kv⟩ => by
    refine ⟨⟨?_, ks.trans hs⟩, hv.trans kv⟩
    unfold quiet at *
    rw [kq, hq]
theorem par_of_quiet {s t : State} (h : quiet s t) : t.par = s.par := by
  unfold quiet at h
  rw [h]
theorem cutKeepsFrames : Frame cutKeeps where
  carriers h := ⟨cutFrames.carriers h, fun _ => par_of_quiet h.1⟩
  trans := fun ⟨h, hp⟩ ⟨k, kp⟩ => ⟨cutFrames.trans h k, fun hn => (kp (by unfold noAck; rw [hp hn]; exact hn)).trans (hp hn)⟩
theorem lineFrame.cut {s t : State} (h : lineFrame s t) : cutKeeps s t := by
  obtain ⟨⟨hq, hs⟩, hv⟩ := h
  refine ⟨⟨⟨?_, hs⟩, hv⟩, fun _ => ?_⟩
  · unfold quiet at *
    rw [hq]
  · unfold quiet at hq
    rw [hq]

theorem cutFrame_setPar (s : State) (p : Par) : cutFrame s { s with par := p } := ⟨⟨rfl, rfl⟩, violKept_of_nodes rfl⟩
theorem cutKeeps_stepAnswer (s : State) (c : Pend → Bool) (st : Nat) : cutKeeps s (stepAnswer s c st) := by
  unfold stepAnswer
  refine ⟨cutFrames.loop _ (fun t p => cutFrames.trans (cutFrame_setPar t _) (cutFrames.waits _ _ _ _)) s, fun hn => ?_⟩
  have he : s.par.pends.filter (fun p => p.at' = .ack && c p) = [] := by
    refine List.filter_eq_nil_iff.mpr fun p hp => ?_
    simp [hn p hp]
  rw [he]
  rfl
theorem cutKeeps_stepModFail (s : State) (n : Nat) : cutKeeps s (stepModFail s n) := by
  unfold stepModFail
  split
  · exact cutKeepsFrames.refl s
  · exact cutKeeps_stepAnswer s _ _
theorem cutKeeps_loadDone (s : State) (n st : Nat) : cutKeeps s (loadDone s n st) := cutKeepsFrames.waits s _ _ _
theorem cutKeeps_raiseIf (ev : Bool) (s : State) (c i : Nat) (pl : Bytes) : cutKeeps s (if ev then raise s c i pl else s) :=
  cutKeepsFrames.cond ev (fun t => cutKeepsFrames.event t c i pl) s
theorem cutKeeps_xferAbandon (s : State) (x : Xfer) (ev : Bool) : cutKeeps s (xferAbandon s x ev) := by
  unfold xferAbandon
  extract_lets n s1 pl
  have h1 : cutKeeps s s1 := (lineFrame_modNdc s n _).cut
  clear_value s1
  split
  · exact cutKeepsFrames.trans (cutKeepsFrames.trans h1 (lineFrame_modNd s1 n _).cut) (cutKeeps_raiseIf ev _ _ _ _)
  · have h2 := cutKeepsFrames.trans h1 (cutKeeps_raiseIf ev s1 0x310B n pl)
    split
    · exact cutKeepsFrames.trans (cutKeepsFrames.trans h2 (lineFrame_modNd _ n _).cut) (cutKeeps_stepModFail _ n)
    · split
      · exact cutKeepsFrames.trans h2 (cutKeeps_loadDone _ n _)
      · exact h2
theorem cutKeeps_nodeDrop (s : State) (n : Nat) : cutKeeps s (nodeDrop s n) := by
  unfold nodeDrop
  split
  · exact cutKeepsFrames.trans (cutKeepsFrames.trans (cutKeeps_stepModFail s n) (lineFrame_modNd _ n _ (fun _ _ => by rfl)).cut) (lineFrame_ndItem _ n).cut
  · exact cutKeepsFrames.refl s
theorem cutKeeps_toPower (s : State) (bs : List Nat) : cutKeeps s { s with net.toPower := bs } := ⟨⟨⟨rfl, rfl⟩, violKept_of_nodes rfl⟩, fun _ => rfl⟩
theorem cutKeeps_branchCut (s : State) (b : Nat) : cutKeeps s (branchCut s b) := by
  unfold branchCut
  split
  · exact cutKeepsFrames.refl s
  · have h1 (xs : List Xfer) : cutKeeps s (forEach xs (fun t x => xferAbandon t x false) s) :=
      cutKeepsFrames.loop xs (fun t x => cutKeeps_xferAbandon t x false) s
    have h2 (t : State) (f : Branch → Branch) (g : BranchCnt → BranchCnt) (bs : List Nat) :
        cutKeeps t { modBrc (modBr t b f) b g with net.toPower := bs } :=
      cutKeepsFrames.trans (cutKeepsFrames.trans (lineFrame_modBr t b f).cut (lineFrame_modBrc _ b g).cut) (cutKeeps_toPower _ bs)
    have h3 (t : State) : cutKeeps t (brItem (forEach (List.range 4) (fun t i => nodeDrop t (4 * b + i)) t)) :=
      cutKeepsFrames.trans (cutKeepsFrames.loop _ (fun t i => cutKeeps_nodeDrop t (4 * b + i)) t) (lineFrame_brItem _).cut
    exact cutKeepsFrames.trans (cutKeepsFrames.trans (h1 _) (h2 _ _ _ _)) (h3 _)
theorem cutKeeps_eowBolt (s : State) (b : Nat) : cutKeeps s (eowBolt s b) := by
  unfold eowBolt
  extract_lets r past s1
  split
  · have h1 : cutKeeps s s1 := (lineFrames.trans (lineFrame_modBr s b _) (lineFrame_modBrc _ b _)).cut
    clear_value s1
    split
    · exact cutKeepsFrames.trans (cutKeepsFrames.trans h1 (cutKeepsFrames.event s1 _ _ _)) (cutKeeps_branchCut _ b)
    · exact h1
  · split
    · exact cutKeepsFrames.refl s
    · exact (lineFrame_modBr s b _).cut
/-- A branch before its errors of the bolt are judged. -/
theorem lineFrame_branchTaps (s : State) (b : Nat) :
    lineFrame s (modBr (forEach [0, 1, 2, 3] (tapBolt b) s) b fun x => { x with joinBadNow := [] }) :=
  lineFrames.trans (lineFrames.loop _ (fun t i => lineFrame_tapBolt t b i) s) (lineFrame_modBr _ b _)
/-- The means of the nodes of a branch over the bolt. -/
def meansBolt (s : State) (b : Nat) : State := forEach [0, 1, 2, 3] (fun t i => nodeMean t (4 * b + i)) s
theorem lineFrame_meansBolt (s : State) (b : Nat) : lineFrame s (meansBolt s b) := lineFrames.loop _ (fun t i => lineFrame_nodeMean t (4 * b + i)) s
/-- What a branch does at the end of a bolt behind the means of its nodes. -/
theorem cutKeeps_behindMeans (s : State) (b : Nat) : cutKeeps (meansBolt s b) (branchBolt s b) := by
  unfold branchBolt
  extract_lets s1 s2
  have h2 : lineFrame s1 s2 := lineFrames.cond _ (fun t => lineFrame_branchTaps t b) s1
  clear_value s2
  exact cutKeepsFrames.trans h2.cut (cutKeeps_eowBolt s2 b)
theorem cutKeeps_branchBolt (s : State) (b : Nat) : cutKeeps s (branchBolt s b) :=
  cutKeepsFrames.trans (lineFrame_meansBolt s b).cut (cutKeeps_behindMeans s b)

/-! ### Lanes and echo outputs -/

section
variable (s : State) (l : Nat)
theorem laneFrame_modLane (f : Lane → Lane) : laneFrame s (modLane s l f) := rfl
theorem laneFrame_modLnc (f : LaneCnt → LaneCnt) : laneFrame s (modLnc s l f) := rfl
theorem unitFrame_modEc (f : Echo → Echo) : unitFrame s (modEc s l f) := rfl
theorem outFrame_modEc (f : Echo → Echo) : outFrame s (modEc s l f) := rfl
theorem laneFrame_laneBusy : laneFrame s (laneBusy s l) := by
  unfold laneBusy
  split
  · exact laneSteps.refl s
  · exact laneSteps.trans ((rfl : laneFrame s (drawNat s).1)) (laneFrame_modLane _ l _)
theorem laneFrame_laneLast : laneFrame s (laneLast s l) := by
  unfold laneLast
  split
  · exact laneSteps.trans (laneFrame_laneBusy s l) (laneFrame_modLane _ l _)
  · exact laneSteps.refl s
theorem laneFrame_laneBolt : laneFrame s (laneBolt s l) := by
  unfold laneBolt
  simp only []
  split
  · exact laneSteps.refl s
  · exact laneSteps.trans (laneFrame_modLnc s l _) (laneFrame_modLane _ l _)
theorem outFrame_echoBolt : outFrame s (echoBolt s l) := by
  unfold echoBolt
  simp only []
  split
  · exact outSteps.refl s
  · exact outSteps.trans (outFrame_modEc s l _) (outFrame_raise _ _ _ _)
end

theorem outFrame_echoPick (s : State) : outFrame s (echoPick s) := by
  refine outSteps.loop (List.range 4) (fun t e => ?_) s
  simp only []
  split
  · exact outFrame_modEc t e _
  · exact outSteps.refl t
/-- The lanes at the end of a pick. -/
def lanesPickEnd (s : State) : State :=
  forEach (List.range 8) (fun t ln =>
    let l := laneOf t ln
    let js := (l.run.toList ++ l.pre.toList ++ lnAll l).filter (fun j => j.kind = 3)
    let t1 := modLane (laneBusy t ln) ln (fun x => { lnClear x with stopped := x.dead, fPick := 0 })
    let t2 := modLnc t1 ln (fun c => { c with jobsLate := satAdd 32 c.jobsLate js.length })
    forEach js (fun u j => overrun u j.id 4 (ps u)) t2) s
/-- The branches at the end of a pick: what was received is dropped. -/
def rxDropped (s : State) : State := forEach (List.range 16) (fun t b => modBr t b (fun x => { x with rxBuf := [], held := [] })) s
theorem loomPickEnd_eq (s : State) : loomPickEnd s = rxDropped (lanesPickEnd s) := rfl
theorem handFrame_lanesPickEnd (s : State) : handFrame s (lanesPickEnd s) := by
  refine handSteps.loop (List.range 8) (fun t ln => ?_) s
  exact handSteps.trans (laneSteps.trans (laneSteps.trans (laneFrame_laneBusy t ln) (laneFrame_modLane _ ln _)) (laneFrame_modLnc _ ln _)).hand
    (faceSteps.loop _ (fun u j => faceFrame_overrun u _ 4 _) _).hand
theorem lineFrame_rxDropped (s : State) : lineFrame s (rxDropped s) := lineFrames.loop (List.range 16) (fun t b => lineFrame_modBr t b _) s
theorem unitFrame_loomPickEnd (s : State) : unitFrame s (loomPickEnd s) := by
  rw [loomPickEnd_eq]
  exact unitFrames.trans (handFrame_lanesPickEnd s).unit (lineFrame_rxDropped _).unit

end Sys2Proof.Machine
end

section
/-! What the values that come into force can change (R386): the effect of each set, the commits of a boundary. -/
open Sys2Proof Sys2Proof.Machine
namespace Sys2Proof.Machine

/-! ### The effects of the sets -/

theorem unitFrame_setKiln (s : State) (k : Kiln) : unitFrame s { s with kiln := k } := rfl
theorem unitFrame_modUn (s : State) (u : Nat) (f : AcqU → AcqU) : unitFrame s (modUn s u f) := rfl
theorem effFrame_acqPlace (s : State) (u : Nat) : effFrame s (acqPlace s u) := by
  unfold acqPlace
  split
  · rfl
  · exact effFrames.refl s
theorem effFrame_acqUnitEffect (s : State) (u : Nat) : effFrame s (acqUnitEffect s u) :=
  effFrames.trans
    (unitFrames.trans (unitFrames.trans (axFrame_unStop s u).unit (unitFrame_modUn _ u _)) (unitFrame_setKiln _ _)).eff
    (effFrame_acqPlace _ u)
theorem effFrame_netRenew (s t : State) : effFrame t (netRenew s t) :=
  effFrames.loop _ (fun u n => by cases n <;> rfl) t
theorem effFrame_sogFind (s : State) (g c : Nat) : effFrame s (sogFind s g c) := rfl
theorem effFrame_safSetFind (s : State) : effFrame s (safSetFind s) := effFrames.loop (List.range 4) (fun t g => effFrame_sogFind t g 7) s
theorem effFrame_macClose (s : State) (m : Nat) : effFrame s (macClose s m) := rfl
theorem effFrame_setPtp (s : State) (p : Ptp) : effFrame s { s with ptp := p } := rfl
theorem effFrame_ptpInvalid (s : State) : effFrame s (ptpInvalid s) :=
  effFrames.trans (effFrame_setPtp s _) (effFrames.cond _ (fun t => effFrames.event t _ _ _) _)
theorem effFrame_ptpEffect (s t : State) : effFrame t (ptpEffect s t) := by
  unfold ptpEffect
  extract_lets moved
  split
  · exact effFrame_ptpInvalid t
  · split
    · exact effFrames.trans (effFrame_setPtp t _) (effFrame_ptpInvalid _)
    · split
      · exact effFrame_setPtp t _
      · exact effFrames.refl t
theorem effFrame_claim (s : State) (c : Nat) : effFrame s (claimStart (tpDropAll s c) c) :=
  (unitFrames.trans (unitFrame_tpDropAll s c) (unitFrame_claimStartAt _ c _)).eff

theorem effFrame_setEffect (s t : State) (key : Nat) : effFrame t (setEffect s t key) := by
  unfold setEffect
  extract_lets c i n
  refine effFrames.ite (effFrames.cond _ (fun u => (lineFrame_parSend u _ _).unit.eff) t) <|
    effFrames.ite (effFrames.cond _ (fun u => (lineFrame_parSend u _ _).unit.eff) t) <|
    effFrames.ite (unitFrame_modEc t i _).eff <| effFrames.ite (axFrame_modAx t i _).unit.eff <|
    effFrames.ite (effFrame_acqUnitEffect t i) <| effFrames.ite (axFrame_histEmpty t i).unit.eff <|
    effFrames.ite (unitFrame_canStop t i).eff <| effFrames.ite (effFrame_claim t i) <| effFrames.ite (unitFrame_modCan t i _).eff <|
    effFrames.ite (effFrames.cond _ (fun u => effFrames.trans (effFrame_safSetFind u) (effFrame_netRenew s _)) t) <|
    effFrames.ite (effFrames.loop _ (fun u m => effFrame_macClose u m) t) <|
    effFrames.ite (effFrames.loop _ (fun u ch => ?_) t) (effFrames.refl t)
  exact effFrames.cond _ (fun v => effFrame_of_quiet (quiet_gwPump ch 4 v)) u

/-! ### Values in force -/

theorem cutFrame.clk {s t : State} (h : cutFrame s t) : t.clk = s.clk := by
  obtain ⟨⟨h, -⟩, -⟩ := h
  unfold quiet at h
  rw [h]
theorem cutFrame.timer {s t : State} (h : cutFrame s t) : sameTimer s t := sameTimer_of_clk h.clk
theorem cutFrame_stepModWait (s : State) (vals : Tab Int) : cutFrame s (stepModWait s vals) :=
  cutFrames.trans (cutFrame_setPar s _)
    (cutFrames.loop _ (fun t n => cutFrames.cond _ (fun u => (lineFrame_parSend u n _).cut.1) t) _)
theorem cutFrame_stepModDone (s : State) (a : Nat) : cutFrame s (stepModDone s a) :=
  cutFrames.trans (cutFrame_setPar s _) (cutKeeps_stepAnswer _ _ 0).1

/-- The values in force with some more. -/
def withVals (s : State) (vals : Tab Int) : State := { s with par.force := tabMerge s.par.force vals }
/-- Values that come into force with the effects of their sets, apart from what those of a step-motor axis wait for. -/
def valsIn (s : State) (vals : Tab Int) : State :=
  when (vals.any (fun x => 0x0A20 ≤ x.1 / 256 && x.1 / 256 ≤ 0x0A22)) (ptpEffect s) (forEach (valSets vals) (setEffect s) (withVals s vals))

theorem effFrame_valsIn (s : State) (vals : Tab Int) : effFrame (withVals s vals) (valsIn s vals) :=
  effFrames.trans (effFrames.loop _ (fun t k => effFrame_setEffect s t k) _) (effFrames.cond _ (fun t => effFrame_ptpEffect s t) _)
theorem applyVals_eq (s : State) (vals : Tab Int) : applyVals s vals =
    valsIn (when (vals.any (stepHeld s vals)) (fun t => stepModWait t vals) s) (vals.filter fun x => !stepHeld s vals x) := rfl
theorem sameTimer_valsIn (s : State) (vals : Tab Int) : sameTimer s (valsIn s vals) :=
  sameTimers.trans (t := withVals s vals) rfl (effFrame_valsIn s vals).timer
theorem sameTimer_applyVals (s : State) (vals : Tab Int) : sameTimer s (applyVals s vals) := by
  rw [applyVals_eq]
  exact sameTimers.trans (sameTimers.cond _ (fun t => (cutFrame_stepModWait t vals).timer) s) (sameTimer_valsIn _ _)

/-- The values of the commutation of a step-motor axis, which a node takes over first (R517). -/
def noStepVals (vals : Tab Int) : Prop := ∀ x ∈ vals, x.1 / 256 < 0x0401 ∨ 0x0405 < x.1 / 256
theorem stepHeld_noStepVals {vals : Tab Int} (h : noStepVals vals) (s : State) {x : Nat × Int} (hx : x ∈ vals) : stepHeld s vals x = false := by
  have hr := h x hx
  have : (decide (0x0401 ≤ x.1 / 256) && decide (x.1 / 256 ≤ 0x0405)) = false := by
    rw [← Bool.decide_and, decide_eq_false_iff_not]
    omega
  unfold stepHeld
  simp only [Bool.and_assoc] at this ⊢
  rw [← Bool.and_assoc (decide (0x0401 ≤ x.1 / 256)), this]
  simp
theorem applyVals_noStepVals {vals : Tab Int} (h : noStepVals vals) (s : State) : applyVals s vals = valsIn s vals := by
  have hany : vals.any (stepHeld s vals) = false := by
    rw [List.any_eq_false]
    intro x hx
    rw [stepHeld_noStepVals h s hx]
    exact Bool.false_ne_true
  have hfil : vals.filter (fun x => !stepHeld s vals x) = vals := by
    refine List.filter_eq_self.mpr fun x hx => ?_
    rw [stepHeld_noStepVals h s hx]
    rfl
  rw [applyVals_eq, hany, hfil, when_false]

/-! ### Commits -/

/-- A commit taken from those that wait. -/
def pendTaken (s : State) (p : Pend) : State :=
  let wait := p.vals.any (stepHeld s p.vals)
  let rest := s.par.pends.filter (fun q => !(q.id = p.id && q.at' = p.at'))
  { s with par := { s.par with pends := if wait then rest ++ [{ p with at' := .ack }] else rest,
                               stages := if wait then s.par.stages else p.sets.foldl (fun t k => tabErase t k) s.par.stages } }
/-- The completion of a commit that is applied. -/
def pendAnswer (p : Pend) (s : State) : State :=
  when (!s.par.pends.any (fun q => q.id = p.id)) (fun t => completeWaits t (fun w => w = .applied p.id) 0 []) s
theorem applyPend_eq (s : State) (p : Pend) : applyPend s p = pendAnswer p (applyVals (pendTaken s p) p.vals) := rfl
theorem still_pendAnswer (p : Pend) (s : State) : still s (pendAnswer p s) :=
  stills.cond _ (fun t => stills.waits t _ _ _) s
theorem sameTimer_pendTaken (s : State) (p : Pend) : sameTimer s (pendTaken s p) := rfl
theorem sameTimer_applyPend (s : State) (p : Pend) : sameTimer s (applyPend s p) := by
  rw [applyPend_eq]
  exact sameTimers.trans (sameTimers.trans (sameTimer_pendTaken s p) (sameTimer_applyVals _ _)) (sameTimers.carriers (still_pendAnswer p _))
theorem sameTimer_applyBound (s : State) (b : Bound) : sameTimer s (applyBound s b) := by
  unfold applyBound
  exact sameTimers.loop _ (fun t p => sameTimers.cond _ (fun u => sameTimer_applyPend u p) t) s

/-- Without commits a boundary applies none. -/
theorem applyBound_none {s : State} (h : s.par.pends = []) (b : Bound) : applyBound s b = s := by
  unfold applyBound
  rw [h]
  rfl

theorem tabFind_foldl_tabErase {α : Type} (ks : List Nat) (t : Tab α) (k : Nat) :
    tabFind (ks.foldl (fun x j => tabErase x j) t) k = if k ∈ ks then none else tabFind t k := by
  induction ks generalizing t with
  | nil => rfl
  | cons j ks ih =>
    rw [List.foldl_cons, ih]
    by_cases hj : k = j
    · subst hj
      simp
    · simp [hj, tabFind_tabErase_other t hj]

/-- A commit of plain values, taken from those that wait. -/
theorem pendTaken_plain {s : State} {p : Pend} (hv : noStepVals p.vals) (hp : s.par.pends = [p]) : pendTaken s p =
    { s with par := { s.par with pends := [], stages := p.sets.foldl (fun t k => tabErase t k) s.par.stages } } := by
  have hany : p.vals.any (stepHeld s p.vals) = false := by
    rw [List.any_eq_false]
    intro x hx
    rw [stepHeld_noStepVals hv s hx]
    exact Bool.false_ne_true
  unfold pendTaken
  simp only [hany, hp]
  simp

/-- The only commit that waits, of plain values, comes into force with its boundary. -/
theorem inForce_applyBound {s : State} {p : Pend} {b : Bound} (h : onlyPend s p b) : inForce s (applyBound s b) p := by
  obtain ⟨hp, hb, hi, hs, hv⟩ := h
  have hready : pendReady s p = true := by
    have : p.sets.filter (fun k => k / 256 = 17) = [] := List.filter_eq_nil_iff.mpr fun k hk => by simpa using hs k hk
    simp [pendReady, acqReady, itemDone, hi, this]
  have hone : applyBound s b = applyPend s p := by
    unfold applyBound
    simp [hp, hb, hready, forEach]
  have hpar : (applyBound s b).par = { s.par with pends := [], force := tabMerge s.par.force p.vals,
                                                  stages := p.sets.foldl (fun t k => tabErase t k) s.par.stages } := by
    rw [hone, applyPend_eq, par_of_quiet (still_pendAnswer p _).1, applyVals_noStepVals hv, (effFrame_valsIn _ p.vals).par, pendTaken_plain hv hp]
    rfl
  refine ⟨?_, fun k hk => ?_, fun k hk => ?_⟩
  · rw [hpar]
  · rw [hpar, tabFind_foldl_tabErase, if_pos hk]
  · rw [hpar, tabFind_foldl_tabErase, if_neg hk]
theorem inForce_of_par {s t s' t' : State} {p : Pend} (h : inForce s t p) (hs : s.par = s'.par) (ht : t'.par = t.par) : inForce s' t' p := by
  unfold inForce at *
  rw [ht, ← hs]
  exact h

end Sys2Proof.Machine
end

section
/-! What a change of the branches in use, a placement, a change of role and the items of the partner can change. -/
open Sys2Proof Sys2Proof.Machine
namespace Sys2Proof.Machine

/-! ### Transmission: markers, power, the branches in use -/

/-- Outside nodes, branches, the network, the marker outputs and the carriers nothing has changed. -/
def netFrame (s t : State) : Prop :=
  quiet { s with nodes := t.nodes, ndCnt := t.ndCnt, brs := t.brs, brCnt := t.brCnt, net := t.net,
                 clk := { s.clk with markers := t.clk.markers, pickOut := t.clk.pickOut, lastMarker := t.clk.lastMarker } } t
theorem netFrames : Frame netFrame where
  carriers h := by
    replace h := h.1
    unfold netFrame quiet at *
    rw [h]
  trans h k := by
    unfold netFrame quiet at *
    rw [k, h]
theorem lineFrame.transmission {s t : State} (h : lineFrame s t) : netFrame s t := by
  obtain ⟨⟨h, -⟩, -⟩ := h
  unfold netFrame quiet at *
  rw [h]
theorem netFrame.par {s t : State} (h : netFrame s t) : t.par = s.par := by
  unfold netFrame quiet at h
  rw [h]
theorem netFrame.warp {s t : State} (h : netFrame s t) : t.warp = s.warp := by
  unfold netFrame quiet at h
  rw [h]
theorem netFrame.timer {s t : State} (h : netFrame s t) : sameTimer s t := by
  unfold netFrame quiet at h
  rw [h]
  rfl

theorem netFrame_setNet (s : State) (n : Net) : netFrame s { s with net := n } := rfl
theorem netFrame_brRaise (s : State) (b : Nat) : netFrame s (brRaise s b) := by
  unfold brRaise
  split
  · exact netFrames.refl s
  · exact (lineFrames.trans (lineFrame_modBr s b _) (lineFrame_brItem _)).transmission
theorem netFrame_listen (s : State) : netFrame s (listen s) := rfl
theorem netFrame_powerNext (k : Nat) (s : State) : netFrame s (powerNext k s) := by
  induction k generalizing s with
  | zero => exact netFrames.refl s
  | succ k ih =>
    unfold powerNext
    split
    next => exact netFrames.ite (netFrame_listen s) (netFrames.refl s)
    next b bs _ =>
      have h := netFrames.trans (netFrame_setNet s { s.net with toPower := bs }) (netFrame_brRaise _ b)
      exact netFrames.ite (netFrames.trans h (ih _)) h
theorem netFrame_powerBegin (s : State) (bs : List Nat) : netFrame s (powerBegin s bs) :=
  netFrames.trans (netFrame_setNet s _) (netFrame_powerNext 20 _)
theorem netFrame_dropNodes (s : State) (ns : Tab Node) (bs : List Nat) : netFrame s { s with nodes := ns, net.toPower := bs } := rfl
theorem netFrame_branchOff (s : State) (b : Nat) : netFrame s (branchOff s b) :=
  netFrames.trans (lineFrame_modBr s b _).transmission (netFrame_dropNodes _ _ _)
theorem netFrame_branchesSet (s t : State) : netFrame t (branchesSet s t) := by
  unfold branchesSet
  extract_lets off on t1 t2
  have h : netFrame t t2 := netFrames.trans (netFrames.loop off netFrame_branchOff t) (netFrames.cond _ (fun u => (lineFrame_brItem u).transmission) t1)
  clear_value t2
  exact netFrames.ite h (netFrames.ite (netFrames.trans h (netFrame_powerBegin t2 on)) (netFrames.trans h (netFrame_setNet t2 _)))
theorem netFrame_contend (s : State) : netFrame s (contend s) := rfl
theorem netFrame_eowNotes (s : State) (bad : List Nat) : netFrame s (forEach bad (fun t b => eowNote t b none true) s) :=
  netFrames.loop bad (fun t b => (lineFrame_eowNote t b none true).transmission) s
theorem netFrame_markerSend (s : State) (bad : List BranchNo) : netFrame s (markerSend s bad) := by
  unfold markerSend
  extract_lets go c s1 bs s2
  have h1 : netFrame s s1 := rfl
  have h2 : netFrame s s2 := netFrames.trans h1 (netFrame_eowNotes s1 bs)
  clear_value s2 s1
  refine netFrames.ite (netFrames.ite h1 (netFrames.ite ?_ h2)) rfl
  exact netFrames.trans h2 (netFrames.trans (t := { s2 with clk.pickOut := 0 }) rfl (netFrame_contend _))

/-! ### Placement (R46, R68) -/

theorem axFrame_setKiln (s : State) (k : Kiln) : axFrame s { s with kiln := k } := rfl
theorem axFrame_modUn (s : State) (u : Nat) (f : AcqU → AcqU) : axFrame s (modUn s u f) := rfl
theorem axFrame_poolMoves (s t : State) : axFrame t (poolMoves s t) :=
  axFrames.trans
    (axFrames.loop _ (fun v u => axFrames.trans (axFrames.trans (axFrame_unStop v u) (axFrame_modUn _ u _)) (axFrame_setKiln _ _)) t)
    (axFrames.loop _ axFrame_histEmpty _)
theorem axFrame_placeDrops (s t : State) : axFrame t (placeDrops s t) := axFrames.loop _ axFrame_axUnplace t

/-- A placement that is put into force, before what it drops and moves. -/
def placementSet (s : State) (pl : Place) : State :=
  { s with warp := { s.warp with epoch := s.warp.epoch + 1, bankB := !s.warp.bankB, place := pl, placed := true } }
theorem unitFrame_placePut (s : State) (full : Bool) (pl : Place) : unitFrame (placementSet s pl) (placePut s full pl) :=
  unitFrames.trans (lineFrames.loop _ (fun t n => lineFrames.trans (lineFrame_modNd t n _) (lineFrame_ndItem _ n)) _).unit
    (axFrames.trans (axFrame_placeDrops s _) (axFrame_poolMoves s _)).unit
theorem sameTimer_placePut (s : State) (full : Bool) (pl : Place) : sameTimer s (placePut s full pl) :=
  sameTimers.trans (t := placementSet s pl) rfl (unitFrame_placePut s full pl).timer

/-- The timer is kept; where no commit and no step-motor value waits, all but the numbered units is. -/
def dropFrame (s t : State) : Prop := sameTimer s t ∧ (s.par.pends = [] → s.par.stepMod = [] → unitFrame s t)
theorem dropFrames : Frame dropFrame where
  carriers h := ⟨sameTimers.carriers h, fun _ _ => unitFrames.carriers h⟩
  trans := fun ⟨ht, hu⟩ ⟨kt, ku⟩ => ⟨sameTimers.trans ht kt, fun hp hm => by
    have h := hu hp hm
    exact unitFrames.trans h (ku (by rw [h.eff.par, hp]) (by rw [h.eff.par, hm]))⟩
theorem unitFrame.drop {s t : State} (h : unitFrame s t) : dropFrame s t := ⟨h.timer, fun _ _ => h⟩
theorem tabMerge_nil (t : Tab Int) : tabMerge t [] = t := rfl
theorem stepAnswer_none {s : State} (h : s.par.pends = []) (c : Pend → Bool) (st : Nat) : stepAnswer s c st = s := by
  unfold stepAnswer
  rw [h]
  rfl
theorem stepModDone_idle {s : State} (hp : s.par.pends = []) (hm : s.par.stepMod = []) (a : Nat) : stepModDone s a = s := by
  unfold stepModDone
  simp only [hm, List.filter_nil, tabMerge_nil]
  rw [stepAnswer_none (by exact hp), ← hm]
theorem dropFrame_stepModDone (s : State) (a : Nat) : dropFrame s (stepModDone s a) :=
  ⟨(cutFrame_stepModDone s a).timer, fun hp hm => by
    rw [stepModDone_idle hp hm]
    exact unitFrames.refl s⟩
theorem dropFrame_declDrops (s t : State) : dropFrame t (declDrops s t) :=
  dropFrames.loop _ (fun u a => dropFrames.trans (dropFrame_stepModDone u a) (axFrame_axUnplace _ a).unit.drop) t

theorem still_runAnswer (s : State) (r : Run) (st : Nat) : still s (runAnswer s r st) := by
  unfold runAnswer
  exact (stills.waits s _ _ _).trans (stills.cond _ (fun t => stills.waits t _ _ _) _)
/-- A placement result taken, before its values and its placement come into force. -/
def resultTaken (s : State) (r : Run) (rep : Report) : State :=
  { s with warp := { s.warp with result := none, resItem := none, report := rep },
           par.stages := r.sets.foldl (fun t k => tabErase t k) s.par.stages,
           net.fromPlen := if r.trig = 4 then false else s.net.fromPlen }
/-- The placement of a result put into force, before the network follows it. -/
def resultPlaced (s : State) (r : Run) (pl : Place) (rep : Report) : State :=
  placePut (declDrops s (applyVals (resultTaken s r rep) r.vals)) r.full pl
theorem placeApply_some {s : State} {r : Run} {pl : Place} {rep : Report} (h : s.warp.result = some (r, pl, rep)) (hd : itemDone s s.warp.resItem = true) :
    placeApply s = runAnswer (asgAll (laneRekeys s (branchesSet s (resultPlaced s r pl rep))) pl) r 0 := by
  unfold placeApply
  rw [h]
  exact if_pos hd
/-- What follows a placement in the network and in the completions of its run. -/
theorem netFrame_resultAnswered (s t : State) (r : Run) (pl : Place) : netFrame t (runAnswer (asgAll (laneRekeys s (branchesSet s t)) pl) r 0) :=
  netFrames.trans (netFrame_branchesSet s t)
    (netFrames.trans (lineFrames.trans (lineFrame_laneRekeys s _) (lineFrame_asgAll _ pl)).transmission (netFrames.carriers (still_runAnswer _ r 0)))
theorem sameTimer_resultPlaced (s : State) (r : Run) (pl : Place) (rep : Report) : sameTimer s (resultPlaced s r pl rep) :=
  sameTimers.trans (sameTimers.trans (sameTimers.trans (t := resultTaken s r rep) rfl (sameTimer_applyVals _ r.vals)) (dropFrame_declDrops s _).1)
    (sameTimer_placePut _ r.full pl)
theorem placeApply_none {s : State} (h : s.warp.result = none) : placeApply s = s := by
  unfold placeApply
  rw [h]
theorem sameTimer_placeApply (s : State) : sameTimer s (placeApply s) := by
  rcases hr : s.warp.result with _ | ⟨r, pl, rep⟩
  · rw [placeApply_none hr]
    exact sameTimers.refl s
  · by_cases hd : itemDone s s.warp.resItem = true
    · rw [placeApply_some hr hd]
      exact sameTimers.trans (sameTimer_resultPlaced s r pl rep) (netFrame_resultAnswered s _ r pl).timer
    · unfold placeApply
      rw [hr]
      simp only [if_neg hd]
      exact sameTimers.refl s

theorem effFrame_ptpBolt (s : State) : effFrame s (ptpBolt s) := by
  unfold ptpBolt
  split
  · exact effFrames.refl s
  · extract_lets r jump p s1 d
    have h1 : effFrame s s1 := rfl
    exact effFrames.ite (effFrames.trans h1 rfl) h1
theorem sameTimer_boltApply (s : State) : sameTimer s (boltApply s) :=
  sameTimers.trans (sameTimers.trans (sameTimers.ite (sameTimers.refl s) (sameTimer_placeApply s)) (sameTimer_applyBound _ .bolt)) (effFrame_ptpBolt _).timer

/-! ### Role and pick length (R24, R91, R484) -/

theorem sameTimer_plenBegin (s : State) (code : Nat) : sameTimer s (plenBegin s code) :=
  sameTimers.trans (t := (sendWait s (.params [(pkey 0x0010 0, code)]) true).1) (sameTimer_of_quiet (quiet_sendWait s _ true)) rfl
theorem sameTimer_runStart (s : State) (r : Run) : sameTimer s (runStart s r) :=
  sameTimers.trans (t := { s with warp := _ }) rfl (sameTimers.cond _ (fun t => sameTimer_plenBegin t _) _)
theorem sameTimer_leadNow (s : State) : sameTimer s (leadNow s) :=
  sameTimers.trans (netFrame_setNet s _).timer (sameTimers.cond _ (fun t => (unitFrame_roleSet t true).timer) _)
theorem sameTimer_setWarp (s : State) (w : Warp) : sameTimer s { s with warp := w } := rfl
theorem sameTimer_coldEnd (s : State) : sameTimer s (coldEnd s) := by
  unfold coldEnd
  extract_lets l n s1 r w s2
  have h1 : sameTimer s s1 := sameTimers.trans (sameTimer_leadNow s) (netFrame_setNet _ _).timer
  have h2 : sameTimer s s2 := sameTimers.trans h1 (sameTimer_setWarp s1 _)
  clear_value s1 s2
  exact sameTimers.ite h1 (sameTimers.ite (sameTimers.trans h2 (sameTimer_setWarp s2 _)) (sameTimers.trans h2 (sameTimer_runStart s2 r)))
theorem sameTimer_plenBolt (s : State) : sameTimer s (plenBolt s) :=
  sameTimers.ite (sameTimers.ite rfl (sameTimers.ite rfl (sameTimers.refl s))) (sameTimers.refl s)

end Sys2Proof.Machine
end

section
/-! The items of the partner and the end of a change of role leave the pick timer. -/
open Sys2Proof Sys2Proof.Machine
namespace Sys2Proof.Machine

/-! ### Items of the partner (R478) -/

section
variable (s : State)
theorem sameTimer_setAcc (a : Acc) : sameTimer s { s with acc := a } := rfl
theorem sameTimer_setBoot (b : Boot) : sameTimer s { s with boot := b } := rfl
theorem sameTimer_setDmp (d : Damper) : sameTimer s { s with dmp := d } := rfl
theorem sameTimer_setPair (p : Pair) : sameTimer s { s with pair := p } := rfl
theorem sameTimer_modMb (m : Nat) (f : Mb → Mb) : sameTimer s (modMb s m f) := rfl
theorem sameTimer_modAx (a : Nat) (f : Axis → Axis) : sameTimer s (modAx s a f) := rfl
theorem sameTimer_modNd (n : Nat) (f : Node → Node) : sameTimer s (modNd s n f) := rfl
theorem sameTimer_modKey (i : Nat) (f : KeySlot → KeySlot) : sameTimer s (modKey s i f) := rfl
theorem sameTimer_raise (c i : Nat) (pl : Bytes) : sameTimer s (raise s c i pl) := rfl
theorem sameTimer_produce (m : Nat) (f : Flight) (st : Nat) (pl : Bytes) : sameTimer s (produce s m f st pl) := sameTimers.carriers (still_produce s m f st pl)

theorem sameTimer_auditAdd (o m k sn ov nv : Nat) : sameTimer s (auditAdd s o m k sn ov nv) := by
  refine sameTimer_of_clk ?_
  unfold auditAdd
  simp only []
  split <;> rfl
theorem sameTimer_otpFails (t : State) : sameTimer s (otpFails s t) := rfl
theorem sameTimer_otpChange (io : IoResult) (o m k ov nv : Nat) {f : State → State} (hf : ∀ t, sameTimer t (f t)) :
    sameTimer s (otpChange s io o m k ov nv f).1 := by
  unfold otpChange
  split
  · have h := sameTimer_auditAdd s o m k (otpSnap (f s).acc) ov nv
    extract_lets s1
    split
    · exact sameTimers.trans h (hf s1)
    · exact sameTimers.trans h (sameTimer_otpFails s1 _)
  · exact sameTimers.refl s
theorem sameTimer_otpLow (ov nv mark last : Nat) : sameTimer s (otpLow s ov nv mark last) :=
  sameTimers.trans (sameTimers.cond _ (fun t => sameTimer_raise t _ _ _) s) (sameTimers.cond _ (fun t => sameTimer_raise t _ _ _) _)
theorem sameTimer_debugOff : sameTimer s (debugOff s) := sameTimer_setAcc s _
theorem sameTimer_safConsume (io : IoResult) (u : State) (m : Nat) : sameTimer s (safConsume io s u m).1 :=
  sameTimers.trans (sameTimer_otpChange s io 0 m 0x05 _ _ fun t => sameTimer_setAcc t _) (sameTimer_otpLow _ _ _ 28 32)
theorem sameTimer_cfgStore (vals : Tab Int) : sameTimer s (cfgStore s vals) := by
  unfold cfgStore
  exact sameTimers.ite (sameTimer_setBoot s _) (sameTimer_setBoot s _)
theorem sameTimer_paramsIn (vals : Tab Int) : sameTimer s (paramsIn s vals) := by
  unfold paramsIn
  extract_lets s0 s1 s2 s3
  have h0 : sameTimer s s0 := sameTimer_applyVals s vals
  have h1 : sameTimer s0 s1 := sameTimers.loop _ (fun t b => (netFrame_branchOff t b).timer) s0
  have h2 : sameTimer s1 s2 := sameTimers.cond _ (fun t => sameTimer_cfgStore t vals) s1
  have h3 : sameTimer s2 s3 := sameTimers.cond _ (fun t => sameTimer_otpChange t ioFine 0 9 0x07 0 1 sameTimer_debugOff) s2
  have h := sameTimers.trans (sameTimers.trans h0 h1) (sameTimers.trans h2 h3)
  clear_value s3
  split
  · exact sameTimers.ite h (sameTimers.trans h rfl)
  · exact h
theorem sameTimer_branchesIn (pw ct : BitVec 16) : sameTimer s (branchesIn s pw ct) :=
  sameTimers.loop (List.range 16) (fun t b => (lineFrame_modBr t b _).unit.timer) s
theorem sameTimer_accessIn (tgt : Nat) (ws : List (BitVec 16)) (n : Nat) : sameTimer s (accessIn s tgt ws n) :=
  sameTimers.trans (sameTimer_setAcc s _)
    (sameTimers.loop ((List.range 12).zip ws) (fun t _ => sameTimers.ite (sameTimers.refl t) (sameTimer_setAcc t _)) _)
theorem sameTimer_keyIn (i st m : Nat) (key : Bytes) : sameTimer s (keyIn s i st m key) := by
  unfold keyIn
  extract_lets k prog revoke
  have hp : ∀ t, sameTimer t (prog t) := fun t => sameTimer_otpChange t ioFine i 9 0x02 0 _ fun u => sameTimer_modKey u i _
  have hr : ∀ t, sameTimer t (revoke t) := fun t =>
    sameTimers.trans (sameTimer_otpChange t ioFine i 9 0x03 _ 0 fun u => sameTimer_modKey u i _) (sameTimer_raise _ _ _ _)
  exact sameTimers.ite (sameTimers.refl s) (sameTimers.ite (hp s) (sameTimers.ite (sameTimers.trans (hp s) (hr _))
    (sameTimers.ite (hr s) (sameTimer_raise s _ _ _))))
theorem sameTimer_safeSetIn (vals : Tab Int) : sameTimer s (safeSetIn s vals) := by
  unfold safeSetIn
  extract_lets p u d s1
  have h1 : sameTimer s s1 := sameTimers.trans (sameTimers.trans (sameTimer_safConsume s ioFine u 9) (sameTimer_applyVals _ vals)) (sameTimer_cfgStore _ vals)
  clear_value s1
  refine sameTimers.ite (sameTimer_setDmp s _) (sameTimers.ite (sameTimers.trans h1 (sameTimer_setDmp s1 _)) ?_)
  exact sameTimers.trans (sameTimers.trans (sameTimer_setDmp s _) (effFrame_safSetFind _).timer) (sameTimer_raise _ _ _ _)
theorem sameTimer_sogRelease (g : Nat) : sameTimer s (sogRelease s g) := rfl
theorem sameTimer_releaseItem (mask : BitVec 4) : sameTimer s (releaseItem s mask) := sameTimers.loop _ sameTimer_sogRelease s
theorem sameTimer_journalIn (m : Nat) (c : Cpl) : sameTimer s (journalIn s m c) :=
  sameTimers.trans (sameTimers.trans (sameTimer_modMb s m _) (sameTimer_setPair _ _)) (sameTimers.cond _ (fun t => sameTimers.waits t _ _ _) _)
theorem sameTimer_acceptIn (e : CmdEntry) (op : Nat) (eff : Option (List (BitVec 32))) : sameTimer s (acceptIn s e op eff) :=
  sameTimers.trans (sameTimer_modMb s e.master _) (sameTimer_setPair _ _)

theorem sameTimer_itemIn (b : ItemBody) : sameTimer s (itemIn s b) := by
  cases b with
  | params vals => exact sameTimer_paramsIn s vals
  | placement e pl vals =>
    have h := sameTimers.trans (sameTimer_paramsIn s vals) (dropFrame_declDrops s (paramsIn s vals)).1
    exact sameTimers.trans (sameTimers.trans h (sameTimer_placePut _ false pl)) (sameTimer_setWarp _ _)
  | journal m q op tag st psl pl => exact sameTimer_journalIn s m _
  | acceptance e op eff => exact sameTimer_acceptIn s e op eff
  | branches pw ct => exact sameTimer_branchesIn s pw ct
  | access t ws n => exact sameTimer_accessIn s t ws n
  | key i st m k => exact sameTimer_keyIn s i st m k
  | safeRelease mask => exact sameTimer_releaseItem s mask
  | safeSet vals => exact sameTimer_safeSetIn s vals
  | allParams vals => exact sameTimer_paramsIn s _
  | axisState a st r f d => exact sameTimer_modAx s a _
  | queue a es act lim => exact sameTimer_modAx s a _
  | group g es act mem len lead sh vm hold qd => exact rfl
  | feedbackOfs a w dc k ph rf miss ho => exact sameTimer_modAx s a _
  | debounced a sw lvl ce ch => exact sameTimer_modAx s a _
  | homing a hm => exact sameTimer_modAx s a _
  | network n adm mu it lo t d g => exact sameTimer_modNd s n _
  | microstep n img => exact sameTimer_modNd s n _
  | count a c => exact sameTimer_modAx s a _
  | nextSeq m q => exact sameTimer_modMb s m _
  | base n => exact sameTimer_setPair s _
  | _ => exact sameTimers.refl s
theorem sameTimer_itemApplied (n : BitVec 32) : sameTimer s (itemApplied s n) := by
  unfold itemApplied
  exact sameTimers.loop _ (fun t m => sameTimers.loop _ (fun u f => sameTimer_produce u m f 0 _) t) s
theorem sameTimer_itemsDue : sameTimer s (itemsDue s) := by
  unfold itemsDue
  refine sameTimers.ite (sameTimers.refl s) (sameTimers.trans (sameTimer_setPair s _) (sameTimers.loop _ (fun t i => ?_) _))
  exact sameTimers.trans (sameTimer_itemIn t i.body) (sameTimer_itemApplied _ _)
theorem sameTimer_bulkApply : sameTimer s (bulkApply s) :=
  sameTimers.ite (sameTimers.trans (sameTimer_setPair s _) (sameTimers.loop _ sameTimer_itemIn _)) (sameTimers.refl s)

/-! ### A change of role (R484, R487, R488) -/

theorem sameTimer_modSess (m : Nat) (f : SessPair → SessPair) : sameTimer s (modSess s m f) := rfl
theorem sameTimer_sessClose (m cause : Nat) : sameTimer s (sessClose s m cause) :=
  sameTimers.ite (sameTimers.trans (sameTimer_modSess s m _) (sameTimer_raise _ _ _ _)) (sameTimers.refl s)
theorem sameTimer_sessRole : sameTimer s (sessRole s) :=
  sameTimers.loop [1, 2, 3, 4] (fun t m => sameTimers.trans (sameTimer_sessClose t m 3) (sameTimer_modSess _ m _)) s
theorem sameTimer_modGrp (g : Nat) (f : Grp → Grp) : sameTimer s (modGrp s g f) := rfl
theorem sameTimer_sessTrace : sameTimer s (sessRole { s with kiln.trace := [] }) :=
  sameTimers.trans (t := { s with kiln.trace := [] }) rfl (sameTimer_sessRole _)
theorem sameTimer_takeRun (p : BitVec 32) : sameTimer s (takeRun s p) := by
  unfold takeRun
  extract_lets s1 s2 s3 s4 s5 s6 k
  have h1 : sameTimer s s1 := sameTimers.loop _ (fun t a => sameTimer_modAx t a _) s
  have h2 : sameTimer s1 s2 := sameTimers.loop _ (fun t g => sameTimers.ite (sameTimers.refl t) (sameTimer_modGrp t g _)) s1
  have h3 : sameTimer s2 s3 := sameTimers.loop _ (fun t n => sameTimer_modNd t n _) s2
  have h4 : sameTimer s3 s4 := sameTimers.loop _ (fun t e => (effFrame_setEffect t t _).timer) s3
  have h5 : sameTimer s4 s5 := sameTimers.loop _ (fun t u => (axFrame_unStop t u).unit.timer) s4
  have h := sameTimers.trans (sameTimers.trans h1 h2) (sameTimers.trans (sameTimers.trans h3 h4) h5)
  have h6 : sameTimer s5 s6 := sameTimers.loop _ (fun t a => sameTimers.ite (axFrame_histEmpty t a).unit.timer (sameTimers.refl t)) s5
  clear_value s6
  exact sameTimers.trans (sameTimers.trans h h6) (sameTimer_sessTrace s6)
theorem sameTimer_flightGoes (w : Wait) : sameTimer s (flightGoes s w) := by
  unfold flightGoes
  split
  · exact sameTimer_modAx s _ _
  · exact (lineFrame_imageSend s _).unit.timer
  · exact sameTimers.refl s
theorem sameTimer_flightTake (st : Nat) (a : Acceptance) : sameTimer s (flightTake st s a) := by
  unfold flightTake
  extract_lets m put fl done es
  have hput : ∀ t w, sameTimer t (put t w) := fun t w => sameTimer_modMb t m _
  have hdone : ∀ v pl, sameTimer s (done v pl) := fun v pl => sameTimers.trans (hput s none) (sameTimer_produce _ m _ v pl)
  refine sameTimers.ite (sameTimers.refl s) (sameTimers.ite (sameTimers.ite (hdone _ _) ?_) (sameTimers.trans (sameTimer_setPair s _) (hput _ _)))
  split
  · exact sameTimers.trans (sameTimer_flightGoes s _) (hput _ _)
  · exact hdone _ _
theorem sameTimer_swapEnd : sameTimer s (swapEnd s) := by
  unfold swapEnd
  refine sameTimers.ite (sameTimers.refl s) (sameTimers.ite ?_ (sameTimer_setPair s _))
  exact sameTimers.trans (sameTimers.trans (sameTimer_setPair s _) (sameTimer_takeRun _ _)) (sameTimers.loop _ (fun t a => sameTimer_flightTake t 0 a) _)
end

end Sys2Proof.Machine
end

section
/-! The start of a pick and the end of a bolt in their parts, and how each moves the pick timer (R25). -/
open Sys2Proof Sys2Proof.Machine
namespace Sys2Proof.Machine

/-! ### The end of a pick -/

theorem lineFrame_setPair (s : State) (p : Pair) (h : (p.inbox, p.swapSt, p.swapAt) = swapState s) : lineFrame s { s with pair := p } := ⟨⟨rfl, h⟩, violKept_of_nodes rfl⟩
theorem lineFrame_missed (s : State) (bs : List Nat) :
    lineFrame s (forEach bs (fun t b => forEach [4 * b, 4 * b + 1, 4 * b + 2, 4 * b + 3] (fun u n => modNd u n (fun d => { d with downMiss := true })) t) s) :=
  lineFrames.loop bs (fun t _ => lineFrames.loop _ (fun u n => lineFrame_modNd u n _) t) s
theorem lineFrame_pairPickEnd (s : State) : lineFrame s (pairPickEnd s) := by
  unfold pairPickEnd
  extract_lets sb read silent p s1 miss s2
  have h1 : lineFrame s s1 := lineFrame_setPair s _ rfl
  have h2 : lineFrame s1 s2 := lineFrame_missed s1 miss
  clear_value s2
  exact lineFrames.ite (lineFrames.trans h1 (lineFrames.trans h2 ⟨⟨rfl, rfl⟩, violKept_of_nodes rfl⟩)) h1
theorem outFrame_echoStaging (s : State) (c : Bool) : outFrame s (when c (fun t => stagingCheck (echoPick t)) s) :=
  outSteps.cond c (fun t => outSteps.trans (outFrame_echoPick t) (outFrame_stagingCheck _)) s
theorem unitFrame_setCollide (s : State) (n : Nat) : unitFrame s { s with pair.collide := n } := rfl
theorem unitFrame_pickEnd (s : State) : unitFrame s (pickEnd s) :=
  unitFrames.trans (axFrame_axisCmds s).unit (unitFrames.trans (outFrame_echoStaging _ _).hand.unit
    (unitFrames.trans (lineFrame_pairPickEnd _).unit (unitFrame_setCollide _ _)))

/-! ### What a bolt counts -/

/-- The branches, the axes, the lanes and what else counts over a bolt, as `boltCount` ends them one after the other. -/
def branchesBolt (s : State) : State := forEach (List.range 16) branchBolt s
def axesBolt (s : State) : State := forEach ((List.range 128).filter (fun a => axClass s a != 0)) axisBolt s
def lanesBolt (s : State) : State := forEach (List.range 8) laneBolt (forEach (List.range 8) laneLast s)
def kilnIfLeads (s : State) : State := if isStandby s then s else kilnBolt s
def outputsBolt (s : State) : State := kilnIfLeads (forEach [0, 1, 2] canBolt (forEach [0, 1, 2, 3] echoBolt s))
def sessionsBolt (s : State) : State :=
  { s with eth.authFail := [], pair.syncBolts := if inSync s then satInc 16 s.pair.syncBolts else 0 }
theorem boltCount_eq (s : State) : boltCount s = sessionsBolt (outputsBolt (lanesBolt (axesBolt (branchesBolt s)))) := by
  unfold boltCount
  extract_lets s1 s2 s3 s4 s5
  show sessionsBolt s5 = sessionsBolt _
  rfl

theorem cutKeeps_branchesBolt (s : State) : cutKeeps s (branchesBolt s) := cutKeepsFrames.loop (List.range 16) cutKeeps_branchBolt s
theorem faceFrame_axesBolt (s : State) : faceFrame s (axesBolt s) := faceSteps.loop _ faceFrame_axisBolt s
theorem laneFrame_lanesBolt (s : State) : laneFrame s (lanesBolt s) :=
  laneSteps.trans (laneSteps.loop (List.range 8) laneFrame_laneLast s) (laneSteps.loop (List.range 8) laneFrame_laneBolt _)
theorem outFrame_kilnIfLeads (s : State) : outFrame s (kilnIfLeads s) := outSteps.ite (outSteps.refl s) (outFrame_kilnBolt s)
theorem outFrame_outputsBolt (s : State) : outFrame s (outputsBolt s) :=
  outSteps.trans (outSteps.trans (outSteps.loop [0, 1, 2, 3] outFrame_echoBolt s) (outSteps.loop [0, 1, 2] outFrame_canBolt _))
    (outFrame_kilnIfLeads _)
/-- What a bolt counts, but for the branches and the sessions. -/
theorem handFrame_handsBolt (s : State) : handFrame s (outputsBolt (lanesBolt (axesBolt s))) :=
  handSteps.trans (handSteps.trans (faceFrame_axesBolt s).hand (laneFrame_lanesBolt _).hand) (outFrame_outputsBolt _).hand
theorem clk_sessionsBolt (s : State) : (sessionsBolt s).clk = s.clk := rfl
theorem clk_boltCount (s : State) : (boltCount s).clk = s.clk := by
  rw [boltCount_eq, clk_sessionsBolt]
  exact (handFrame_handsBolt (branchesBolt s)).unit.eff.clk.trans (cutKeeps_branchesBolt s).1.clk

/-! ### The end of a bolt -/

/-- What takes effect with the first pick stamp of a bolt. -/
def boltEffects (s : State) : State :=
  boltApply (plenBolt (itemsDue (bulkApply (when (s.net.phase = .coldBolt && !s.net.readbackBad) coldEnd s))))
def joinsBolt (s : State) : State := when (sending s || isStandby s) (fun t => forEach (brList t) rejoinBolt t) s
theorem boltEnd_eq (s : State) : boltEnd s = joinsBolt (boltEffects (boltTick (boltCount (pickEnd s)))) := by
  unfold boltEnd
  extract_lets s1 s2 s3
  show joinsBolt s3 = joinsBolt _
  rfl
theorem lineFrame_joinsBolt (s : State) : lineFrame s (joinsBolt s) := lineFrames.cond _ (fun t => lineFrames.loop _ lineFrame_rejoinBolt t) s
theorem sameTimer_boltEffects (s : State) : sameTimer s (boltEffects s) :=
  sameTimers.trans (sameTimers.trans (sameTimers.trans (sameTimers.cond _ sameTimer_coldEnd s) (sameTimer_bulkApply _)) (sameTimer_itemsDue _))
    (sameTimers.trans (sameTimer_plenBolt _) (sameTimer_boltApply _))
/-- The end of a bolt takes the pick timer to the pick that follows. -/
theorem timer_boltEnd (s : State) : timer (boltEnd s) = (s.clk.pstamp + 1, s.clk.started, true, false, s.clk.pickT0 + tPick s) := by
  have hc : (boltCount (pickEnd s)).clk = s.clk := (clk_boltCount _).trans (unitFrame_pickEnd s).eff.clk
  have ht : timer (boltTick (boltCount (pickEnd s))) = (s.clk.pstamp + 1, s.clk.started, true, false, s.clk.pickT0 + tPick s) := by
    unfold timer boltTick tPick
    simp only [hc]
  rw [boltEnd_eq, ← ht]
  exact sameTimers.trans (sameTimer_boltEffects _) (lineFrame_joinsBolt _).unit.timer

/-! ### The start of a pick -/

/-- What takes effect with the pick stamp of a pick, and what the pick begins with. -/
def pickEffects (s : State) : State := applyBound (itemsDue (swapEnd s)) .pick
def linesPick (s : State) : State := forEach (List.range 64) nodePick (forEach (List.range 16) branchPick s)
def axesPick (s : State) : State := forEach ((List.range 128).filter (fun a => axClass s a != 0)) axisSafe s
def pickSent (bad : List BranchNo) (s : State) : State := pairPickStart (markerSend (unlistedRun flightsMax s) bad)
theorem pickBegin_eq (s : State) (bad : List BranchNo) : pickBegin s bad =
    pickSent bad (axesPick (loomPickStart (linesPick (pickEffects (loomPickEnd (pickTick (if s.clk.boltDone then s else pickEnd s))))))) := rfl

theorem lineFrame_linesPick (s : State) : lineFrame s (linesPick s) :=
  lineFrames.trans (lineFrames.loop (List.range 16) lineFrame_branchPick s) (lineFrames.loop (List.range 64) lineFrame_nodePick _)
theorem axFrame_axesPick (s : State) : axFrame s (axesPick s) := axFrames.loop _ axFrame_axisSafe s
theorem quiet_unlistedRun (n : Nat) (s : State) : quiet s (unlistedRun n s) := by
  induction n generalizing s with
  | zero => exact .refl s
  | succ n ih =>
    unfold unlistedRun
    split
    · exact quiets.ite (.refl s) (((quiet_noteTurn s _ _).trans (quiet_produce _ _ _ _ _)).trans (ih _))
    · exact .refl s
theorem quiet_setPair (s : State) (p : Pair) : quiet s { s with pair := p } := rfl
theorem quiet_canTell (s : State) : quiet s (canTell s) :=
  quiets.loop (List.range 3) (fun t _ => quiets.ite (.refl t) ((quiet_setPair t _).trans (quiet_sendItem _ _))) s
theorem quiet_outAll (os : List OutItem) (s : State) : quiet s (outAll os s) := by
  induction os generalizing s with
  | nil => exact .refl s
  | cons o os ih => exact quiets.ite (quiet.trans (t := outPut s o) rfl (ih _)) (.refl s)
theorem quiet_pairPickStart (s : State) : quiet s (pairPickStart s) := by
  unfold pairPickStart
  extract_lets p s0 s1 due s2
  have h0 : quiet s s0 := quiet_setPair s _
  have h1 : quiet s0 s1 := quiets.cond _ quiet_canTell s0
  have h2 : quiet s1 s2 := quiets.cond _ (quiet_outAll _) s1
  have h3 : quiet s2 (when (s2.pair.active && s2.pair.lstate = 2) bulkSend s2) := quiets.cond _ (fun t => quiet_setPair t _) s2
  exact quiets.ite (((h0.trans h1).trans h2).trans h3) (.refl s)
theorem netFrame_of_quiet {s t : State} (h : quiet s t) : netFrame s t := by
  unfold netFrame quiet at *
  rw [h]
theorem netFrame_pickSent (bad : List BranchNo) (s : State) : netFrame s (pickSent bad s) :=
  netFrames.trans (netFrame_of_quiet (quiet_unlistedRun _ s)) (netFrames.trans (netFrame_markerSend _ bad) (netFrame_of_quiet (quiet_pairPickStart _)))
theorem sameTimer_pickEffects (s : State) : sameTimer s (pickEffects s) :=
  sameTimers.trans (sameTimers.trans (sameTimer_swapEnd s) (sameTimer_itemsDue _)) (sameTimer_applyBound _ .pick)

/-- The pick timer of the pick that follows: the first one, the one that the end of a bolt has gone to, or the next (R25). -/
def nextPick (s : State) : BitVec 32 × Bool × Bool × Bool × Nat :=
  (if s.clk.started = false then 0 else if s.clk.boltDone = true then s.clk.pstamp else s.clk.pstamp + 1, true, false, false,
   if s.clk.started = false then s.clk.now else if s.clk.boltDone = true then s.clk.pickT0 else s.clk.pickT0 + tPick s)
theorem timer_pickTick {s u : State} (hc : u.clk = s.clk) : timer (pickTick u) = nextPick s := by
  unfold timer pickTick nextPick tPick
  simp only [hc, Bool.not_eq_true']
/-- The start of a pick moves the pick timer to it. -/
theorem timer_pickBegin (s : State) (bad : List BranchNo) : timer (pickBegin s bad) = nextPick s := by
  have hc : (if s.clk.boltDone then s else pickEnd s).clk = s.clk := by
    split
    · rfl
    · exact (unitFrame_pickEnd s).eff.clk
  rw [pickBegin_eq, ← timer_pickTick hc]
  exact sameTimers.trans (sameTimers.trans (unitFrame_loomPickEnd _).timer (sameTimer_pickEffects _))
    (sameTimers.trans (sameTimers.trans (lineFrame_linesPick _).unit.timer (axFrame_loomPickStart _).unit.timer)
      (sameTimers.trans (axFrame_axesPick _).unit.timer (netFrame_pickSent bad _).timer))

/-! ### The rows -/

/-- What a row leaves of the state it computes. -/
def rowKept (s t : State) : State := { t with pending := s.pending, ddr := s.ddr, dmp := islandKeep s.dmp t.dmp }
theorem finishV_eq (s t : State) : finishV s t = .next (rowKept s t) := rfl
theorem finishV_same (s : State) : finishV s s = .next s := finishV_self s s rfl
theorem exec_pickStart_locked {s : State} (h : s.clk.locked = true) (bad : List BranchNo) : exec (.pickStart bad) s = .next (rowKept s (pickBegin s bad)) := by
  show finishV s (when s.clk.locked _ s) = _
  rw [h, when_true, finishV_eq]
theorem exec_pickStart_unlocked {s : State} (h : s.clk.locked = false) (bad : List BranchNo) : exec (.pickStart bad) s = .next s := by
  show finishV s (when s.clk.locked _ s) = _
  rw [h]
  exact finishV_same s
/-- A bolt ends. -/
def boltDue (s : State) : Bool := s.clk.locked && s.clk.started && psPick (ps s) = 31 && !s.clk.boltDone
theorem boltDue_iff (s : State) : boltDue s = true ↔ s.clk.locked = true ∧ s.clk.started = true ∧ psPick (ps s) = 31 ∧ s.clk.boltDone = false := by
  simp [boltDue, and_assoc]
theorem exec_boltBoundary_due {s : State} (h : boltDue s = true) : exec .boltBoundary s = .next (rowKept s (boltEnd s)) := by
  show finishV s (when (boltDue s) boltEnd s) = _
  rw [h, when_true, finishV_eq]
theorem exec_boltBoundary_early {s : State} (h : boltDue s = false) : exec .boltBoundary s = .next s := by
  show finishV s (when (boltDue s) boltEnd s) = _
  rw [h]
  exact finishV_same s

end Sys2Proof.Machine
end

section
/-! The start of a pick at a controller that leads: the values of the pick come into force (R386, R388), a mute begins (R139), a node is
admitted (R101), a branch carries markers again (R92). -/
open Sys2Proof Sys2Proof.Machine
namespace Sys2Proof.Machine

/-! ### Loops that visit each member once -/

section
variable {α : Type} {f : State → α → State} {s : State} {xs : List α} {P Q : State → Prop}
/-- What every turn keeps true, the loop keeps true. -/
theorem forEach_stays (h : ∀ t, ∀ x ∈ xs, P t → P (f t x)) (hs : P s) : P (forEach xs f s) := by
  unfold forEach
  induction xs generalizing s with
  | nil => exact hs
  | cons x xs ih => exact ih (fun t y hy => h t y (List.mem_cons_of_mem _ hy)) (h s x (by simp) hs)
/-- What one turn brings about, and the others leave, holds behind the loop. -/
theorem forEach_turn {x : α} (hn : xs.Nodup) (hx : x ∈ xs) (hf : ∀ t, P t → Q (f t x)) (hP : ∀ t y, y ≠ x → P t → P (f t y))
    (hQ : ∀ t y, y ≠ x → Q t → Q (f t y)) (hs : P s) : Q (forEach xs f s) := by
  induction xs generalizing s with
  | nil => simp at hx
  | cons y ys ih =>
    obtain ⟨hy, hn⟩ := List.nodup_cons.mp hn
    show Q (forEach ys f (f s y))
    by_cases hyx : y = x
    · subst hyx
      exact forEach_stays (fun t z hz => hQ t z fun he => hy (he ▸ hz)) (hf s hs)
    · exact ih hn ((List.mem_cons.mp hx).resolve_left (Ne.symm hyx)) (hP s y hyx hs)
end

/-! ### What waits for the pick -/

/-- Of a branch, whether it carries markers, or is to again (R92). -/
def brMarks (s : State) (b : Nat) : Bool × Bool × Option (BitVec 32) := ((brOf s b).markers, (brOf s b).resume, (brOf s b).resumeItem)
/-- The nodes, and the markers of the branches, are as they were. -/
def marksKept (s t : State) : Prop := t.nodes = s.nodes ∧ ∀ b, brMarks t b = brMarks s b
/-- So is all that waits for a pick. -/
def waitsKept (s t : State) : Prop := marksKept s t ∧ t.par = s.par ∧ t.net = s.net ∧ swapState t = swapState s

theorem marksKept_of_same {s t : State} (hn : t.nodes = s.nodes) (hb : t.brs = s.brs) : marksKept s t := by
  refine ⟨hn, fun b => ?_⟩
  unfold brMarks brOf
  rw [hb]
theorem marksKept_of_quiet {s t : State} (h : quiet s t) : marksKept s t := by
  unfold quiet at h
  refine marksKept_of_same ?_ ?_ <;> rw [h]
theorem marksFrames : Frame marksKept where
  carriers h := marksKept_of_quiet h.1
  trans := fun ⟨hn, hb⟩ ⟨kn, kb⟩ => ⟨kn.trans hn, fun b => (kb b).trans (hb b)⟩
theorem waitsFrames : Frame waitsKept where
  carriers h := by
    refine ⟨marksKept_of_quiet h.1, par_of_quiet h.1, ?_, h.2⟩
    have hq := h.1
    unfold quiet at hq
    rw [hq]
  trans := fun ⟨hm, hp, hn, hs⟩ ⟨km, kp, kn, ks⟩ => ⟨marksFrames.trans hm km, kp.trans hp, kn.trans hn, ks.trans hs⟩
theorem handFrame.waits {s t : State} (h : handFrame s t) : waitsKept s t := by
  refine ⟨marksKept_of_same h.nodes h.brs, h.par, h.unit.eff.net, ?_⟩
  unfold handFrame at h
  rw [h]
  rfl
theorem axFrame.marks {s t : State} (h : axFrame s t) : marksKept s t := by
  unfold axFrame quiet at h
  refine marksKept_of_same ?_ ?_ <;> rw [h]
/-- A change of a branch that leaves its markers. -/
theorem brMarks_modBr (s : State) (b : Nat) {f : Branch → Branch} (hm : ∀ x, (f x).markers = x.markers) (hr : ∀ x, (f x).resume = x.resume)
    (hi : ∀ x, (f x).resumeItem = x.resumeItem) (j : Nat) : brMarks (modBr s b f) j = brMarks s j := by
  unfold brMarks
  by_cases h : j = b
  · subst h
    rw [brOf_modBr, hm, hr, hi]
  · rw [brOf_modBr_other s f h]
theorem waitsKept_modBr (s : State) (b : Nat) {f : Branch → Branch} (hm : ∀ x, (f x).markers = x.markers) (hr : ∀ x, (f x).resume = x.resume)
    (hi : ∀ x, (f x).resumeItem = x.resumeItem) : waitsKept s (modBr s b f) := ⟨⟨rfl, brMarks_modBr s b hm hr hi⟩, rfl, rfl, rfl⟩

theorem axisCmds_free {s : State} (h : heddleFree s = true) : axisCmds s = s := by
  refine forEach_id fun m hm => ?_
  have he : (mbOf s m).flights = [] := by simpa using List.all_eq_true.mp h m hm
  simp only [he]
  rfl
theorem waitsKept_pairPickEnd {s : State} (h : isStandby s = false) : waitsKept s (pairPickEnd s) := by
  unfold pairPickEnd
  extract_lets sb read silent p s1
  have h1 : waitsKept s s1 := ⟨⟨rfl, fun _ => rfl⟩, rfl, rfl, rfl⟩
  clear_value s1
  rw [if_neg (by rw [show sb = false from h]; exact Bool.false_ne_true)]
  exact h1
theorem isStandby_of_net {s t : State} (h : t.net = s.net) : isStandby t = isStandby s := by
  unfold isStandby
  rw [h]
theorem calm.leads {s : State} (h : calm s) : isStandby s = false := by
  obtain ⟨-, hp, -⟩ := h
  simp [isStandby, hp]
theorem waitsKept_pickEnd {s : State} (h : calm s) : waitsKept s (pickEnd s) := by
  have hl := h.leads
  obtain ⟨-, -, hf, -⟩ := h
  have hh : handFrame s (when (s.clk.started && !isStandby s) (fun t => stagingCheck (echoPick t)) s) := (outFrame_echoStaging s _).hand
  unfold pickEnd
  simp only [axisCmds_free hf]
  generalize when (s.clk.started && !isStandby s) _ s = u at hh ⊢
  have hu : isStandby u = false := (isStandby_of_net hh.unit.eff.net).trans hl
  exact waitsFrames.trans hh.waits (waitsFrames.trans (waitsKept_pairPickEnd hu) ⟨⟨rfl, fun _ => rfl⟩, rfl, rfl, rfl⟩)
theorem waitsKept_pickTick (s : State) : waitsKept s (pickTick s) := ⟨⟨rfl, fun _ => rfl⟩, rfl, rfl, rfl⟩
theorem waitsKept_rxDropped (s : State) : waitsKept s (rxDropped s) := by
  unfold rxDropped
  refine waitsFrames.loop _ (fun t b => ?_) s
  exact waitsKept_modBr t b (fun _ => rfl) (fun _ => rfl) (fun _ => rfl)
theorem waitsKept_loomPickEnd (s : State) : waitsKept s (loomPickEnd s) := by
  rw [loomPickEnd_eq]
  exact waitsFrames.trans (handFrame_lanesPickEnd s).waits (waitsKept_rxDropped _)

/-- Without items of the partner none is due. -/
theorem itemsDue_none {s : State} (h : s.pair.inbox = []) : itemsDue s = s := by
  unfold itemsDue
  simp only [h]
  split
  · rfl
  · show { s with pair.inbox := [] } = s
    rw [← h]
/-- Without a swap and without items of the partner a pick begins with its commits. -/
theorem pickEffects_idle {s : State} (hs : s.pair.swapSt = 0) (hi : s.pair.inbox = []) : pickEffects s = applyBound s .pick := by
  have he : swapEnd s = s := by
    unfold swapEnd
    rw [if_pos (.inl hs)]
  unfold pickEffects
  rw [he, itemsDue_none hi]

/-- What follows the commits of a pick. -/
def pickRest (bad : List BranchNo) (s : State) : State := pickSent bad (axesPick (loomPickStart (linesPick s)))
/-- At a controller that leads, a pick that starts first puts into force what waits for it, and nothing that waits has changed before. -/
theorem pickBegin_calm {s : State} (h : calm s) (bad : List BranchNo) : ∃ u, waitsKept s u ∧ pickBegin s bad = pickRest bad (applyBound u .pick) := by
  have hk : waitsKept s (if s.clk.boltDone then s else pickEnd s) := waitsFrames.ite (waitsFrames.refl s) (waitsKept_pickEnd h)
  have hu : waitsKept s (loomPickEnd (pickTick (if s.clk.boltDone then s else pickEnd s))) :=
    waitsFrames.trans hk (waitsFrames.trans (waitsKept_pickTick _) (waitsKept_loomPickEnd _))
  obtain ⟨-, -, -, hi, hs, -⟩ := h
  obtain ⟨-, -, -, hsw⟩ := id hu
  obtain ⟨hui, hus, -⟩ : _ = s.pair.inbox ∧ _ = s.pair.swapSt ∧ _ := by simpa only [swapState, Prod.mk.injEq] using hsw
  refine ⟨_, hu, ?_⟩
  rw [pickBegin_eq, pickEffects_idle (hus.trans hs) (hui.trans hi)]
  rfl
theorem par_pickRest (bad : List BranchNo) (s : State) : (pickRest bad s).par = s.par :=
  (netFrame_pickSent bad _).par.trans ((axFrames.trans (axFrame_loomPickStart _) (axFrame_axesPick _)).unit.eff.par.trans (lineFrame_linesPick s).unit.eff.par)

/-- The values that wait for the pick come into force. -/
theorem inForce_pickBegin {s : State} (h : calm s) (bad : List BranchNo) {p : Pend} (hp : onlyPend s p .pick) : inForce s (pickBegin s bad) p := by
  obtain ⟨u, ⟨-, hup, -⟩, hb⟩ := pickBegin_calm h bad
  have hou : onlyPend u p .pick := by
    unfold onlyPend
    rw [hup]
    exact hp
  rw [hb]
  exact inForce_of_par (inForce_applyBound hou) hup (par_pickRest bad _)

/-! ### Branches at the start of a pick (R91, R92) -/

/-- A branch begins, or resumes, to carry markers with this pick. -/
def markersDue (s : State) (b : Nat) : Bool :=
  sending s && (((brOf s b).resume && itemDone s (brOf s b).resumeItem) ||
    match (brOf s b).markFrom with | some k => decide (psPick (ps s) = 0) && boltReached s k | none => false)
/-- A branch at the start of a pick, before the completions that wait for it. -/
def branchBegun (s : State) (b : Nat) : State :=
  if brOf s b = {} then s
  else modBr s b (fun x =>
    { x with rbNow := false, joinAck := [], win := 0, calDone := false, runOn := none, markers := x.markers || markersDue s b,
             resume := x.resume && !markersDue s b, resumeItem := if markersDue s b then none else x.resumeItem,
             markFrom := if markersDue s b then none else x.markFrom })
theorem quiet_branchPick (s : State) (b : Nat) : quiet (branchBegun s b) (branchPick s b) := quiets.cond _ (fun t => quiets.waits t _ _ _) _
theorem brOf_branchPick (s : State) (b j : Nat) : brOf (branchPick s b) j = brOf (branchBegun s b) j := by
  have h := quiet_branchPick s b
  unfold quiet at h
  rw [h]
  rfl
theorem nodes_branchPick (s : State) (b : Nat) : (branchPick s b).nodes = s.nodes := by
  have h := quiet_branchPick s b
  have hb : (branchBegun s b).nodes = s.nodes := by
    unfold branchBegun
    split <;> rfl
  unfold quiet at h
  rw [h, ← hb]
theorem brOf_branchPick_other (s : State) {b j : Nat} (h : j ≠ b) : brOf (branchPick s b) j = brOf s j := by
  rw [brOf_branchPick]
  unfold branchBegun
  split
  · rfl
  · exact brOf_modBr_other s _ h
theorem markers_branchPick {s : State} {b : Nat} (h : (brOf s b).markers = true) (j : Nat) : (brOf (branchPick s j) b).markers = true := by
  by_cases hj : b = j
  · subst hj
    rw [brOf_branchPick]
    unfold branchBegun
    split
    · exact h
    · simp [h]
  · rw [brOf_branchPick_other s hj, h]
/-- A branch that resumes and is told to carries markers with the pick. -/
theorem resumes_branchPick {s : State} {b : Nat} (hs : sending s = true) (hr : (brOf s b).resume = true) (hi : (brOf s b).resumeItem = none) :
    (brOf (branchPick s b) b).markers = true ∧ (brOf (branchPick s b) b).resume = false := by
  have hd : markersDue s b = true := by simp [markersDue, hs, hr, hi, itemDone]
  have hne : brOf s b ≠ {} := fun h => by simp [h] at hr
  rw [brOf_branchPick]
  unfold branchBegun
  rw [if_neg hne, brOf_modBr]
  simp [hd]

/-! ### Nodes at the start of a pick (R101, R139) -/

/-- A node whose join was acknowledged, admitted where its branch carries markers. -/
def nodeJoined (s : State) (n : Nat) : State :=
  if (ndOf s n).admitDue then (if branchOn s (n / 4) then nodeAdmit s n else modNd s n (fun d => { d with admitDue := false })) else s
/-- A node at the start of a pick, behind its admission. -/
def nodeBegun (s : State) (n : Nat) : State :=
  if ndOf s n = {} then s
  else modNd s n (fun x =>
    { x with gateNow := false, accNow := false, muted := x.muted || ((ndOf s n).muteDue && itemDone s (ndOf s n).muteItem),
             muteDue := x.muteDue && !((ndOf s n).muteDue && itemDone s (ndOf s n).muteItem),
             muteItem := if (ndOf s n).muteDue && itemDone s (ndOf s n).muteItem then none else x.muteItem })
theorem nodePick_eq (s : State) (n : Nat) : nodePick s n = nodeBegun (nodeJoined s n) n := rfl

theorem brMarks_nodeAdmit (s : State) (n b : Nat) : brMarks (nodeAdmit s n) b = brMarks s b := by
  unfold nodeAdmit
  extract_lets s1 c s2 s3
  have h2 : brMarks s2 b = brMarks s1 b := by
    unfold s2
    refine brMarks_modBr s1 c ?_ ?_ ?_ b <;> exact fun _ => rfl
  have h3 : brMarks s3 b = brMarks s2 b := by
    unfold s3
    split <;> rfl
  exact h3.trans h2
theorem ndOf_ndItem (s : State) (m n : Nat) : ndOf (ndItem s m) n = ndOf s n := rfl
theorem ndOf_modBr (s : State) (b : Nat) (f : Branch → Branch) (n : Nat) : ndOf (modBr s b f) n = ndOf s n := rfl
theorem ndOf_raise (s : State) (c i : Nat) (pl : Bytes) (n : Nat) : ndOf (raise s c i pl) n = ndOf s n := rfl
theorem ndOf_nodeAdmit_other (s : State) {n j : Nat} (h : j ≠ n) : ndOf (nodeAdmit s n) j = ndOf s j := by
  unfold nodeAdmit
  extract_lets s1 c s2 s3
  have h2 : ndOf s2 j = ndOf s j := (ndOf_modBr s1 c _ j).trans (ndOf_modNd_other s _ h)
  have h3 : ndOf s3 j = ndOf s2 j := by
    unfold s3
    split
    · exact (ndOf_raise _ _ _ _ j).trans (ndOf_modNd_other s2 _ h)
    · rfl
  rw [ndOf_ndItem, h3, h2]
theorem admitted_nodeAdmit (s : State) (n : Nat) : (ndOf (nodeAdmit s n) n).admitted = true ∧ (ndOf (nodeAdmit s n) n).admitDue = false := by
  unfold nodeAdmit
  extract_lets s1 c s2 s3
  have h2 : (ndOf s2 n).admitted = true ∧ (ndOf s2 n).admitDue = false := by
    rw [ndOf_modBr s1 c _ n, ndOf_modNd]
    exact ⟨rfl, rfl⟩
  have h3 : (ndOf s3 n).admitted = (ndOf s2 n).admitted ∧ (ndOf s3 n).admitDue = (ndOf s2 n).admitDue := by
    unfold s3
    split
    · rw [ndOf_raise, ndOf_modNd]
      exact ⟨rfl, rfl⟩
    · exact ⟨rfl, rfl⟩
  rw [ndOf_ndItem, h3.1, h3.2]
  exact h2

theorem brMarks_nodePick (s : State) (n b : Nat) : brMarks (nodePick s n) b = brMarks s b := by
  have hj : brMarks (nodeJoined s n) b = brMarks s b := by
    unfold nodeJoined
    split
    · split
      · exact brMarks_nodeAdmit s n b
      · rfl
    · rfl
  rw [nodePick_eq, ← hj]
  unfold nodeBegun
  split <;> rfl
theorem ndOf_nodePick_other (s : State) {n j : Nat} (h : j ≠ n) : ndOf (nodePick s n) j = ndOf s j := by
  have hj : ndOf (nodeJoined s n) j = ndOf s j := by
    unfold nodeJoined
    split
    · split
      · exact ndOf_nodeAdmit_other s h
      · exact ndOf_modNd_other s _ h
    · rfl
  rw [nodePick_eq, ← hj]
  unfold nodeBegun
  split
  · rfl
  · exact ndOf_modNd_other _ _ h
/-- A mute that is due begins with the pick. -/
theorem muted_nodePick {s : State} {n : Nat} (hm : (ndOf s n).muteDue = true) (hi : (ndOf s n).muteItem = none) (ha : (ndOf s n).admitDue = false) :
    (ndOf (nodePick s n) n).muted = true ∧ (ndOf (nodePick s n) n).muteDue = false := by
  have hj : nodeJoined s n = s := by
    unfold nodeJoined
    rw [ha]
    rfl
  have hne : ndOf s n ≠ {} := fun h => by simp [h] at hm
  rw [nodePick_eq, hj]
  unfold nodeBegun
  rw [if_neg hne, ndOf_modNd]
  simp [hm, hi, itemDone]
/-- A node whose join was acknowledged is admitted with the marker of the pick. -/
theorem admitted_nodePick {s : State} {n : Nat} (ha : (ndOf s n).admitDue = true) (hb : branchOn s (n / 4) = true) :
    (ndOf (nodePick s n) n).admitted = true ∧ (ndOf (nodePick s n) n).admitDue = false := by
  have hj : nodeJoined s n = nodeAdmit s n := by
    unfold nodeJoined
    rw [if_pos ha, if_pos hb]
  have h := admitted_nodeAdmit s n
  rw [nodePick_eq, hj]
  unfold nodeBegun
  split
  · exact h
  · rw [ndOf_modNd]
    exact h

end Sys2Proof.Machine
end

section
/-! What a pick that starts at a controller that leads does to the nodes and branches that wait for it. -/
open Sys2Proof Sys2Proof.Machine
namespace Sys2Proof.Machine

/-! ### Behind the nodes of a pick, nodes and markers stay -/

theorem marksKept_eowNote (s : State) (b : Nat) (node : Option Nat) (rb : Bool) : marksKept s (eowNote s b node rb) := by
  unfold eowNote
  extract_lets all inv s1
  have h1 : marksKept s s1 := by
    refine ⟨rfl, brMarks_modBr s b ?_ ?_ ?_⟩ <;> exact fun _ => rfl
  exact marksFrames.trans h1 (marksKept_of_same rfl rfl)
theorem marksKept_markerSend {s : State} (h : s.net.phase ≠ .coldBolt) (bad : List BranchNo) : marksKept s (markerSend s bad) := by
  unfold markerSend
  extract_lets go c s1 bs s2
  have h1 : marksKept s s1 := ⟨rfl, fun _ => rfl⟩
  have h2 : marksKept s1 s2 := marksFrames.loop bs (fun t b => marksKept_eowNote t b none true) s1
  have hn : s2.net = s.net := (lineFrames.loop bs (fun t b => lineFrame_eowNote t b none true) s1 : lineFrame s1 s2).unit.eff.net
  clear_value s2 s1
  have hc : ¬ s2.net.phase = .coldBolt := by rwa [hn]
  simp only [if_neg hc]
  exact marksFrames.ite (marksFrames.ite h1 (marksFrames.trans h1 h2)) ⟨rfl, fun _ => rfl⟩
theorem net_of_quiet {s t : State} (h : quiet s t) : t.net = s.net := (effFrame_of_quiet h).net
theorem marksKept_pickSent {s : State} (h : s.net.phase = .running) (bad : List BranchNo) : marksKept s (pickSent bad s) := by
  have hq := quiet_unlistedRun flightsMax s
  have hp : (unlistedRun flightsMax s).net.phase ≠ .coldBolt := by
    rw [net_of_quiet hq, h]
    exact NetPhase.noConfusion
  exact marksFrames.trans (marksKept_of_quiet hq) (marksFrames.trans (marksKept_markerSend hp bad) (marksKept_of_quiet (quiet_pairPickStart _)))
theorem marksKept_pickRest {s : State} (h : s.net.phase = .running) (bad : List BranchNo) : marksKept (linesPick s) (pickRest bad s) := by
  have ha : axFrame (linesPick s) (axesPick (loomPickStart (linesPick s))) := axFrames.trans (axFrame_loomPickStart _) (axFrame_axesPick _)
  refine marksFrames.trans ha.marks (marksKept_pickSent ?_ bad)
  rw [ha.unit.eff.net, (lineFrame_linesPick s).unit.eff.net, h]

/-! ### The branches and nodes of a pick -/

theorem sending_of_net {s t : State} (h : t.net = s.net) : sending t = sending s := by
  unfold sending
  rw [h]
theorem sending_of_running {s : State} (h : s.net.phase = .running) : sending s = true := by simp [sending, h]

/-- The branches and then the nodes of a pick, as `linesPick` takes them. -/
def branchesPick (s : State) : State := forEach (List.range 16) branchPick s
def nodesPick (s : State) : State := forEach (List.range 64) nodePick s
theorem net_branchesPick (s : State) : (branchesPick s).net = s.net := (lineFrames.loop (List.range 16) lineFrame_branchPick s : lineFrame s (branchesPick s)).unit.eff.net
theorem nodes_branchesPick (s : State) : (branchesPick s).nodes = s.nodes := forEach_leaves State.nodes fun t b _ => nodes_branchPick t b
theorem ndOf_of_nodes {s t : State} (h : t.nodes = s.nodes) (n : Nat) : ndOf t n = ndOf s n := by
  unfold ndOf
  rw [h]
theorem branchOn_branchesPick {s : State} {b : Nat} (h : branchOn s b = true) : branchOn (branchesPick s) b = true := by
  unfold branchOn at *
  rw [Bool.and_eq_true] at *
  rw [sending_of_net (net_branchesPick s)]
  exact ⟨h.1, forEach_stays (P := fun t => (brOf t b).markers = true) (fun t j _ ht => markers_branchPick ht j) h.2⟩

/-- A branch that resumes carries markers behind the branches and nodes of the pick. -/
theorem resumes_linesPick {s : State} {b : Nat} (hb : b < 16) (hs : sending s = true) (hr : (brOf s b).resume = true) (hi : (brOf s b).resumeItem = none) :
    (brOf (linesPick s) b).markers = true ∧ (brOf (linesPick s) b).resume = false := by
  have hbr : (brOf (branchesPick s) b).markers = true ∧ (brOf (branchesPick s) b).resume = false := by
    refine forEach_turn (P := fun t => sending t = true ∧ brOf t b = brOf s b) (Q := fun t => (brOf t b).markers = true ∧ (brOf t b).resume = false)
      List.nodup_range (List.mem_range.mpr hb) ?_ ?_ ?_ ⟨hs, rfl⟩
    · rintro t ⟨ht, htb⟩
      exact resumes_branchPick ht (by rw [htb, hr]) (by rw [htb, hi])
    · rintro t j hj ⟨ht, htb⟩
      rw [sending_of_net (lineFrame_branchPick t j).unit.eff.net, brOf_branchPick_other t hj.symm]
      exact ⟨ht, htb⟩
    · intro t j hj ht
      rw [brOf_branchPick_other t hj.symm]
      exact ht
  have hm : brMarks (linesPick s) b = brMarks (branchesPick s) b := forEach_leaves (fun t => brMarks t b) fun t n _ => brMarks_nodePick t n b
  simp only [brMarks, Prod.mk.injEq] at hm
  obtain ⟨hmk, hmr, -⟩ := hm
  rw [hmk, hmr]
  exact hbr
/-- What the turn of a node brings about, from what it was before the pick, holds behind the branches and nodes of the pick. -/
theorem ndOf_linesPick {s : State} {n : Nat} {Q : Node → Prop} (hn : n < 64)
    (h : ∀ t, ndOf t n = ndOf s n → (branchOn s (n / 4) = true → branchOn t (n / 4) = true) → Q (ndOf (nodePick t n) n)) : Q (ndOf (linesPick s) n) := by
  refine forEach_turn (P := fun t => ndOf t n = ndOf s n ∧ (branchOn s (n / 4) = true → branchOn t (n / 4) = true)) (Q := fun t => Q (ndOf t n))
    List.nodup_range (List.mem_range.mpr hn) (fun t ht => h t ht.1 ht.2) ?_ ?_ ⟨ndOf_of_nodes (nodes_branchesPick s) n, branchOn_branchesPick⟩
  · rintro t j hj ⟨ht, hb⟩
    refine ⟨(ndOf_nodePick_other t hj.symm).trans ht, fun h => ?_⟩
    have hm := brMarks_nodePick t j (n / 4)
    simp only [brMarks, Prod.mk.injEq] at hm
    have hbt := hb h
    unfold branchOn at hbt ⊢
    rw [sending_of_net (lineFrame_nodePick t j).unit.eff.net, hm.1]
    exact hbt
  · intro t j hj ht
    rw [ndOf_nodePick_other t hj.symm]
    exact ht

/-! ### The pick as a whole, where no commit waits -/

theorem waitsKept.branchOn {s t : State} (h : waitsKept s t) (b : Nat) : branchOn t b = branchOn s b := by
  obtain ⟨⟨-, hb⟩, -, hn, -⟩ := h
  have hm := hb b
  simp only [brMarks, Prod.mk.injEq] at hm
  unfold Machine.branchOn
  rw [sending_of_net hn, hm.1]

/-- At a controller that leads, where no commit waits, nodes and branches are as the turns of the pick leave them. -/
theorem pickBegin_marks {s : State} (h : calm s) (bad : List BranchNo) (hp : s.par.pends = []) :
    ∃ u, waitsKept s u ∧ marksKept (linesPick u) (pickBegin s bad) ∧ (pickBegin s bad).par = s.par := by
  obtain ⟨u, hu, hb⟩ := pickBegin_calm h bad
  obtain ⟨hm, hup, hun, hsw⟩ := hu
  obtain ⟨-, hph, -⟩ := h
  rw [hb, applyBound_none (by rw [hup, hp])]
  exact ⟨u, ⟨hm, hup, hun, hsw⟩, marksKept_pickRest (by rw [hun, hph]) bad, (par_pickRest bad u).trans hup⟩
theorem muted_pickBegin {s : State} (h : calm s) (bad : List BranchNo) (hp : s.par.pends = []) {n : Nat} (hn : n < 64) (hm : (ndOf s n).muteDue = true)
    (hi : (ndOf s n).muteItem = none) (ha : (ndOf s n).admitDue = false) :
    (ndOf (pickBegin s bad) n).muted = true ∧ (ndOf (pickBegin s bad) n).muteDue = false := by
  obtain ⟨u, ⟨⟨hun, -⟩, -⟩, hk, -⟩ := pickBegin_marks h bad hp
  rw [ndOf_of_nodes hk.1]
  refine ndOf_linesPick (Q := fun d => d.muted = true ∧ d.muteDue = false) hn fun t ht _ => ?_
  have hts := ht.trans (ndOf_of_nodes hun n)
  exact muted_nodePick (by rw [hts, hm]) (by rw [hts, hi]) (by rw [hts, ha])
theorem admitted_pickBegin {s : State} (h : calm s) (bad : List BranchNo) (hp : s.par.pends = []) {n : Nat} (hn : n < 64) (ha : (ndOf s n).admitDue = true)
    (hb : branchOn s (n / 4) = true) : (ndOf (pickBegin s bad) n).admitted = true ∧ (ndOf (pickBegin s bad) n).admitDue = false := by
  obtain ⟨u, hu, hk, -⟩ := pickBegin_marks h bad hp
  rw [ndOf_of_nodes hk.1]
  refine ndOf_linesPick (Q := fun d => d.admitted = true ∧ d.admitDue = false) hn fun t ht htb => ?_
  have hbu := hu.branchOn (n / 4)
  obtain ⟨⟨hun, -⟩, -⟩ := hu
  have hts := ht.trans (ndOf_of_nodes hun n)
  exact admitted_nodePick (by rw [hts, ha]) (htb (by rw [hbu, hb]))
theorem resumes_pickBegin {s : State} (h : calm s) (bad : List BranchNo) (hp : s.par.pends = []) {b : Nat} (hb : b < 16) (hr : (brOf s b).resume = true)
    (hi : (brOf s b).resumeItem = none) : (brOf (pickBegin s bad) b).markers = true ∧ (brOf (pickBegin s bad) b).resume = false := by
  obtain ⟨u, ⟨⟨-, hub⟩, -, hun, -⟩, ⟨-, hk⟩, -⟩ := pickBegin_marks h bad hp
  have hu := hub b
  have ht := hk b
  simp only [brMarks, Prod.mk.injEq] at hu ht
  obtain ⟨-, hur, hui⟩ := hu
  obtain ⟨htm, htr, -⟩ := ht
  obtain ⟨-, hph, -⟩ := h
  rw [htm, htr]
  exact resumes_linesPick hb (by rw [sending_of_net hun, sending_of_running hph]) (by rw [hur, hr]) (by rw [hui, hi])

end Sys2Proof.Machine
end

section
/-! The end of a bolt at a controller that leads: the values of the bolt (R386, R517), the placement result (R46, R68), and the counts
that begin anew (R139, R183, R259, R371). -/
open Sys2Proof Sys2Proof.Machine
namespace Sys2Proof.Machine

/-! ### What waits for the bolt -/

/-- What decides what a bolt puts into force is as it was: the values, the placement, the transmission, a swap or a change of pick length. -/
def boltKept (s t : State) : Prop :=
  t.par = s.par ∧ t.warp = s.warp ∧ t.net.phase = s.net.phase ∧ t.clk.plenStop = s.clk.plenStop ∧ swapState t = swapState s
theorem boltKept.trans {s t u : State} (h : boltKept s t) (k : boltKept t u) : boltKept s u := by
  obtain ⟨hp, hw, hn, hc, hs⟩ := h
  obtain ⟨kp, kw, kn, kc, ks⟩ := k
  exact ⟨kp.trans hp, kw.trans hw, kn.trans hn, kc.trans hc, ks.trans hs⟩
theorem boltKept_handFrame {s t : State} (h : handFrame s t) : boltKept s t := by
  unfold handFrame at h
  unfold boltKept swapState
  rw [h]
  exact ⟨rfl, rfl, rfl, rfl, rfl⟩
theorem boltKept_cutKeeps {s t : State} (hn : noAck s) (h : cutKeeps s t) : boltKept s t := by
  obtain ⟨⟨⟨hq, hs⟩, -⟩, hp⟩ := h
  refine ⟨hp hn, ?_, ?_, ?_, hs⟩ <;> (unfold quiet at hq; rw [hq])
theorem boltKept_pickEnd {s : State} (h : calm s) : boltKept s (pickEnd s) := by
  obtain ⟨-, hp, hn, hs⟩ := waitsKept_pickEnd h
  have hu := (unitFrame_pickEnd s)
  exact ⟨hp, hu.warp, by rw [hn], by rw [hu.eff.clk], hs⟩
theorem boltKept_sessionsBolt (s : State) : boltKept s (sessionsBolt s) := ⟨rfl, rfl, rfl, rfl, rfl⟩
theorem boltKept_boltTick (s : State) : boltKept s (boltTick s) := ⟨rfl, rfl, rfl, rfl, rfl⟩
theorem boltKept_boltCount {s : State} (hn : noAck s) : boltKept s (boltCount s) := by
  rw [boltCount_eq]
  exact ((boltKept_cutKeeps hn (cutKeeps_branchesBolt s)).trans (boltKept_handFrame (handFrame_handsBolt _))).trans (boltKept_sessionsBolt _)
/-- A bolt that has ended and whose effects have not come yet. -/
def boltOver (s : State) : State := boltTick (boltCount (pickEnd s))
theorem noAck_of_par {s t : State} (h : t.par = s.par) (hn : noAck s) : noAck t := by
  unfold noAck
  rw [h]
  exact hn
theorem boltKept_boltOver {s : State} (h : calm s) (hn : noAck s) : boltKept s (boltOver s) := by
  have hp := boltKept_pickEnd h
  have hpar := hp.1
  exact (hp.trans (boltKept_boltCount (noAck_of_par hpar hn))).trans (boltKept_boltTick _)

/-- Without a swap, items of the partner and a change of pick length a bolt puts its placement and its commits into force. -/
theorem boltEffects_idle {s : State} (hp : s.net.phase = .running) (hi : s.pair.inbox = []) (ha : s.pair.swapAt = none) (hl : s.clk.plenStop ≠ 1) :
    boltEffects s = ptpBolt (applyBound (placeApply s) .bolt) := by
  have hb : bulkApply s = s := by
    unfold bulkApply
    rw [if_neg (by simp [isStandby, hp])]
  have he : plenBolt s = s := by
    unfold plenBolt
    rw [if_neg (fun h => hl h.1)]
  unfold boltEffects
  rw [show when (s.net.phase = .coldBolt && !s.net.readbackBad) coldEnd s = s by rw [hp]; rfl, hb, itemsDue_none hi, he]
  unfold boltApply
  rw [if_neg (by rw [ha]; exact nofun)]
theorem boltEnd_calm {s : State} (h : calm s) (hl : s.clk.plenStop ≠ 1) (hn : noAck s) :
    boltEnd s = joinsBolt (ptpBolt (applyBound (placeApply (boltOver s)) .bolt)) := by
  obtain ⟨-, -, kn, kc, ks⟩ := boltKept_boltOver h hn
  obtain ⟨-, hph, -, hi, -, ha⟩ := h
  obtain ⟨hui, -, hua⟩ : _ = s.pair.inbox ∧ _ ∧ _ = s.pair.swapAt := by simpa only [swapState, Prod.mk.injEq] using ks
  rw [boltEnd_eq, ← boltEffects_idle (kn.trans hph) (hui.trans hi) (hua.trans ha) (by rw [kc]; exact hl)]
  rfl

/-- The host clock at a bolt changes its record, the event log and the free values only. -/
theorem ptpBolt_keeps (s : State) : ptpBolt s = { s with ptp := (ptpBolt s).ptp, log := (ptpBolt s).log, freeCtr := (ptpBolt s).freeCtr } := by
  unfold ptpBolt
  split
  · rfl
  · simp only []
    split <;> rfl

theorem warp_ptpBolt (s : State) : (ptpBolt s).warp = s.warp := by rw [ptpBolt_keeps]
theorem par_ptpBolt (s : State) : (ptpBolt s).par = s.par := by rw [ptpBolt_keeps]

/-! ### The values of the bolt -/

theorem inForce_boltEnd {s : State} (h : calm s) (hl : s.clk.plenStop ≠ 1) {p : Pend} (hr : s.warp.result = none) (hp : onlyPend s p .bolt) :
    inForce s (boltEnd s) p := by
  have hn : noAck s := by
    obtain ⟨hps, hb, -⟩ := hp
    intro q hq
    rw [hps, List.mem_singleton] at hq
    rw [hq, hb]
    exact Bound.noConfusion
  obtain ⟨kp, kw, -⟩ := boltKept_boltOver h hn
  have hou : onlyPend (boltOver s) p .bolt := by
    unfold onlyPend
    rw [kp]
    exact hp
  rw [boltEnd_calm h hl hn, placeApply_none (by rw [kw, hr])]
  exact inForce_of_par (inForce_applyBound hou) kp ((lineFrame_joinsBolt _).unit.eff.par.trans (par_ptpBolt _))

/-! ### The placement result of the bolt -/

theorem noAck_of_none {s : State} (h : s.par.pends = []) : noAck s := fun p hp => by simp [h] at hp
/-- A placement result put into force, its values among what is in force. -/
def resultIn (s t : State) (r : Run) (pl : Place) (rep : Report) : Prop :=
  t.warp = { s.warp with result := none, resItem := none, report := rep, epoch := s.warp.epoch + 1, bankB := !s.warp.bankB, place := pl, placed := true } ∧
  t.par = { s.par with force := tabMerge s.par.force r.vals, stages := r.sets.foldl (fun t k => tabErase t k) s.par.stages }
theorem resultIn_resultPlaced {s : State} {r : Run} (pl : Place) (rep : Report) (hp : s.par.pends = []) (hm : s.par.stepMod = []) (hv : noStepVals r.vals) :
    resultIn s (resultPlaced s r pl rep) r pl rep := by
  have hval := effFrame_valsIn (resultTaken s r rep) r.vals
  have hpar : (valsIn (resultTaken s r rep) r.vals).par = (withVals (resultTaken s r rep) r.vals).par := hval.par
  have hdecl : unitFrame (valsIn (resultTaken s r rep) r.vals) (declDrops s (valsIn (resultTaken s r rep) r.vals)) :=
    (dropFrame_declDrops s _).2 (by rw [hpar]; exact hp) (by rw [hpar]; exact hm)
  have hput := unitFrame_placePut (declDrops s (valsIn (resultTaken s r rep) r.vals)) r.full pl
  unfold resultPlaced
  rw [applyVals_noStepVals hv]
  refine ⟨?_, hput.eff.par.trans (hdecl.eff.par.trans hpar)⟩
  rw [hput.warp]
  unfold placementSet
  rw [hdecl.warp, hval.warp]
  rfl
theorem resultIn_boltEnd {s : State} (h : calm s) (hl : s.clk.plenStop ≠ 1) {r : Run} {pl : Place} {rep : Report} (hr : s.warp.result = some (r, pl, rep))
    (hi : s.warp.resItem = none) (hp : s.par.pends = []) (hm : s.par.stepMod = []) (hv : noStepVals r.vals) : resultIn s (boltEnd s) r pl rep := by
  have hn := noAck_of_none hp
  obtain ⟨kp, kw, -⟩ := boltKept_boltOver h hn
  have hin : resultIn (boltOver s) (resultPlaced (boltOver s) r pl rep) r pl rep :=
    resultIn_resultPlaced pl rep (by rw [kp, hp]) (by rw [kp, hm]) hv
  have happ : placeApply (boltOver s) = _ := placeApply_some (by rw [kw, hr]) (by rw [kw, hi]; rfl)
  have hnet := netFrame_resultAnswered (boltOver s) (resultPlaced (boltOver s) r pl rep) r pl
  rw [← happ] at hnet
  obtain ⟨hw, hpar⟩ := hin
  have hap : (placeApply (boltOver s)).par = _ := hnet.par.trans hpar
  have haw : (placeApply (boltOver s)).warp = _ := hnet.warp.trans hw
  have hj := lineFrame_joinsBolt (ptpBolt (placeApply (boltOver s)))
  rw [boltEnd_calm h hl hn, applyBound_none (by rw [hap, kp]; exact hp)]
  unfold resultIn
  rw [hj.unit.warp, hj.unit.eff.par, warp_ptpBolt, par_ptpBolt, haw, hap, kw, kp]
  exact ⟨rfl, rfl⟩

/-! ### A bolt without values and without a placement -/

/-- What such a bolt leaves is what it has counted, with the host clock and the joins of the bolt. -/
theorem boltEnd_plain {s : State} (h : calm s) (hl : s.clk.plenStop ≠ 1) (hr : s.warp.result = none) (hp : s.par.pends = []) :
    boltEnd s = joinsBolt (ptpBolt (boltOver s)) := by
  have hn := noAck_of_none hp
  obtain ⟨kp, kw, -⟩ := boltKept_boltOver h hn
  rw [boltEnd_calm h hl hn, placeApply_none (by rw [kw, hr]), applyBound_none (by rw [kp, hp])]
theorem warp_boltEnd {s : State} (h : calm s) (hl : s.clk.plenStop ≠ 1) (hr : s.warp.result = none) (hp : s.par.pends = []) : (boltEnd s).warp = s.warp := by
  obtain ⟨-, kw, -⟩ := boltKept_boltOver h (noAck_of_none hp)
  rw [boltEnd_plain h hl hr hp, (lineFrame_joinsBolt _).unit.warp, warp_ptpBolt, kw]

end Sys2Proof.Machine
end

section
/-! The counts that begin anew with a bolt (R139, R183, R259, R371), and the pick timer's obligation. -/
open Sys2Proof Sys2Proof.Machine
namespace Sys2Proof.Machine

/-! ### Code violations of the nodes (R139) -/

theorem viol_nodeMean (s : State) (n : Nat) : (ndOf (nodeMean s n) n).viol = 0 := by
  unfold nodeMean
  extract_lets d m t s1
  have hs1 : ndOf s1 n = d := by
    unfold s1
    split
    · rfl
    · split <;> rfl
  clear_value s1
  by_cases h : d.nDelta = 0 ∧ d.viol = 0
  · rw [if_pos h, hs1, h.2]
  · rw [if_neg h, ndOf_modNd]
theorem viol_meansBolt (s : State) {b i : Nat} (h : i < 4) : (ndOf (meansBolt s b) (4 * b + i)).viol = 0 := by
  have hi : i ∈ [0, 1, 2, 3] := by
    simp only [List.mem_cons, List.not_mem_nil, or_false]
    omega
  exact forEach_turn (P := fun _ => True) (Q := fun t => (ndOf t (4 * b + i)).viol = 0) (by decide) hi (fun t _ => viol_nodeMean t _) (fun _ _ _ h => h)
    (fun t j _ ht => (lineFrame_nodeMean t (4 * b + j)).2 _ ht) trivial
theorem violKept_branchBolt (s : State) (b : Nat) : violKept s (branchBolt s b) := by
  obtain ⟨⟨-, hv⟩, -⟩ := cutKeeps_branchBolt s b
  exact hv
theorem viol_branchesBolt (s : State) {n : Nat} (hn : n < 64) : (ndOf (branchesBolt s) n).viol = 0 := by
  have hb : n / 4 ∈ List.range 16 := List.mem_range.mpr (by omega)
  refine forEach_turn (P := fun _ => True) (Q := fun t => (ndOf t n).viol = 0) List.nodup_range hb (fun t _ => ?_) (fun _ _ _ h => h)
    (fun t j _ ht => violKept_branchBolt t j n ht) trivial
  obtain ⟨⟨-, hv⟩, -⟩ := cutKeeps_behindMeans t (n / 4)
  have hm := viol_meansBolt t (b := n / 4) (i := n % 4) (by omega)
  rw [show 4 * (n / 4) + n % 4 = n by omega] at hm
  exact hv n hm

/-! ### What counts over a bolt and is not a node's -/

/-- Axes, lanes and sessions are as they were. -/
def countsKept (s t : State) : Prop := t.axes = s.axes ∧ t.lanes = s.lanes ∧ t.lnCnt = s.lnCnt ∧ t.eth = s.eth
theorem countsKept.trans {s t u : State} (h : countsKept s t) (k : countsKept t u) : countsKept s u := by
  obtain ⟨ha, hl, hc, he⟩ := h
  obtain ⟨ka, kl, kc, ke⟩ := k
  exact ⟨ka.trans ha, kl.trans hl, kc.trans hc, ke.trans he⟩
theorem outFrame.counts {s t : State} (h : outFrame s t) : countsKept s t := by
  unfold outFrame at h
  refine ⟨?_, ?_, ?_, ?_⟩ <;> rw [h]
theorem faceFrame.lanes {s t : State} (h : faceFrame s t) : t.lanes = s.lanes := by
  unfold faceFrame at h
  rw [h]
theorem laneFrame.axes {s t : State} (h : laneFrame s t) : t.axes = s.axes := by
  unfold laneFrame at h
  rw [h]
theorem cutFrame.counts {s t : State} (h : cutFrame s t) : countsKept s t := by
  obtain ⟨⟨hq, -⟩, -⟩ := h
  unfold quiet at hq
  refine ⟨?_, ?_, ?_, ?_⟩ <;> rw [hq]
theorem lineFrame.counts {s t : State} (h : lineFrame s t) : countsKept s t := h.cut.1.counts
theorem countsKept_ptpBolt (s : State) : countsKept s (ptpBolt s) := by
  refine ⟨?_, ?_, ?_, ?_⟩ <;> rw [ptpBolt_keeps]
theorem countsKept_setCollide (s : State) (n : Nat) : countsKept s { s with pair.collide := n } := ⟨rfl, rfl, rfl, rfl⟩
theorem countsKept_pickEnd {s : State} (h : calm s) : countsKept s (pickEnd s) := by
  obtain ⟨-, -, hf, -⟩ := h
  unfold pickEnd
  simp only [axisCmds_free hf]
  exact ((outFrame_echoStaging s _).counts.trans (lineFrame_pairPickEnd _).counts).trans (countsKept_setCollide _ _)

/-- What a bolt counts, from the end of its last pick on. -/
def counted (s : State) : State := outputsBolt (lanesBolt (axesBolt (branchesBolt (pickEnd s))))
theorem axes_boltTick (s : State) : (boltTick s).axes = s.axes := rfl
theorem lanes_boltTick (s : State) : (boltTick s).lanes = s.lanes ∧ (boltTick s).lnCnt = s.lnCnt := ⟨rfl, rfl⟩
theorem nodes_boltTick (s : State) : (boltTick s).nodes = s.nodes := rfl
theorem eth_boltTick (s : State) : (boltTick s).eth = s.eth := rfl
theorem axes_sessionsBolt (s : State) : (sessionsBolt s).axes = s.axes := rfl
theorem lanes_sessionsBolt (s : State) : (sessionsBolt s).lanes = s.lanes ∧ (sessionsBolt s).lnCnt = s.lnCnt := ⟨rfl, rfl⟩
theorem nodes_sessionsBolt (s : State) : (sessionsBolt s).nodes = s.nodes := rfl
theorem authFail_sessionsBolt (s : State) : (sessionsBolt s).eth.authFail = [] := rfl
theorem boltOver_eq (s : State) : boltOver s = boltTick (sessionsBolt (counted s)) := by
  unfold boltOver
  rw [boltCount_eq]
  rfl

/-! ### The quadrature errors of the axes (R259) -/

theorem axOf_of_axes {s t : State} (h : t.axes = s.axes) (a : Nat) : axOf t a = axOf s a := by
  unfold axOf
  rw [h]
theorem axClass_of_par {s t : State} (h : t.par = s.par) (a : Nat) : axClass t a = axClass s a := by
  unfold axClass pnat pget
  rw [h]
/-- The errors of the axis over a bolt that ends, from those that it has counted so far. -/
def quadBolt (q : Nat) (x : Axis) : Prop := x.fb.qBolt = min 255 q ∧ x.fb.qNow = 0
theorem axOf_raiseIf (c : Bool) (s : State) (k i : Nat) (pl : Bytes) (a : Nat) : axOf (when c (fun t => raise t k i pl) s) a = axOf s a := by cases c <;> rfl
theorem quadBolt_axisBolt (s : State) (a : Nat) : quadBolt (axOf s a).fb.qNow (axOf (axisBolt s a) a) := by
  unfold axisBolt
  simp only [axOf_modAx, axOf_raiseIf]
  exact ⟨rfl, rfl⟩
theorem axOf_axisBolt_other (s : State) {a j : Nat} (h : j ≠ a) : axOf (axisBolt s a) j = axOf s j := by
  unfold axisBolt
  simp only []
  rw [axOf_modAx_other _ _ h, axOf_raiseIf]
theorem quadBolt_axesBolt {s : State} {a : Nat} (ha : a < 128) (hc : axClass s a ≠ 0) : quadBolt (axOf s a).fb.qNow (axOf (axesBolt s) a) := by
  refine forEach_turn (P := fun t => axOf t a = axOf s a) (Q := fun t => quadBolt (axOf s a).fb.qNow (axOf t a)) (List.nodup_range.filter _)
    (List.mem_filter.mpr ⟨List.mem_range.mpr ha, by simpa using hc⟩) (fun t ht => ?_) (fun t j hj ht => (axOf_axisBolt_other t hj.symm).trans ht)
    (fun t j hj ht => ?_) rfl
  · rw [← ht]
    exact quadBolt_axisBolt t a
  · rw [axOf_axisBolt_other t hj.symm]
    exact ht

/-! ### The counts of the lanes (R183) -/

theorem laneOf_of_lanes {s t : State} (h : t.lanes = s.lanes) (l : Nat) : laneOf t l = laneOf s l := by
  unfold laneOf
  rw [h]
theorem lncOf_of_lnCnt {s t : State} (h : t.lnCnt = s.lnCnt) (l : Nat) : lncOf t l = lncOf s l := by
  unfold lncOf
  rw [h]
/-- A lane whose running job has been charged to the bolt, where one runs: its front counts, and where none runs its busy time, are as they were. -/
def laneCharged (x y : Lane) : Prop := y.fNow = x.fNow ∧ (x.run = none → y.busyNow = x.busyNow)
/-- The counts of the lane over a bolt that ends. -/
def laneCounted (x y : Lane) (c : LaneCnt) : Prop := y.fNow = (0, 0) ∧ y.busyNow = 0 ∧ c.fBolt = x.fNow.1 ∧ (x.run = none → c.busyBolt = x.busyNow % 2 ^ 32)

theorem lncOf_modLane (s : State) (l j : Nat) (f : Lane → Lane) : lncOf (modLane s l f) j = lncOf s j := rfl
theorem laneOf_laneBusy_other (s : State) {l j : Nat} (h : j ≠ l) : laneOf (laneBusy s l) j = laneOf s j := by
  unfold laneBusy
  split
  · rfl
  · exact laneOf_modLane_other _ _ h
theorem fNow_laneBusy (s : State) (l : Nat) : (laneOf (laneBusy s l) l).fNow = (laneOf s l).fNow := by
  unfold laneBusy
  split
  · rfl
  · rw [laneOf_modLane]
    rfl
theorem laneOf_laneLast_other (s : State) {l j : Nat} (h : j ≠ l) : laneOf (laneLast s l) j = laneOf s j := by
  unfold laneLast
  split
  · rw [laneOf_modLane_other _ _ h, laneOf_laneBusy_other s h]
  · rfl
theorem laneCharged_laneLast (s : State) (l : Nat) : laneCharged (laneOf s l) (laneOf (laneLast s l) l) := by
  unfold laneLast
  split
  next j hj =>
    rw [laneOf_modLane]
    exact ⟨fNow_laneBusy s l, fun hn => absurd (hn.symm.trans hj) nofun⟩
  next => exact ⟨rfl, fun _ => rfl⟩
theorem laneCounted_laneBolt {s : State} {l : Nat} {x : Lane} (h : laneCharged x (laneOf s l)) :
    laneCounted x (laneOf (laneBolt s l) l) (lncOf (laneBolt s l) l) := by
  obtain ⟨hf, hb⟩ := h
  unfold laneBolt
  simp only []
  split
  next he =>
    obtain ⟨hl, hc⟩ := he
    rw [hl] at hf hb
    rw [hl, hc]
    exact ⟨rfl, rfl, by rw [← hf], fun hn => by rw [← hb hn]; rfl⟩
  next =>
    rw [laneOf_modLane, lncOf_modLane, lncOf_modLnc]
    exact ⟨rfl, rfl, by rw [← hf], fun hn => by rw [← hb hn]⟩
theorem laneOf_laneBolt_other (s : State) {l j : Nat} (h : j ≠ l) : laneOf (laneBolt s l) j = laneOf s j ∧ lncOf (laneBolt s l) j = lncOf s j := by
  unfold laneBolt
  simp only []
  split
  · exact ⟨rfl, rfl⟩
  · rw [laneOf_modLane_other _ _ h, lncOf_modLane, lncOf_modLnc_other _ _ h]
    exact ⟨rfl, rfl⟩
theorem laneCounted_lanesBolt (s : State) {l : Nat} (hl : l < 8) : laneCounted (laneOf s l) (laneOf (lanesBolt s) l) (lncOf (lanesBolt s) l) := by
  have hlast : laneCharged (laneOf s l) (laneOf (forEach (List.range 8) laneLast s) l) := by
    refine forEach_turn (P := fun t => laneOf t l = laneOf s l) (Q := fun t => laneCharged (laneOf s l) (laneOf t l)) List.nodup_range (List.mem_range.mpr hl)
      (fun t ht => ?_) (fun t j hj ht => (laneOf_laneLast_other t hj.symm).trans ht) (fun t j hj ht => ?_) rfl
    · rw [← ht]
      exact laneCharged_laneLast t l
    · rw [laneOf_laneLast_other t hj.symm]
      exact ht
  refine forEach_turn (P := fun t => laneCharged (laneOf s l) (laneOf t l)) (Q := fun t => laneCounted (laneOf s l) (laneOf t l) (lncOf t l)) List.nodup_range
    (List.mem_range.mpr hl) (fun t ht => laneCounted_laneBolt ht) (fun t j hj ht => ?_) (fun t j hj ht => ?_) hlast
  · rw [(laneOf_laneBolt_other t hj.symm).1]
    exact ht
  · rw [(laneOf_laneBolt_other t hj.symm).1, (laneOf_laneBolt_other t hj.symm).2]
    exact ht

/-! ### A bolt without values and without a placement -/

section
variable {s : State} (h : calm s) (hp : s.par.pends = [])
include h

theorem countsKept_branchesEnd : countsKept s (branchesBolt (pickEnd s)) :=
  (countsKept_pickEnd h).trans (cutKeeps_branchesBolt _).1.counts
theorem laneCounted_counted {l : Nat} (hl : l < 8) : laneCounted (laneOf s l) (laneOf (counted s) l) (lncOf (counted s) l) := by
  obtain ⟨-, hml, -⟩ := countsKept_branchesEnd h
  have hal : (axesBolt (branchesBolt (pickEnd s))).lanes = s.lanes := (faceFrame_axesBolt _).lanes.trans hml
  obtain ⟨-, hol, hoc, -⟩ := (outFrame_outputsBolt (lanesBolt (axesBolt (branchesBolt (pickEnd s))))).counts
  unfold counted
  rw [laneOf_of_lanes hol, lncOf_of_lnCnt hoc, ← laneOf_of_lanes hal]
  exact laneCounted_lanesBolt _ hl
include hp
theorem par_branchesEnd : (branchesBolt (pickEnd s)).par = s.par := by
  obtain ⟨kp, -⟩ := boltKept_pickEnd h
  obtain ⟨kc, -⟩ := boltKept_cutKeeps (noAck_of_par kp (noAck_of_none hp)) (cutKeeps_branchesBolt (pickEnd s))
  exact kc.trans kp
theorem quadBolt_counted {a : Nat} (ha : a < 128) (hc : axClass s a ≠ 0) : quadBolt (axOf s a).fb.qNow (axOf (counted s) a) := by
  have hm := axOf_of_axes (countsKept_branchesEnd h).1 a
  have hq := quadBolt_axesBolt (s := branchesBolt (pickEnd s)) ha (by rw [axClass_of_par (par_branchesEnd h hp)]; exact hc)
  unfold counted
  rw [axOf_of_axes (outFrame_outputsBolt _).counts.1, axOf_of_axes (laneFrame_lanesBolt _).axes, ← hm]
  exact hq
end
theorem viol_counted (s : State) {n : Nat} (hn : n < 64) : (ndOf (counted s) n).viol = 0 := by
  unfold counted
  rw [ndOf_of_nodes (handFrame_handsBolt _).nodes]
  exact viol_branchesBolt _ hn

section
variable {s : State} (h : calm s) (hl : s.clk.plenStop ≠ 1) (hr : s.warp.result = none) (hp : s.par.pends = [])
include h hl hr hp

/-- Axes, lanes and sessions of a bolt that ends without values are as it has counted them. -/
theorem countsKept_boltEnd : countsKept (boltOver s) (boltEnd s) := by
  rw [boltEnd_plain h hl hr hp]
  exact (countsKept_ptpBolt _).trans (lineFrame_joinsBolt _).counts
theorem authFail_boltEnd : (boltEnd s).eth.authFail = [] := by
  obtain ⟨-, -, -, he⟩ := countsKept_boltEnd h hl hr hp
  rw [he, boltOver_eq, eth_boltTick, authFail_sessionsBolt]
theorem viol_boltEnd {n : Nat} (hn : n < 64) : (ndOf (boltEnd s) n).viol = 0 := by
  have hv : violKept (boltOver s) (boltEnd s) := by
    rw [boltEnd_plain h hl hr hp]
    exact violKept.trans (violKept_of_nodes (by rw [ptpBolt_keeps])) (lineFrame_joinsBolt _).2
  refine hv n ?_
  rw [boltOver_eq, ndOf_of_nodes (nodes_boltTick _), ndOf_of_nodes (nodes_sessionsBolt _)]
  exact viol_counted s hn
theorem quadBolt_boltEnd {a : Nat} (ha : a < 128) (hc : axClass s a ≠ 0) : quadBolt (axOf s a).fb.qNow (axOf (boltEnd s) a) := by
  obtain ⟨hk, -⟩ := countsKept_boltEnd h hl hr hp
  rw [axOf_of_axes hk, boltOver_eq, axOf_of_axes (axes_boltTick _), axOf_of_axes (axes_sessionsBolt _)]
  exact quadBolt_counted h hp ha hc
theorem laneCounted_boltEnd {l : Nat} (hll : l < 8) : laneCounted (laneOf s l) (laneOf (boltEnd s) l) (lncOf (boltEnd s) l) := by
  obtain ⟨-, hkl, hkc, -⟩ := countsKept_boltEnd h hl hr hp
  rw [laneOf_of_lanes hkl, lncOf_of_lnCnt hkc, boltOver_eq, laneOf_of_lanes (lanes_boltTick _).1, lncOf_of_lnCnt (lanes_boltTick _).2,
    laneOf_of_lanes (lanes_sessionsBolt _).1, lncOf_of_lnCnt (lanes_sessionsBolt _).2]
  exact laneCounted_counted h hll
end

end Sys2Proof.Machine
end

section
/-! The rows of the pick timer. -/
open Sys2Proof Sys2Proof.Machine
namespace Sys2Proof.Machine

/-- A row of a pick, from what the pick does; what a row adds concerns the queue, the DDR bytes and the safety island only. -/
theorem goes_pickStart {s : State} {bad : List BranchNo} {P : State → Prop} (hl : s.clk.locked = true) (h : P (rowKept s (pickBegin s bad))) :
    goes (.pickStart bad) s P := ⟨_, exec_pickStart_locked hl bad, h⟩
theorem goes_boltBoundary {s : State} {P : State → Prop} (hd : boltDue s = true) (h : P (rowKept s (boltEnd s))) : goes .boltBoundary s P :=
  ⟨_, exec_boltBoundary_due hd, h⟩

/-- PICK_START and the pick timer. -/
theorem pickStart_timer {s : State} (hl : s.clk.locked = true) (bad : List BranchNo) : goes (.pickStart bad) s (fun t =>
    t.pending = s.pending ∧ t.ddr = s.ddr ∧ t.clk.pstamp = (if s.clk.started = false then 0 else if s.clk.boltDone = true then s.clk.pstamp else s.clk.pstamp + 1) ∧
    t.clk.started = true ∧ t.clk.boltDone = false ∧ t.clk.afterDl = false) := by
  have ht := timer_pickBegin s bad
  simp only [timer, nextPick, Prod.mk.injEq] at ht
  refine goes_pickStart hl ?_
  generalize pickBegin s bad = t at ht ⊢
  obtain ⟨hp, hs, hb, ha, -⟩ := ht
  exact ⟨rfl, rfl, hp, hs, hb, ha⟩
/-- BOLT_BOUNDARY and the pick timer. -/
theorem boltBoundary_timer {s : State} (hd : boltDue s = true) : goes .boltBoundary s (fun t =>
    t.pending = s.pending ∧ t.ddr = s.ddr ∧ t.clk.pstamp = s.clk.pstamp + 1 ∧ t.clk.boltDone = true ∧ t.clk.pickT0 = s.clk.pickT0 + tPick s) := by
  have ht := timer_boltEnd s
  simp only [timer, Prod.mk.injEq] at ht
  refine goes_boltBoundary hd ?_
  generalize boltEnd s = t at ht ⊢
  obtain ⟨hp, -, hb, -, h0⟩ := ht
  exact ⟨rfl, rfl, hp, hb, h0⟩

/-- What a row adds leaves the values. -/
theorem inForce_rowKept {s t : State} {p : Pend} (h : inForce s t p) : inForce s (rowKept s t) p := inForce_of_par h rfl rfl

/-- What a placement result put into force shows. -/
theorem resultIn.clauses {s t : State} {r : Run} {pl : Place} {rep : Report} (h : resultIn s t r pl rep) :
    t.warp.result = none ∧ t.warp.report = rep ∧ t.warp.place = pl ∧ t.warp.placed = true ∧ t.warp.epoch = s.warp.epoch + 1 ∧
    t.par.force = tabMerge s.par.force r.vals ∧ ∀ k ∈ r.sets, tabFind t.par.stages k = none := by
  obtain ⟨hw, hpar⟩ := h
  rw [hw, hpar]
  exact ⟨rfl, rfl, rfl, rfl, rfl, rfl, fun k hk => by rw [tabFind_foldl_tabErase, if_pos hk]⟩

end Sys2Proof.Machine

/-- Settles O31: every operation of a pick and of a bolt behind its tick leaves the pick timer (`timer_pickBegin`, `timer_boltEnd`), and at a
controller that leads nothing before the boundary's own effects touches what waits for it (`pickBegin_calm`, `boltEnd_calm`). -/
theorem pickStampAdvances : Obligations.PickStampAdvances := by
  intro s bad
  refine ⟨fun hl => pickStart_timer hl bad, fun hl => exec_pickStart_unlocked hl bad, fun hl hs hp hb => boltBoundary_timer ((boltDue_iff s).mpr ⟨hl, hs, hp, hb⟩),
    fun hn => exec_boltBoundary_early ?_, fun hc => ?_⟩
  · rw [Bool.eq_false_iff]
    intro hd
    obtain ⟨hl, hs, hp, hb⟩ := (boltDue_iff s).mp hd
    simp [hl, hs, hp, hb] at hn
  obtain ⟨hl, -⟩ := id hc
  refine ⟨fun p hp => goes_pickStart hl (inForce_rowKept (inForce_pickBegin hc bad hp)), fun hp => ?_, fun hs hpk hb hpl => ?_⟩
  · obtain ⟨-, -, -, hpar⟩ := pickBegin_marks hc bad hp
    have hmute := fun n hn hm hi ha => muted_pickBegin (n := n) hc bad hp hn hm hi ha
    have hadmit := fun n hn ha hbr => admitted_pickBegin (n := n) hc bad hp hn ha hbr
    have hresume := fun b hb hr hi => resumes_pickBegin (b := b) hc bad hp hb hr hi
    refine goes_pickStart hl ?_
    generalize pickBegin s bad = t at hpar hmute hadmit hresume ⊢
    exact ⟨hpar, hmute, hadmit, hresume⟩
  have hd : boltDue s = true := (boltDue_iff s).mpr ⟨hl, hs, hpk, hb⟩
  refine ⟨fun p hr hp => goes_boltBoundary hd (inForce_rowKept (inForce_boltEnd hc hpl hr hp)), fun r pl rep hr hi hp hm hv => ?_, fun hr hp => ?_⟩
  · have hin := resultIn_boltEnd hc hpl hr hi hp hm hv
    refine goes_boltBoundary hd ?_
    generalize boltEnd s = t at hin ⊢
    exact hin.clauses
  · have hw := warp_boltEnd hc hpl hr hp
    have hauth := authFail_boltEnd hc hpl hr hp
    have hviol := fun n hn => viol_boltEnd (n := n) hc hpl hr hp hn
    have hquad := fun a ha hcl => quadBolt_boltEnd (a := a) hc hpl hr hp ha hcl
    have hlane := fun l hll => laneCounted_boltEnd (l := l) hc hpl hr hp hll
    refine goes_boltBoundary hd ?_
    generalize boltEnd s = t at hw hauth hviol hquad hlane ⊢
    exact ⟨congrArg (·.place) hw, congrArg (·.epoch) hw, hauth, hviol, hquad, hlane⟩
end

section
/-! The DDR bytes: which rows store in them, and that those rows keep their canonical form (R57, R504, R506). -/
open Sys2Proof Sys2Proof.Machine
namespace Sys2Proof.Machine

/-! ### The rows that leave the DDR bytes -/

/-- Rows that may store in DDR: FW_DATA (R504), the zeroing at start-up (R506), and those that may reset the part (R495). -/
def storesDdr : Instr → Bool
  | .fwData _ | .ddrZeroingDone _ | .nresetAssert _ | .supplyOutOfRange _ _ _ | .watchdogExpiry | .ddrScrubBurst _ | .fwActivateRestart => true
  | _ => false

/-- A row that stores nothing in DDR answers a next state with the same bytes, and leaves the rows that wait (`finish`, `finishD`, `finishV`). -/
theorem exec_ddr_kept (i : Instr) (s : State) (h : storesDdr i = false) : goes i s (fun t => t.pending = s.pending ∧ t.ddr = s.ddr) := by
  cases i
  case fwData | ddrZeroingDone | nresetAssert | supplyOutOfRange | watchdogExpiry | ddrScrubBurst | fwActivateRestart => cases h
  all_goals exact ⟨_, rfl, rfl, rfl⟩

/-! ### Operations that leave the DDR bytes -/

/-- The DDR bytes are the same. -/
def sameDdr (s t : State) : Prop := t.ddr = s.ddr

theorem quiet.ddr {s t : State} (h : quiet s t) : sameDdr s t := by
  unfold quiet at h
  unfold sameDdr
  rw [h]
theorem sameDdrs : Frame sameDdr := ⟨fun h => h.1.ddr, fun h k => k.trans h⟩

theorem sameDdr_setDmp (s : State) (d : Damper) : sameDdr s { s with dmp := d } := rfl
theorem sameDdr_modSog (s : State) (g : Nat) (f : Sog → Sog) : sameDdr s (modSog s g f) := rfl
theorem sameDdr_sogChanged (s : State) : sameDdr s (sogChanged s) := rfl
theorem sameDdr_sogCause (s : State) (g : Nat) (cs : List Nat) : sameDdr s (sogCause s g cs) := by
  unfold sogCause
  extract_lets x m s1 d s2 s3
  have h1 : sameDdr s s1 := sameDdr_modSog s g _
  have h2 : sameDdr s s2 := sameDdrs.trans (sameDdrs.ite (sameDdrs.trans h1 (sameDdr_setDmp s1 _)) h1) (sameDdr_sogChanged _)
  have h3 : sameDdr s2 s3 := sameDdrs.cond _ (fun t => sameDdrs.event t _ _ _) s2
  exact sameDdrs.ite (sameDdrs.refl s) (sameDdrs.trans (sameDdrs.trans h2 h3) (sameDdrs.cond _ (fun t => sameDdrs.event t _ _ _) s3))
theorem sameDdr_resetsHalt (s : State) : sameDdr s (resetsHalt s) := sameDdrs.loop _ (fun t _ => sameDdrs.waits t _ _ _) s
/-- An internal fault of the Damper opens its groups and halts it (R460). -/
theorem sameDdr_dmpFault (s : State) : sameDdr s (dmpFault s) := by
  have h1 : sameDdr s (forEach (List.range 4) (fun t g => sogCause t g [11]) s) := sameDdrs.loop _ (fun t g => sameDdr_sogCause t g _) s
  exact sameDdrs.trans (sameDdrs.trans h1 (sameDdr_setDmp _ _)) (sameDdrs.trans (sameDdrs.event _ _ _ _) (sameDdr_resetsHalt _))
theorem sameDdr_scrubNext (s : State) : sameDdr s (scrubNext s) := by
  obtain ⟨b, hb, -⟩ := scrubNext_boot s
  rw [hb]
  rfl
theorem sameDdr_poolLose (s : State) (burst : Nat) : sameDdr s (poolLose s burst) := by
  unfold sameDdr
  rw [(poolLose_lost s burst).rest]

/-! ### Operations that keep the canonical form -/

theorem ddrOk_of_same {s t : State} (h : sameDdr s t) (hs : ddrOk s) : ddrOk t := by
  unfold ddrOk
  rw [h]
  exact hs

/-- A restart leaves no byte listed: R506 zeroes the memory before it is used again. -/
theorem ddrOk_chipReset (s : State) (c : Nat) : ddrOk (chipReset s c) := ⟨rfl, rfl⟩

theorem ddrOk_when {s : State} (c : Bool) {f : State → State} (hs : ddrOk s) (hf : ddrOk (f s)) : ddrOk (when c f s) := by
  cases c
  · exact hs
  · exact hf

theorem ddrOk_checked {s : State} (cs : List (Bool × Nat)) {r : State × CmdRes} (hs : ddrOk s) (hr : ddrOk r.1) : ddrOk (checked s cs r).1 := by
  unfold checked
  split
  · exact hs
  · exact hr

/-- FW_DATA writes its bytes into the staging region (R504). -/
theorem ddrOk_fwDataRun {s : State} (m : Nat) (pl : Bytes) (h : ddrOk s) : ddrOk (fwDataRun s m pl).1 :=
  ddrOk_checked _ h (memWf_memWriteBytes _ _ h)

/-- A command keeps the canonical form where its own effect does: everything around the effect is quiet. -/
theorem ddrOk_command {s : State} (e : CmdEntry) (op : Nat) {body : State → Nat → Bytes → State × CmdRes}
    (hb : ∀ u m pl, ddrOk u → ddrOk (body u m pl).1) (h : ddrOk s) : ddrOk (command s e op body) := by
  have hq : quiet s (unlistedRun flightsMax (accept s e op)) := (quiet_accept s e op).trans (quiet_unlistedRun _ _)
  have h1 := ddrOk_of_same hq.ddr h
  unfold command
  split
  · simp only []
    split
    · next m f _ =>
      have h2 := ddrOk_of_same (quiet_noteTurn _ m f.opcode).ddr h1
      split
      · unfold execFlight
        simp only []
        split
        · exact ddrOk_of_same (quiet_produce _ m f _ _).ddr h2
        · exact ddrOk_of_same (quiet_settle m f _ _).ddr (hb _ _ _ h2)
      · exact h1
    · exact h1
  · exact h

theorem ddrOk_supplyOut {s : State} (r : Rail) (mV d : Nat) (h : ddrOk s) : ddrOk (supplyOut s r mV d) := by
  unfold supplyOut
  extract_lets l under window s1
  have h1 : ddrOk s1 := ddrOk_when _ h (ddrOk_of_same (sameDdr_dmpFault s) h)
  split
  · exact ddrOk_chipReset _ 0
  · exact h1

theorem ddrOk_scrubBurst {s : State} (x : EccResult) (h : ddrOk s) : ddrOk (scrubBurst s x) := by
  cases x with
  | clean => exact ddrOk_of_same (sameDdr_scrubNext s) h
  | corrected => exact ddrOk_of_same (sameDdr_scrubNext _) h
  | uncorrectable =>
    simp only [scrubBurst]
    split
    · exact ddrOk_chipReset s 3
    · exact ddrOk_of_same (sameDdr_scrubNext _) (ddrOk_of_same (sameDdr_poolLose s _) h)

/-! ### The rows that store in DDR -/

theorem ddrOk_finishAll {s u t : State} (h : finishAll s u = .next t) (hu : ddrOk u) : ddrOk t := ddrOk_of_same (finishAll_next s h).2.1 hu
theorem ddrOk_finishM {s u t : State} (h : finishM s u = .next t) (hu : ddrOk u) : ddrOk t := ddrOk_of_same (finishM_next s h).2.1 hu

theorem ddrOk_exec_storing {i : Instr} {s t : State} (hi : storesDdr i = true) (hs : ddrOk s) (h : exec i s = .next t) : ddrOk t := by
  cases i
  case nresetAssert n =>
    refine ddrOk_finishAll h ?_
    split
    · exact hs
    · split
      · exact ddrOk_chipReset _ 0
      · simp only []
        split
        · exact ddrOk_chipReset _ 0
        · exact hs
  case supplyOutOfRange r mV d => exact ddrOk_finishAll h (ddrOk_supplyOut r mV d hs)
  case ddrZeroingDone ok =>
    refine ddrOk_finishM h (ddrOk_when _ hs ?_)
    cases ok
    · exact hs
    · exact ⟨rfl, rfl⟩
  case watchdogExpiry => exact ddrOk_finishAll h (ddrOk_when _ hs (ddrOk_chipReset s 1))
  case ddrScrubBurst x => exact ddrOk_finishAll h (ddrOk_when _ hs (ddrOk_scrubBurst x hs))
  case fwData e => exact ddrOk_finishM h (ddrOk_command e 0x0E02 (fun _ => ddrOk_fwDataRun) hs)
  case fwActivateRestart => exact ddrOk_finishAll h (ddrOk_when _ hs (ddrOk_chipReset s 2))
  all_goals cases hi

/-- Every row keeps the canonical form: those that store in DDR by what each stores, the others because they store nothing. -/
theorem ddrOk_exec {i : Instr} {s t : State} (hs : ddrOk s) (h : exec i s = .next t) : ddrOk t := by
  cases hi : storesDdr i
  · obtain ⟨u, hu, -, hd⟩ := exec_ddr_kept i s hi
    cases hu.symm.trans h
    exact ddrOk_of_same hd hs
  · exact ddrOk_exec_storing hi hs h

end Sys2Proof.Machine

/-- Settles O57: an empty queue idles, and a row of the queue keeps the form (`ddrOk_exec`). -/
theorem stepKeepsDdrCanonical : Obligations.StepKeepsDdrCanonical := by
  intro s t hs h
  unfold step at h
  split at h
  · cases h
    exact hs
  · next c cs _ => exact ddrOk_exec (s := { s with pending := cs }) hs h
end

section
/-! Placement runs: when one is asked for, started and completed (R24, R46, R68, R72, R391). -/
open Sys2Proof Sys2Proof.Machine
namespace Sys2Proof.Machine

/-! ### Frames and outcomes -/

theorem quiet_setWarp {s u : State} (h : quiet s u) (w : Warp) : quiet { s with warp := w } { u with warp := w } := by
  unfold quiet at *
  rw [h]
theorem quiet.warp {s t : State} (h : quiet s t) : t.warp = s.warp := by
  unfold quiet at h
  rw [h]
/-- Outside the lines, the clock and the carriers nothing has changed. -/
theorem netFrame.rest {s t : State} (h : netFrame s t) :
    t.pending = s.pending ∧ t.ddr = s.ddr ∧ t.dmp = s.dmp ∧ t.par = s.par ∧ t.axes = s.axes ∧ t.warp = s.warp := by
  unfold netFrame quiet at h
  rw [h]
  exact ⟨rfl, rfl, rfl, rfl, rfl, rfl⟩

/-- The outcome of a row outside the island that leaves the Damper, the queue and the DDR bytes. -/
theorem finishV_kept {s t : State} (hp : t.pending = s.pending) (hd : t.ddr = s.ddr) (hm : t.dmp = s.dmp) : finishV s t = .next t := by
  rw [finishV_self s t hm, ← hp, ← hd]
/-- A command that is taken at once and changes nothing completes with its status, as one that is turned away does (R378). -/
theorem goes_answered {i : Instr} {s : State} {e : CmdEntry} {op st : Nat} {pl : Bytes} {body : State → Nat → Bytes → State × CmdRes}
    (hi : exec i s = finishD s (command s e op body)) (h : takesNow s e = true) (hb : body (taken s e op) e.master e.payload = (taken s e op, .fin st pl))
    (hop : opcodes.contains op = true := by decide) : goes i s (fun t => answered s t e op st pl ∧ quiet s t) := by
  obtain ⟨ha, hq⟩ := command_fin op body h hb hop
  have hs : quiet s (command s e op body) := (quiet_taken s e op).trans hq
  refine ⟨_, hi.trans (finishD_quiet hs), ?_, hs⟩
  unfold answered cplOf at *
  rw [ps_taken] at ha
  exact ha

@[simp] theorem warp_taken (s : State) (e : CmdEntry) (op : Nat) : (taken s e op).warp = s.warp := (quiet_taken s e op).warp
@[simp] theorem warpBusy_taken (s : State) (e : CmdEntry) (op : Nat) : warpBusy (taken s e op) = warpBusy s := by simp [warpBusy]

/-! ### Starting a run -/

section
variable {s : State} {r : Run}

/-- The Warper with a run started: it takes the pending nodes, and is a full run where no placement has taken effect (R68, R71). -/
def runWarp (w : Warp) (r : Run) : Warp := { w with running := some { r with nodes := w.pendNodes, full := r.full || !w.placed }, pendNodes := [] }

/-- A run that changes no pick length starts in the Warper alone. -/
theorem runStart_plain (h : r.trig ≠ 4) : runStart s r = { s with warp := runWarp s.warp r } := by
  unfold runStart
  rw [decide_eq_false h]
  rfl
/-- A run of a change of DEV_PICK_LEN also begins the change (R24). -/
theorem runStart_plen (h : r.trig = 4) : runStart s r = plenBegin { s with warp := runWarp s.warp r } (runPlen r) := by
  unfold runStart
  rw [decide_eq_true h]
  rfl

/-- The change of pick length stops the markers at a boundary that the clock record names (R24). -/
theorem plenBegin_clk (s : State) (code : Nat) :
    quiet { s with clk := (plenBegin s code).clk } (plenBegin s code) ∧ (plenBegin s code).clk.plenStop = 1 ∧ (plenBegin s code).clk.plenNew = code :=
  ⟨rfl, rfl, rfl⟩

/-- The run that a request asks for. -/
def askedRun (s : State) (trig : Nat) (full : Bool) (vals : Tab Int) (sets : List Nat) : Run :=
  { id := s.warp.nextId, trig := trig, full := full, vals := vals, sets := sets, nodes := [] }

variable {trig : Nat} {full : Bool} {vals : Tab Int} {sets : List Nat}

/-- Where the Warper is not busy and nothing waits, the run asked for starts. -/
theorem runRequest_starts (hb : warpBusy s = false) (hq : s.warp.queue = []) : runRequest s trig full vals sets =
    (runStart { s with warp.nextId := s.warp.nextId + 1 } (askedRun s trig full vals sets), some s.warp.nextId) := if_pos ⟨hb, hq⟩
/-- Where it is busy or others wait, the run waits as the last of at most four. -/
theorem runRequest_queues (hb : warpBusy s = true ∨ s.warp.queue ≠ []) (hl : s.warp.queue.length < 4) : runRequest s trig full vals sets =
    ({ s with warp := { s.warp with nextId := s.warp.nextId + 1, queue := s.warp.queue ++ [askedRun s trig full vals sets] } }, some s.warp.nextId) := by
  have h : ¬(warpBusy s = false ∧ s.warp.queue = []) := fun ⟨h1, h2⟩ => hb.elim (by simp [h1]) (· h2)
  unfold runRequest
  exact (if_neg h).trans (if_pos hl)
/-- Behind four that wait it is refused. -/
theorem runRequest_refused (hl : 4 ≤ s.warp.queue.length) : runRequest s trig full vals sets = (s, none) := by
  have h : ¬(warpBusy s = false ∧ s.warp.queue = []) := fun ⟨_, h2⟩ => by simp [h2] at hl
  unfold runRequest
  exact (if_neg h).trans (if_neg (by omega))
end

/-! ### PLACE_FULL (R391) -/

section
variable {s : State} {e : CmdEntry}

/-- A PLACE_FULL without a payload whose master holds COMMIT on target 1 asks for a full run of trigger 3 (R391) and waits for it. -/
theorem placeFullRun_waits {m id : Nat} {t : State} (hr : hasRights s m 1 rCOMMIT = true) (hq : runRequest s 3 true [] [] = (t, some id)) :
    placeFullRun s m [] = (t, .wait (.run id)) := by
  simp [placeFullRun, checked, firstFail, hr, hq]
/-- One that gets no run completes with PLACE_BUSY. -/
theorem placeFullRun_busy {m : Nat} {t : State} (hr : hasRights s m 1 rCOMMIT = true) (hq : runRequest s 3 true [] [] = (t, none)) :
    placeFullRun s m [] = (s, .fin 0x5004 []) := by
  simp [placeFullRun, checked, firstFail, hr, hq]

/-- A PLACE_FULL that gets a run waits for it, with the Warper as the request leaves it. -/
theorem completesLater_placeFull {w : Warp} (h : takesNow s e = true) (hp : e.payload = []) (hr : hasRights s e.master 1 rCOMMIT = true)
    (hq : runRequest (taken s e 0x0301) 3 true [] [] = ({ taken s e 0x0301 with warp := w }, some s.warp.nextId)) :
    completesLater (.placeFull e) s e (.run s.warp.nextId) (quiet { s with warp := w }) := by
  have hf := taken_flights 0x0301 (takesNow_entry h)
  refine completesLater_effect (op := 0x0301) (body := placeFullRun) (u := { taken s e 0x0301 with warp := w }) rfl h ?_ hf fun t ht => ?_
  · rw [hp, placeFullRun_waits (by simpa using hr) hq]
  · have hu := quiet_setWarp (quiet_taken s e 0x0301) w
    unfold quiet at *
    rw [ht, hu]
end

section
variable {s : State} {r : Run}

/-! ### PLACEMENT_RUN_START (R24, R68) -/

theorem exec_placementRunStart (s : State) : exec .placementRunStart s = finishV s (runNext s) := rfl

theorem runNext_idle (h : warpBusy s = true ∨ isStandby s = true) : runNext s = s := if_pos (by simpa using h)
/-- The oldest queued run starts. -/
theorem runNext_queued {rs : List Run} (hb : warpBusy s = false) (hs : isStandby s = false) (hq : s.warp.queue = r :: rs) :
    runNext s = runStart { s with warp.queue := rs } r := by
  simp [runNext, hb, hs, hq]
/-- Without one, a run of trigger 2 starts for the pending nodes. -/
theorem runNext_nodes (hb : warpBusy s = false) (hs : isStandby s = false) (hq : s.warp.queue = []) (hn : s.warp.pendNodes ≠ []) :
    runNext s = runStart { s with warp.nextId := s.warp.nextId + 1 } (askedRun s 2 false [] []) := by
  simp [runNext, hb, hs, hq, hn, askedRun]

/-! ### PLACEMENT_RUN_COMPLETE (R46, R68, R72) -/

/-- What a run without a change of pick length finds: a placement, or why there is none. -/
def runResult (s : State) (r : Run) : WRes := if r.full then fullRun (runView s r) else incrRun s (runView s r) r

theorem runComplete_none (h : s.warp.running = none) : runComplete s = s := by simp [runComplete, h]
section
variable (h : s.warp.running = some r) (ht : r.trig ≠ 4)
include h ht
theorem runComplete_error {e : WFail × List Nat} (hx : runResult s r = .error e) : runComplete s = runFail s r (.error e) e.1.outcome := by
  unfold runResult at hx
  simp [runComplete, h, ht, hx]
/-- A placement whose pool granules are not yet initialised keeps the run going (R58, R506). -/
theorem runComplete_pool {p : Place × List ResRec} (hx : runResult s r = .ok p) (hp : poolReady s p.1 = false) : runComplete s = s := by
  unfold runResult at hx
  simp [runComplete, h, ht, hx, hp]
theorem runComplete_ok {p : Place × List ResRec} (hx : runResult s r = .ok p) (hp : poolReady s p.1 = true) : runComplete s = runDone s r p := by
  unfold runResult at hx
  simp [runComplete, h, ht, hx, hp]
end
theorem exec_placementRunComplete (s : State) : exec .placementRunComplete s = finishV s (runComplete s) := rfl

/-- A failed run leaves its report, and the command that waits for it completes (R72). -/
theorem runFail_plain (ht : r.trig ≠ 4) (x : WRes) (o : Nat) :
    quiet { s with warp := { s.warp with running := none, report := reportOf s (runView s r) r x s.warp.epoch.toNat } } (runFail s r x o) := by
  unfold runFail
  simp only [if_neg ht]
  exact (still_runAnswer _ r o).1

/-- The Warper while the result of a run and its report wait for the boundary (R46, R68). -/
def resultWarp (s : State) (r : Run) (x : Place × List ResRec) (item : Option (BitVec 32)) : Warp :=
  { s.warp with running := none, resItem := item,
                result := some (r, x.1, reportOf (runView s r) (runView s r) r (.ok x) (s.warp.epoch + 1).toNat) }

theorem quiet_runTold (s : State) (r : Run) (n : BitVec 32) : quiet s (runTold s r n) :=
  quiets.loop _ (fun t _ => quiets.loop _ (fun u _ => quiets.item u _) t) s

/-- A run that succeeds sends assignments, tells the partner and leaves everything else to the boundary (R46, R128, R478). -/
theorem runDone_waits (s : State) (r : Run) (x : Place × List ResRec) :
    ∃ item, netFrame { s with warp := resultWarp s r x item } (runDone s r x) := by
  unfold runDone
  extract_lets e rep w s0 q u v s1
  have h1 : quiet { s with warp := resultWarp s r x q.2 } s1 :=
    (quiet_setWarp (quiet_sendWait s0 _ true) (resultWarp s r x q.2)).trans (quiet_runTold _ r q.1.pair.iseqSent)
  exact ⟨q.2, netFrames.trans (netFrame_of_quiet h1) (netFrames.cond _ (fun t => (lineFrame_asgAll t x.1).transmission) s1)⟩
end

end Sys2Proof.Machine

/-- Settles O10: the three answers of `runRequest` to the state in which the command executes. -/
theorem placeFullAsksForARun : Obligations.PlaceFullAsksForARun := by
  intro e s h hp hr r w
  refine ⟨fun hb hq => completesLater_placeFull h hp hr ?_, fun hb hl => completesLater_placeFull h hp hr ?_, fun hl => goes_answered rfl h ?_⟩
  · rw [runRequest_starts (by simpa using hb) (by simpa using hq), runStart_plain (by simp [askedRun]), warp_taken]
    simp [runWarp, askedRun, r, w]
  · rw [runRequest_queues (by simpa using hb) (by simpa using hl)]
    simp [askedRun, r, w]
  · rw [hp, placeFullRun_busy (by simpa using hr) (runRequest_refused (by simpa using hl))]

/-- Settles O40: each row by the run that the Warper's record names, and the end of one by what it found: the report of a
failed one (`runFail_plain`), the result of another at the boundary (`runDone_waits`). -/
theorem placementRunRows : Obligations.PlacementRunRows := by
  intro s
  refine ⟨fun h => ?_, fun r rs hb hs hq ht => ?_, fun r rs hb hs hq ht => ?_, fun hb hs hq hn => ?_, fun h => ?_, fun r hr ht => ?_⟩
  · rw [exec_placementRunStart, runNext_idle h, finishV_same]
  · rw [exec_placementRunStart, runNext_queued hb hs hq, runStart_plain ht]
    exact finishV_kept rfl rfl rfl
  · refine ⟨_, ?_, plenBegin_clk { s with warp := runWarp { s.warp with queue := rs } r } (runPlen r)⟩
    rw [exec_placementRunStart, runNext_queued hb hs hq, runStart_plen ht]
    exact finishV_kept rfl rfl rfl
  · refine ⟨{ s with warp := runWarp { s.warp with nextId := s.warp.nextId + 1 } (askedRun s 2 false [] []) }, ?_, rfl, rfl, rfl, _, rfl, rfl, rfl, rfl⟩
    rw [exec_placementRunStart, runNext_nodes hb hs hq hn, runStart_plain (by simp [askedRun])]
    exact finishV_kept rfl rfl rfl
  · rw [exec_placementRunComplete, runComplete_none h, finishV_same]
  · refine ⟨fun e he => ?_, fun p hp hn => ?_, fun p hp hy => ?_⟩
    · have hf := runFail_plain (s := s) ht (.error e) e.1.outcome
      obtain ⟨h1, h2, h3, -, -, hw⟩ := (netFrame_of_quiet hf).rest
      refine ⟨runFail s r (.error e) e.1.outcome, ?_, ?_, ?_⟩
      · rw [exec_placementRunComplete, runComplete_error hr ht he]
        exact finishV_kept h1 h2 h3
      · rw [hw]
        exact hf
      · rw [hw, he]
    · rw [exec_placementRunComplete, runComplete_pool hr ht hp hn, finishV_same]
    · obtain ⟨item, hf⟩ := runDone_waits s r p
      obtain ⟨h1, h2, h3, h4, h5, hw⟩ := hf.rest
      refine ⟨runDone s r p, ?_, h1, h2, h3, h4, h5, ?_⟩
      · rw [exec_placementRunComplete, runComplete_ok hr ht hp hy]
        exact finishV_kept h1 h2 h3
      · rw [hw, hp]
        exact ⟨rfl, rfl, rfl, rfl, rfl, rfl⟩
end

section
/-! The down frame of a branch and its join gates (R100, R101, R114, R116, R146). -/
open Sys2Proof Sys2Proof.Machine
namespace Sys2Proof.Machine

/-! ### Rows and records -/

/-- A row outside the island whose effect is framed by what it keeps answers its effect. -/
theorem goes_quiet {i : Instr} {s u t : State} {P : State → Prop} (hi : exec i s = finishD s t) (hq : quiet u t) (hP : P t)
    (hp : u.pending = s.pending := by rfl) (hd : u.ddr = s.ddr := by rfl) (hm : u.dmp = s.dmp := by rfl) : goes i s P :=
  ⟨t, hi.trans (finishD_quiet hq hp hd hm), hP⟩

theorem brsBut_modBr (s : State) (b : Nat) (f : Branch → Branch) : brsBut s (modBr s b f) b := fun _ h => brOf_modBr_other s f h
theorem brsBut.trans {s t u : State} {b : Nat} (h : brsBut s t b) (k : brsBut t u b) : brsBut s u b := fun j hj => (k j hj).trans (h j hj)
theorem brOf_of_brs {s t : State} (h : t.brs = s.brs) (b : Nat) : brOf t b = brOf s b := by
  unfold brOf
  rw [h]
theorem nodesBut_modNd (s : State) (n : Nat) (f : Node → Node) : nodesBut s (modNd s n f) n := fun _ h => ndOf_modNd_other s f h

/-- A branch that carries this controller's markers is not a standby's. -/
theorem isStandby_of_branchOn {s : State} {b : Nat} (h : branchOn s b = true) : isStandby s = false := by
  simp only [branchOn, sending, Bool.and_eq_true, Bool.or_eq_true, decide_eq_true_eq] at h
  rcases h.1 with h | h <;> simp [isStandby, h]

/-- Every list but the empty one has a least member. -/
theorem argMin_eq_none {α : Type} {f : α → Int} {xs : List α} : argMin f xs = none ↔ xs = [] := by
  cases xs with
  | nil => simp [argMin]
  | cons x xs => cases h : argMin f xs <;> simp [argMin, h, apply_ite (· = none)]

/-! ### The down frame -/

/-- The lowest accepted tap of a branch (R101, R116). -/
def lowestTap (s : State) (b : Nat) : Option (Nat × Int) := argMin (fun (p : Nat × Int) => (p.1 : Int)) (brOf s b).joinAck
/-- The frozen frame of a branch is on its way. -/
def downLine (s : State) (b : Nat) : State := modBr s b (fun r => { r with downSent := frameBytes (downTspec s b) true b 1 r.down })
/-- The join acknowledgement has gone with it: its node is admitted from the next marker on. -/
def downAck (s : State) (b tap : Nat) : State :=
  modNd (modBr (downLine s b) b (fun r => { r with joinAck := [] })) (4 * b + tap) (fun d => { d with admitDue := true })

theorem downSend_eq (s : State) (b : Nat) :
    downSend s b = match lowestTap s b with | some p => downAck s b p.1 | none => downLine s b := by
  have h : (brOf (downLine s b) b).joinAck = (brOf s b).joinAck := by rw [downLine, brOf_modBr]
  show (match argMin _ (brOf (downLine s b) b).joinAck with | some p => _ | none => _) = _
  rw [h]
  rfl

section
variable (s : State) (b : Nat)
theorem brOf_downLine : brOf (downLine s b) b = { brOf s b with downSent := frameBytes (downTspec s b) true b 1 (brOf s b).down } := brOf_modBr s b _
theorem brsBut_downLine : brsBut s (downLine s b) b := brsBut_modBr s b _
theorem brOf_downAck (tap : Nat) : brOf (downAck s b tap) b = { brOf (downLine s b) b with joinAck := [] } :=
  brOf_modBr (downLine s b) b fun r => { r with joinAck := [] }
theorem brsBut_downAck (tap : Nat) : brsBut s (downAck s b tap) b :=
  (brsBut_downLine s b).trans (brsBut_modBr (downLine s b) b fun r => { r with joinAck := [] })
end

section
variable {s : State} {b : BranchNo}

theorem exec_downFrameTransmit (s : State) (b : BranchNo) :
    exec (.downFrameTransmit b) s = finishD s (when (branchOn s b && s.clk.afterDl) (fun t => downSend t b) s) := rfl

theorem downFrame_goes (hb : branchOn s b = true) (ha : s.clk.afterDl = true) : goes (.downFrameTransmit b) s (fun t =>
    quiet { s with brs := t.brs, nodes := t.nodes } t ∧ brsBut s t b ∧ (brOf t b).downSent = frameBytes (downTspec s b) true b 1 (brOf s b).down ∧
    (brOf t b).joinAck = [] ∧ ((brOf s b).joinAck = [] → t.nodes = s.nodes) ∧
    ∀ p, lowestTap s b = some p →
      ndOf t (4 * b.val + p.1) = { ndOf s (4 * b.val + p.1) with admitDue := true } ∧ nodesBut s t (4 * b.val + p.1)) := by
  have he : exec (.downFrameTransmit b) s = finishD s (downSend s b) := by rw [exec_downFrameTransmit, hb, ha]; rfl
  rw [downSend_eq] at he
  rcases hp : lowestTap s b with _ | p
  · rw [hp] at he
    have hj : (brOf s b).joinAck = [] := argMin_eq_none.mp hp
    refine ⟨downLine s b, he, rfl, brsBut_downLine s b, ?_, ?_, fun _ => rfl, by simp⟩
    · rw [brOf_downLine]
    · rw [brOf_downLine, hj]
  · replace he : exec (.downFrameTransmit b) s = finishD s (downAck s b p.1) := by rw [he, hp]
    have hj : (brOf s b).joinAck ≠ [] := fun h => by simp [lowestTap, argMin_eq_none.mpr h] at hp
    refine ⟨downAck s b p.1, he, rfl, brsBut_downAck s b p.1, ?_, ?_, fun h => absurd h hj, fun q hq => ?_⟩
    · rw [brOf_downAck, brOf_downLine]
    · rw [brOf_downAck]
    · obtain rfl : p = q := Option.some.inj hq
      exact ⟨ndOf_modNd _ _ _, nodesBut_modNd _ _ _⟩

theorem downFrame_idle (h : branchOn s b = false ∨ s.clk.afterDl = false) : exec (.downFrameTransmit b) s = .next s := by
  rw [exec_downFrameTransmit, Bool.and_eq_false_iff.mpr h]
  rfl
end

/-! ### Join gates (R100, R146) -/

/-- The frame of a gate is a valid one in its band (R100). -/
def joinGood (tap : Nat) (o : GateObs) : Bool := joinCheck tap o && inJoinBand o
/-- The code violations of a gate, counted for its branch. -/
def joinViol (s : State) (b : Nat) (o : GateObs) : State := modBrc s b (fun c => { c with codeViol := satAdd 32 c.codeViol o.codeViol })
/-- A valid join frame, counted for its branch. -/
def joinCounted (s : State) (b : Nat) (o : GateObs) : State := modBrc (joinViol s b o) b (fun c => { c with joinOk := satInc 16 c.joinOk })
/-- A gate with energy and without a valid frame, counted for its branch. -/
def joinCorrupt (s : State) (b : Nat) (o : GateObs) : State := modBrc (joinViol s b o) b (fun c => { c with joinBad := satInc 32 c.joinBad })
/-- A valid join frame of a tap, noted for its node. -/
def joinNoted (s : State) (b tap : Nat) (o : GateObs) : State :=
  modNd (joinCounted s b o) (4 * b + tap) (fun x => { x with tRt := o.start.getD 0, drev := rdLe (frPayload o.frame) 1 1, nser := frTspec o.frame })
/-- A valid join frame of a tap, accepted. -/
def joinTaken (s : State) (b tap : Nat) (o : GateObs) : State :=
  modBr (joinNoted s b tap o) b (fun r => { r with joinAck := r.joinAck ++ [(tap, o.start.getD 0)] })

section
variable {s : State} {b : BranchNo} {tap : TapNo} {o : GateObs}

theorem joinGood_eq_true : joinGood tap o = true ↔ joinCheck tap o = true ∧ inJoinBand o = true := Bool.and_eq_true_iff
theorem joinGood_eq_false : joinGood tap o = false ↔ joinCheck tap o = false ∨ inJoinBand o = false := Bool.and_eq_false_iff

theorem joinClose_good (h : joinGood tap o = true) :
    joinClose s b tap o = if isStandby s then joinCounted s b o else joinTaken s b tap o := by
  unfold joinGood at h
  simp only [joinClose, h, if_true]
  cases isStandby s <;> rfl
theorem joinClose_silent (h : joinGood tap o = false) (he : o.energy = false) : joinClose s b tap o = joinViol s b o := by
  unfold joinGood at h
  simp only [joinClose, h, he]
  rfl
/-- A controller that is no standby may note the tap of a corrupted frame. -/
theorem joinClose_corrupt (h : joinGood tap o = false) (he : o.energy = true) : joinClose s b tap o = joinCorrupt s b o ∨
    (isStandby s = false ∧ joinClose s b tap o = modBr (joinCorrupt s b o) b (fun r => { r with joinBadNow := dedup (r.joinBadNow ++ [tap.val]) })) := by
  unfold joinGood at h
  simp only [joinClose, h, he, if_true, Bool.false_eq_true, if_false]
  split
  · exact .inl rfl
  · next hn =>
    simp only [not_or, Bool.not_eq_true] at hn
    exact .inr ⟨hn.2.2, rfl⟩

theorem brcOf_joinViol : brcOf (joinViol s b o) b = { brcOf s b with codeViol := satAdd 32 (brcOf s b).codeViol o.codeViol } := brcOf_modBrc s b _
theorem brcOf_joinCounted : brcOf (joinCounted s b o) b = { brcOf (joinViol s b o) b with joinOk := satInc 16 (brcOf s b).joinOk } := by
  rw [joinCounted, brcOf_modBrc, brcOf_joinViol]
theorem brcOf_joinCorrupt : brcOf (joinCorrupt s b o) b = { brcOf (joinViol s b o) b with joinBad := satInc 32 (brcOf s b).joinBad } := by
  rw [joinCorrupt, brcOf_modBrc, brcOf_joinViol]

/-- What a gate without a valid frame in its band leaves: the acknowledgements, the nodes and the count of accepted frames; a standby's branches too. -/
structure JoinRefused (s : State) (b : Nat) (o : GateObs) (t : State) : Prop where
  frame : quiet { s with brs := t.brs, brCnt := t.brCnt } t
  others : brsBut s t b
  acks : (brOf t b).joinAck = (brOf s b).joinAck
  viol : (brcOf t b).codeViol = satAdd 32 (brcOf s b).codeViol o.codeViol
  ok : (brcOf t b).joinOk = (brcOf s b).joinOk
  bad : (brcOf t b).joinBad = if o.energy then satInc 32 (brcOf s b).joinBad else (brcOf s b).joinBad
  standby : isStandby s = true → t.brs = s.brs

theorem joinRefused_joinClose (h : joinGood tap o = false) : JoinRefused s b o (joinClose s b tap o) := by
  cases he : o.energy
  · rw [joinClose_silent h he]
    exact ⟨rfl, fun _ _ => rfl, rfl, by rw [brcOf_joinViol], by rw [brcOf_joinViol], by rw [brcOf_joinViol, he]; rfl, fun _ => rfl⟩
  · have hc : JoinRefused s b o (joinCorrupt s b o) :=
      ⟨rfl, fun _ _ => rfl, rfl, by rw [brcOf_joinCorrupt, brcOf_joinViol], by rw [brcOf_joinCorrupt, brcOf_joinViol], by rw [brcOf_joinCorrupt, he]; rfl, fun _ => rfl⟩
    rcases joinClose_corrupt (s := s) (b := b) h he with hj | ⟨hs, hj⟩
    · rw [hj]
      exact hc
    · rw [hj]
      exact ⟨rfl, hc.others.trans (brsBut_modBr _ _ _), by rw [brOf_modBr]; exact hc.acks, hc.viol, hc.ok, hc.bad, by simp [hs]⟩

theorem exec_joinSlotGateClose (s : State) (b : BranchNo) (tap : TapNo) (o : GateObs) : exec (.joinSlotGateClose b tap o) s =
    finishD s (when ((branchOn s b || (isStandby s && (brOf s b).brpwr)) && joinGate s b tap) (fun t => joinClose t b tap o) s) := rfl

theorem exec_joinSlot_open (h : branchOn s b = true ∨ (isStandby s = true ∧ (brOf s b).brpwr = true)) (hg : joinGate s b tap = true) :
    exec (.joinSlotGateClose b tap o) s = finishD s (joinClose s b tap o) := by
  have hc : (branchOn s b || (isStandby s && (brOf s b).brpwr)) = true := by simpa using h
  rw [exec_joinSlotGateClose, hc, hg]
  rfl

theorem joinSlot_idle (h : joinGate s b tap = false) : exec (.joinSlotGateClose b tap o) s = .next s := by
  rw [exec_joinSlotGateClose, h, Bool.and_false]
  rfl

theorem joinSlot_active (hb : branchOn s b = true) (hg : joinGate s b tap = true) : goes (.joinSlotGateClose b tap o) s (fun t =>
    quiet { s with brs := t.brs, brCnt := t.brCnt, nodes := t.nodes } t ∧ brsBut s t b ∧ nodesBut s t (4 * b.val + tap.val) ∧
    (brcOf t b).codeViol = satAdd 32 (brcOf s b).codeViol o.codeViol ∧
    (joinCheck tap o = true → inJoinBand o = true → (brcOf t b).joinOk = satInc 16 (brcOf s b).joinOk ∧
      (brOf t b).joinAck = (brOf s b).joinAck ++ [(tap.val, o.start.getD 0)] ∧ (ndOf t (4 * b.val + tap.val)).nser = frTspec o.frame ∧
      (ndOf t (4 * b.val + tap.val)).tRt = o.start.getD 0) ∧
    ((joinCheck tap o = false ∨ inJoinBand o = false) → (brOf t b).joinAck = (brOf s b).joinAck ∧ t.nodes = s.nodes ∧
      (brcOf t b).joinOk = (brcOf s b).joinOk ∧ (brcOf t b).joinBad = (if o.energy then satInc 32 (brcOf s b).joinBad else (brcOf s b).joinBad))) := by
  have he := exec_joinSlot_open (o := o) (.inl hb) hg
  cases hj : joinGood tap o
  · have hr := joinRefused_joinClose (s := s) (b := b) hj
    have hf := hr.frame
    have hn : (joinClose s b tap o).nodes = s.nodes := by unfold quiet at hf; rw [hf]
    refine goes_quiet he hf ⟨?_, hr.others, fun k _ => ndOf_of_nodes hn k, hr.viol, fun h1 h2 => ?_, fun _ => ⟨hr.acks, hn, hr.ok, hr.bad⟩⟩
    · rw [hn]
      exact hf
    · rw [joinGood_eq_true.mpr ⟨h1, h2⟩] at hj
      cases hj
  · rw [joinClose_good hj, isStandby_of_branchOn hb] at he
    have hbr : brOf (joinTaken s b tap o) b = { brOf s b with joinAck := (brOf s b).joinAck ++ [(tap.val, o.start.getD 0)] } := by rw [joinTaken, brOf_modBr]; rfl
    have hnd : ndOf (joinTaken s b tap o) (4 * b.val + tap.val) =
        { ndOf s (4 * b.val + tap.val) with tRt := o.start.getD 0, drev := rdLe (frPayload o.frame) 1 1, nser := frTspec o.frame } := by
      rw [joinTaken, ndOf_modBr, joinNoted, ndOf_modNd]
      rfl
    have hc : brcOf (joinTaken s b tap o) b = brcOf (joinCounted s b o) b := rfl
    refine ⟨joinTaken s b tap o, he, rfl, brsBut_modBr _ _ _, fun k hk => ?_, ?_, fun _ _ => ⟨?_, ?_, ?_, ?_⟩, fun h => ?_⟩
    · rw [joinTaken, ndOf_modBr, joinNoted, ndOf_modNd_other _ _ hk]
      rfl
    · rw [hc, brcOf_joinCounted, brcOf_joinViol]
    · rw [hc, brcOf_joinCounted]
    · rw [hbr]
    · rw [hnd]
    · rw [hnd]
    · rw [joinGood_eq_false.mpr h] at hj
      cases hj

theorem joinSlot_standby (hs : isStandby s = true) (hp : (brOf s b).brpwr = true) (hg : joinGate s b tap = true) : goes (.joinSlotGateClose b tap o) s (fun t =>
    quiet { s with brCnt := t.brCnt } t ∧ (brcOf t b).codeViol = satAdd 32 (brcOf s b).codeViol o.codeViol ∧
    (brcOf t b).joinOk = (if joinCheck tap o = true ∧ inJoinBand o = true then satInc 16 (brcOf s b).joinOk else (brcOf s b).joinOk)) := by
  have he := exec_joinSlot_open (o := o) (.inr ⟨hs, hp⟩) hg
  cases hj : joinGood tap o
  · have hr := joinRefused_joinClose (s := s) (b := b) hj
    have hf := hr.frame
    rw [hr.standby hs] at hf
    refine goes_quiet he hf ⟨hf, hr.viol, ?_⟩
    rw [if_neg (fun h => by simp [joinGood_eq_true.mpr h] at hj)]
    exact hr.ok
  · rw [joinClose_good hj, hs] at he
    refine ⟨joinCounted s b o, he, rfl, ?_, ?_⟩
    · rw [brcOf_joinCounted, brcOf_joinViol]
    · rw [brcOf_joinCounted, if_pos (joinGood_eq_true.mp hj)]
end

end Sys2Proof.Machine

/-- Settles O35: the down frame by whether a tap waits for its acknowledgement (`downSend_eq`), a join gate by whether its frame is a valid one
in its band (`joinClose_good`, `joinRefused_joinClose`). -/
theorem downFramesAndJoins : Obligations.DownFramesAndJoins := by
  intro s b
  exact ⟨downFrame_goes, downFrame_idle, fun _ _ => joinSlot_active, fun _ _ => joinSlot_standby, fun _ _ => joinSlot_idle⟩
end

section
/-! What is lost with a node or a branch (R69, R92, R127, R142), and what a re-admission brings back (R92, R142). -/
open Sys2Proof Sys2Proof.Machine
namespace Sys2Proof.Machine

/-! ### Commits that wait for the acknowledgement of a node (R240) -/

/-- Of the values only commits that waited have ended. -/
def commitsEnd (s t : State) : Prop := t.par = { s.par with pends := t.par.pends, stages := t.par.stages }
/-- So it is, and none has where no value of a stepper axis waits. -/
def acksEnd (s t : State) : Prop := commitsEnd s t ∧ (s.par.stepMod = [] → t.par = s.par)

theorem commitsEnd.trans {s t u : State} (h : commitsEnd s t) (k : commitsEnd t u) : commitsEnd s u := by
  unfold commitsEnd at *
  rw [k, h]
theorem acksEnd_of_par {s t : State} (h : t.par = s.par) : acksEnd s t := by
  unfold acksEnd commitsEnd
  rw [h]
  exact ⟨rfl, fun _ => rfl⟩
theorem acksEnds : Frame acksEnd where
  carriers h := acksEnd_of_par (par_of_quiet h.1)
  trans := fun ⟨h, hp⟩ ⟨k, kp⟩ => ⟨h.trans k, fun hn => (kp (by unfold commitsEnd at h; rw [h]; exact hn)).trans (hp hn)⟩

/-- Outside the values and the carriers nothing has changed, and of the values only commits that waited have ended. -/
def commitFrame (s t : State) : Prop := quiet { s with par := t.par } t ∧ commitsEnd s t
theorem commitFrames : Frame commitFrame where
  carriers h := by
    have hp := par_of_quiet h.1
    unfold commitFrame commitsEnd
    rw [hp]
    exact ⟨h.1, rfl⟩
  trans := fun ⟨h, hp⟩ ⟨k, kp⟩ => by
    refine ⟨?_, hp.trans kp⟩
    unfold quiet at *
    rw [k, h]
theorem commitFrame_setEnds (s : State) (ps : List Pend) (gs : Tab Stage) : commitFrame s { s with par := { s.par with pends := ps, stages := gs } } := ⟨rfl, rfl⟩
theorem commitFrame_stepAnswer (s : State) (c : Pend → Bool) (st : Nat) : commitFrame s (stepAnswer s c st) :=
  commitFrames.loop _ (fun t _ => commitFrames.trans (commitFrame_setEnds t _ _) (commitFrames.waits _ _ st [])) s
theorem acksEnd_stepModFail (s : State) (n : Nat) : quiet { s with par := (stepModFail s n).par } (stepModFail s n) ∧ acksEnd s (stepModFail s n) := by
  by_cases h : s.par.stepMod = []
  · rw [stepModFail, if_pos h]
    exact ⟨.refl s, acksEnds.refl s⟩
  · rw [stepModFail, if_neg h]
    obtain ⟨hq, hp⟩ := commitFrame_stepAnswer s
      (fun p => p.vals.any (fun x => axClass s (x.1 % 256) = 3 && axNode s (x.1 % 256) = n && (tabFind s.par.stepMod x.1).isSome)) 0x2007
    exact ⟨hq, hp, fun hn => absurd hn h⟩
theorem nodes_stepModFail (s : State) (n : Nat) : (stepModFail s n).nodes = s.nodes := by
  have h := (acksEnd_stepModFail s n).1
  unfold quiet at h
  rw [h]
theorem ndCnt_stepModFail (s : State) (n : Nat) : (stepModFail s n).ndCnt = s.ndCnt := by
  have h := (acksEnd_stepModFail s n).1
  unfold quiet at h
  rw [h]

/-! ### Nodes and transfers that are lost (R69, R127) -/

/-- Outside nodes, the commits that wait for one and the carriers nothing has changed, and no node has joined or is new. -/
def lossFrame (s t : State) : Prop :=
  quiet { s with nodes := t.nodes, ndCnt := t.ndCnt, par := t.par } t ∧ acksEnd s t ∧ ∀ n, (ndOf t n).joined = (ndOf s n).joined
theorem lossFrames : Frame lossFrame where
  carriers h := by
    have hq := h.1
    refine ⟨?_, acksEnds.carriers h, fun n => ?_⟩
    · unfold quiet at *
      rw [hq]
    · unfold quiet at hq
      rw [hq]
      rfl
  trans := fun ⟨h, ha, hj⟩ ⟨k, ka, kj⟩ => by
    refine ⟨?_, acksEnds.trans ha ka, fun n => (kj n).trans (hj n)⟩
    unfold quiet at *
    rw [k, h]
section
variable {s t : State} (h : lossFrame s t)
include h
theorem lossFrame.brs : t.brs = s.brs := by obtain ⟨h, -⟩ := h; unfold quiet at h; rw [h]
theorem lossFrame.net : t.net = s.net := by obtain ⟨h, -⟩ := h; unfold quiet at h; rw [h]
theorem lossFrame.brCnt : t.brCnt = s.brCnt := by obtain ⟨h, -⟩ := h; unfold quiet at h; rw [h]
end

theorem lossFrame_modNdc (s : State) (n : Nat) (f : NodeCnt → NodeCnt) : lossFrame s (modNdc s n f) := ⟨rfl, acksEnd_of_par rfl, fun _ => rfl⟩
theorem lossFrame_modNd (s : State) (n : Nat) (f : Node → Node) (hf : ∀ x : Node, (f x).joined = x.joined := by exact fun _ => rfl) : lossFrame s (modNd s n f) := by
  refine ⟨rfl, acksEnd_of_par rfl, fun k => ?_⟩
  by_cases hk : k = n
  · subst hk
    rw [ndOf_modNd, hf]
  · rw [ndOf_modNd_other _ _ hk]
theorem lossFrame_stepModFail (s : State) (n : Nat) : lossFrame s (stepModFail s n) := by
  obtain ⟨hq, ha⟩ := acksEnd_stepModFail s n
  refine ⟨?_, ha, fun k => by rw [ndOf_of_nodes (nodes_stepModFail s n)]⟩
  unfold quiet at *
  rw [hq]
theorem lossFrame_xferAbandon (s : State) (x : Xfer) (ev : Bool) : lossFrame s (xferAbandon s x ev) := by
  unfold xferAbandon
  extract_lets n s1 pl
  have h1 : lossFrame s s1 := lossFrame_modNdc s n _
  clear_value s1
  have raised (t : State) (c : Nat) : lossFrame t (if ev then raise t c n pl else t) := lossFrames.cond ev (fun u => lossFrames.event u c n pl) t
  split
  · exact lossFrames.trans (lossFrames.trans h1 (lossFrame_modNd s1 n _)) (raised _ _)
  · have h2 := lossFrames.trans h1 (raised s1 0x310B)
    split
    · exact lossFrames.trans (lossFrames.trans h2 (lossFrame_modNd _ n _)) (lossFrame_stepModFail _ n)
    · exact lossFrames.ite (lossFrames.trans h2 (lossFrames.waits _ _ _ _)) h2

/-- A node whose admission is dropped; one that keeps its placement is lost (R69, R106). -/
def nodeGone (keep : Bool) (d : Node) : Node :=
  { d with admitted := false, integrated := false, lost := d.lost || keep, asg := none, asgPrev := none, asgBegun := false,
           descDue := false, descPart := [], descRetry := none, viol := 0, noFrame := 0, withdraw := 0, sumDelta := 0, nDelta := 0,
           admitDue := false, imgRetry := false }
theorem nodeDrop_eq (s : State) (n : Nat) : nodeDrop s n = if (ndOf s n).joined then
    ndItem (modNd (stepModFail s n) n (nodeGone ((npOf s n).isSome && !hasJoinSlot s n))) n else s := rfl
section
variable (s : State) (n : Nat)
theorem lossFrame_nodeDrop : lossFrame s (nodeDrop s n) := by
  rw [nodeDrop_eq]
  exact lossFrames.ite (lossFrames.trans (lossFrames.trans (lossFrame_stepModFail s n) (lossFrame_modNd _ n _)) (lossFrames.item _ _)) (lossFrames.refl s)
theorem ndCnt_nodeDrop : (nodeDrop s n).ndCnt = s.ndCnt := by
  rw [nodeDrop_eq]
  split
  · exact ndCnt_stepModFail s n
  · rfl
theorem ndOf_nodeDrop_other {k : Nat} (h : k ≠ n) : ndOf (nodeDrop s n) k = ndOf s k := by
  rw [nodeDrop_eq]
  split
  · rw [ndOf_ndItem, ndOf_modNd_other _ _ h, ndOf_of_nodes (nodes_stepModFail s n)]
  · rfl
variable {s n}
theorem ndOf_nodeDrop (h : (ndOf s n).joined = true) : ∃ keep, ndOf (nodeDrop s n) n = nodeGone keep (ndOf s n) := by
  rw [nodeDrop_eq, if_pos h]
  exact ⟨_, by rw [ndOf_ndItem, ndOf_modNd, ndOf_of_nodes (nodes_stepModFail s n)]⟩
end

/-- The nodes of a branch dropped. -/
def nodesDropped (s : State) (b : Nat) : State := forEach (List.range 4) (fun t i => nodeDrop t (4 * b + i)) s
theorem lossFrame_nodesDropped (s : State) (b : Nat) : lossFrame s (nodesDropped s b) := lossFrames.loop _ (fun t i => lossFrame_nodeDrop t (4 * b + i)) s
/-- Every node of the branch that has joined is dropped. -/
theorem ndOf_nodesDropped {s : State} {b i : Nat} (hi : i < 4) (hj : (ndOf s (4 * b + i)).joined = true) :
    (ndOf (nodesDropped s b) (4 * b + i)).admitted = false ∧ (ndOf (nodesDropped s b) (4 * b + i)).asg = none := by
  refine forEach_turn (P := fun t => (ndOf t (4 * b + i)).joined = true)
    (Q := fun t => (ndOf t (4 * b + i)).admitted = false ∧ (ndOf t (4 * b + i)).asg = none) (x := i) List.nodup_range (List.mem_range.mpr hi) (fun t ht => ?_) (fun t y _ ht => ?_)
    (fun t y hy ht => ?_) hj
  · obtain ⟨keep, hg⟩ := ndOf_nodeDrop ht
    rw [hg]
    exact ⟨rfl, rfl⟩
  · exact ((lossFrame_nodeDrop t (4 * b + y)).2.2 _).trans ht
  · rw [ndOf_nodeDrop_other t _ (by omega)]
    exact ht

/-! ### A branch that is cut (R92, R142) -/

/-- A branch as a cut leaves it. -/
def branchGone (now : Nat) (r : Branch) : Branch :=
  { r with brpwr := false, markers := false, markFrom := none, resume := false, cut := true, cutT := now, readmit := false, xfer := none, retry := none,
           xfers := [], rxBuf := [], held := [], eowNow := false, eowNodes := [], eowPast := [], rejoin := [], joinAck := [],
           rejoinSent := [], runOn := none }
/-- The branch itself cut and counted. -/
def lineCut (s : State) (b now : Nat) : State :=
  { modBrc (modBr s b (branchGone now)) b (fun c => { c with cut := satInc 16 c.cut }) with net.toPower := s.net.toPower.filter (· != b) }

theorem ndOf_lineCut (s : State) (b now n : Nat) : ndOf (lineCut s b now) n = ndOf s n := rfl
theorem ndOf_brItem (s : State) (n : Nat) : ndOf (brItem s) n = ndOf s n := rfl

theorem branchCut_cut {s : State} {b : Nat} (h : (brOf s b).cut = true) : branchCut s b = s := if_pos h
/-- A cut abandons the transfers of the branch, cuts it and drops its nodes. -/
theorem branchCut_open {s : State} {b : Nat} (h : (brOf s b).cut = false) :
    ∃ u, lossFrame s u ∧ branchCut s b = brItem (nodesDropped (lineCut u b s.clk.now) b) := by
  unfold branchCut
  rw [if_neg (by simp [h])]
  extract_lets br reads others s1
  exact ⟨s1, lossFrames.loop _ (fun t x => lossFrame_xferAbandon t x false) s, rfl⟩

/-- What a cut of a branch leaves. -/
structure CutDone (s : State) (b : Nat) (t : State) : Prop where
  frame : quiet { s with brs := t.brs, brCnt := t.brCnt, nodes := t.nodes, ndCnt := t.ndCnt, net.toPower := s.net.toPower.filter (· != b), par := t.par } t
  acks : acksEnd s t
  branch : brOf t b = branchGone s.clk.now (brOf s b)
  others : brsBut s t b
  count : (brcOf t b).cut = satInc 16 (brcOf s b).cut
  counts : ∀ k, k ≠ b → brcOf t k = brcOf s k
  nodes : ∀ i < 4, (ndOf s (4 * b + i)).joined = true → (ndOf t (4 * b + i)).admitted = false ∧ (ndOf t (4 * b + i)).asg = none

theorem cutDone_branchCut {s : State} {b : Nat} (h : (brOf s b).cut = false) : CutDone s b (branchCut s b) := by
  obtain ⟨u, hu, he⟩ := branchCut_open h
  have hv := lossFrame_nodesDropped (lineCut u b s.clk.now) b
  have hbrs : (branchCut s b).brs = tabMod {} s.brs b (branchGone s.clk.now) := by rw [he, brItem, sendItem_brs, hv.brs, ← hu.brs]; rfl
  have hcnt : (branchCut s b).brCnt = tabMod {} s.brCnt b (fun c => { c with cut := satInc 16 c.cut }) := by rw [he, brItem, sendItem_brCnt, hv.brCnt, ← hu.brCnt]; rfl
  have hnet : (branchCut s b).net.toPower = s.net.toPower.filter (· != b) := by rw [he, brItem, sendItem_net, hv.net, ← hu.net]; rfl
  refine ⟨?_, ?_, ?_, fun k hk => ?_, ?_, fun k hk => ?_, fun i hi hj => ?_⟩
  · have hq := (cutKeeps_branchCut s b).1.1.1
    rw [hnet] at hq
    exact hq
  · rw [he]
    exact acksEnds.trans hu.2.1 (acksEnds.trans (acksEnd_of_par (t := lineCut u b s.clk.now) rfl) (acksEnds.trans hv.2.1 (acksEnds.item _ _)))
  · rw [brOf, hbrs]
    exact tabGet_tabMod_same _ _ _ _
  · rw [brOf, hbrs]
    exact tabGet_tabMod_other _ _ _ hk
  · rw [brcOf, hcnt, tabGet_tabMod_same]
    rfl
  · rw [brcOf, hcnt]
    exact tabGet_tabMod_other _ _ _ hk
  · rw [he, ndOf_brItem]
    refine ndOf_nodesDropped hi ?_
    rw [ndOf_lineCut, hu.2.2, hj]

/-- Carriers beside a cut change nothing of what it leaves. -/
theorem CutDone.along {s v u t : State} {b : Nat} (hs : quiet s v) (h : CutDone v b u) (ht : quiet u t) : CutDone s b t := by
  obtain ⟨hf, ha, hb, ho, hc, hk, hn⟩ := h
  have hp := acksEnds.trans (acksEnd_of_par (par_of_quiet hs)) (acksEnds.trans ha (acksEnd_of_par (par_of_quiet ht)))
  unfold quiet at hs ht hf
  refine ⟨?_, hp, ?_, ?_, ?_, ?_, ?_⟩
  · unfold quiet
    rw [ht, hf, hs]
  all_goals
    rw [hs] at hb ho hc hk hn
    rw [ht]
    assumption

/-! ### The role in a pair -/

/-- Which of the pair leads and how far its standby is are as they were. -/
def roleKept (s t : State) : Prop := t.pair.active = s.pair.active ∧ t.pair.lstate = s.pair.lstate
theorem roleKept_of_pair {s t : State} (h : t.pair = s.pair) : roleKept s t := by
  unfold roleKept
  rw [h]
  exact ⟨rfl, rfl⟩
theorem roleSteps : Steps roleKept where
  refl _ := ⟨rfl, rfl⟩
  trans := fun ⟨ha, hl⟩ ⟨ka, kl⟩ => ⟨ka.trans ha, kl.trans hl⟩
theorem roleKept_itemAdd (s : State) (b : ItemBody) (bolt : Bool) : (itemAdd s b bolt).active = s.pair.active ∧ (itemAdd s b bolt).lstate = s.pair.lstate := by
  simp only [itemAdd]
  split <;> exact ⟨rfl, rfl⟩
theorem roleKept_sendItem (s : State) (b : ItemBody) : roleKept s (sendItem s b) := by
  unfold roleKept sendItem
  split
  · exact roleKept_itemAdd s b false
  · exact ⟨rfl, rfl⟩
theorem roleKept_produce (s : State) (m : Nat) (f : Flight) (st : Nat) (pl : Bytes) : roleKept s (produce s m f st pl) := by
  refine roleSteps.trans (t := cplItem (modMb s m (cplNote (cplMake s f st pl))) m (cplMake s f st pl)) ?_ (roleKept_of_pair (pair_writeCpl _ m _))
  unfold cplItem
  split
  · exact roleKept_sendItem _ _
  · exact ⟨rfl, rfl⟩
theorem roleKept_taken {s : State} {e : CmdEntry} (op : Nat) (h : entryTakes s e = true) : roleKept s (taken s e op) := by
  unfold roleKept
  rw [taken_pair op h]
  split
  · exact roleKept_itemAdd s _ false
  · exact ⟨rfl, rfl⟩
theorem roleKept.told {s t : State} (h : roleKept s t) : (mirroring t && inSync t) = (mirroring s && inSync s) := by
  unfold mirroring inSync
  rw [h.1, h.2]

/-! ### A branch that is re-admitted (R92, R142) -/

/-- A node unmuted. -/
def unmuted (d : Node) : Node := { d with muted := false, muteDue := false }
theorem unmuted_of_heard {d : Node} (hm : d.muted = false) (hd : d.muteDue = false) : unmuted d = d := by
  cases d
  simp_all [unmuted]
/-- The turn of the re-admission for a node. -/
def unmuteTurn (s : State) (n : Nat) : State :=
  when ((ndOf s n).joined || (ndOf s n).muted || (ndOf s n).muteDue) (fun u => ndItem (modNd u n unmuted) n) s

/-- Outside nodes and the carriers nothing has changed, and the role is kept. -/
def nodeFrame (s t : State) : Prop := quiet { s with nodes := t.nodes } t ∧ roleKept s t
theorem nodeSteps : Steps nodeFrame where
  refl s := ⟨rfl, roleSteps.refl s⟩
  trans := fun ⟨h, hr⟩ ⟨k, kr⟩ => by
    refine ⟨?_, roleSteps.trans hr kr⟩
    unfold quiet at *
    rw [k, h]
theorem nodeFrame_unmute (s : State) (n : Nat) : nodeFrame s (ndItem (modNd s n unmuted) n) := ⟨rfl, roleKept_sendItem (modNd s n unmuted) _⟩
theorem nodeFrame_unmuteTurn (s : State) (n : Nat) : nodeFrame s (unmuteTurn s n) := nodeSteps.cond _ (fun u => nodeFrame_unmute u n) s
theorem ndOf_unmuteTurn (s : State) (n k : Nat) : ndOf (unmuteTurn s n) k = if k = n then unmuted (ndOf s k) else ndOf s k := by
  unfold unmuteTurn
  cases hc : (ndOf s n).joined || (ndOf s n).muted || (ndOf s n).muteDue
  · rw [when_false]
    split
    · next hk =>
      subst hk
      simp only [Bool.or_eq_false_iff] at hc
      rw [unmuted_of_heard hc.1.2 hc.2]
    · rfl
  · rw [when_true, ndOf_ndItem]
    split
    · next hk =>
      subst hk
      exact ndOf_modNd _ _ _
    · next hk => exact ndOf_modNd_other _ _ hk

/-- The nodes of a branch unmuted. -/
def nodesUnmuted (s : State) (b : Nat) : State := forEach (List.range 4) (fun t i => unmuteTurn t (4 * b + i)) s
theorem nodeFrame_nodesUnmuted (s : State) (b : Nat) : nodeFrame s (nodesUnmuted s b) := nodeSteps.loop _ (fun t i => nodeFrame_unmuteTurn t (4 * b + i)) s
theorem ndOf_nodesUnmuted (s : State) (b n : Nat) : ndOf (nodesUnmuted s b) n = if n / 4 = b then unmuted (ndOf s n) else ndOf s n := by
  show ndOf (unmuteTurn (unmuteTurn (unmuteTurn (unmuteTurn s (4 * b + 0)) (4 * b + 1)) (4 * b + 2)) (4 * b + 3)) n = _
  simp only [ndOf_unmuteTurn]
  by_cases h : n / 4 = b
  · rw [if_pos h]
    obtain h | h | h | h : n = 4 * b + 0 ∨ n = 4 * b + 1 ∨ n = 4 * b + 2 ∨ n = 4 * b + 3 := by omega
    all_goals simp [h]
  · rw [if_neg h, if_neg (by omega), if_neg (by omega), if_neg (by omega), if_neg (by omega)]

/-- A branch powered again, where it is enabled. -/
def branchBack (en : Bool) (r : Branch) : Branch :=
  { r with cut := false, readmit := false, brpwr := en, resume := en, eowNow := false, eowNodes := [], eowPast := [] }
/-- The branch powered and its nodes unmuted, before the partner is told. -/
def lineBack (s : State) (b : Nat) : State := nodesUnmuted (modBr s b (branchBack (brEnabled s b))) b
theorem branchReadmit_eq (s : State) (b : Nat) : branchReadmit s b =
    let q := sendWait (lineBack s b) (.branches (brMask (lineBack s b) (·.brpwr)) (brMask (lineBack s b) (·.cut))) false
    modBr q.1 b (fun r => { r with resumeItem := q.2 }) := rfl

/-- Outside branches, nodes and the carriers nothing has changed. -/
def branchFrame (s t : State) : Prop := quiet { s with brs := t.brs, nodes := t.nodes } t
theorem branchFrame.trans {s t u : State} (h : branchFrame s t) (k : branchFrame t u) : branchFrame s u := by
  unfold branchFrame quiet at *
  rw [k, h]
theorem branchFrame_modBr (s : State) (b : Nat) (f : Branch → Branch) : branchFrame s (modBr s b f) := rfl
theorem branchFrame_sendWait (s : State) (i : ItemBody) (bolt : Bool) : branchFrame s (sendWait s i bolt).1 := rfl
theorem nodeFrame.branch {s t : State} (h : nodeFrame s t) : branchFrame s t := by
  obtain ⟨h, -⟩ := h
  unfold branchFrame quiet at *
  rw [h]
theorem isSome_sendWait (s : State) (i : ItemBody) (bolt : Bool) : (sendWait s i bolt).2.isSome = (mirroring s && inSync s) := by
  unfold sendWait
  cases mirroring s && inSync s <;> rfl

/-- What a re-admission of a branch leaves. -/
structure Readmitted (s : State) (b : Nat) (t : State) : Prop where
  frame : branchFrame s t
  branch : brOf t b = { branchBack (brEnabled s b) (brOf s b) with resumeItem := (brOf t b).resumeItem }
  others : brsBut s t b
  item : (brOf t b).resumeItem.isSome = (mirroring s && inSync s)
  nodes : ∀ n, ndOf t n = if n / 4 = b then unmuted (ndOf s n) else ndOf s n

theorem readmitted_branchReadmit (s : State) (b : Nat) : Readmitted s b (branchReadmit s b) := by
  rw [branchReadmit_eq]
  have hl := nodeFrame_nodesUnmuted (modBr s b (branchBack (brEnabled s b))) b
  have hn := ndOf_nodesUnmuted (modBr s b (branchBack (brEnabled s b))) b
  change nodeFrame _ (lineBack s b) at hl
  change ∀ n, ndOf (lineBack s b) n = _ at hn
  have hb : (lineBack s b).brs = (modBr s b (branchBack (brEnabled s b))).brs := by
    have hq := hl.1
    unfold quiet at hq
    rw [hq]
  generalize lineBack s b = u at *
  extract_lets q
  have hbr (k : Nat) : brOf q.1 k = brOf (modBr s b (branchBack (brEnabled s b))) k := brOf_of_brs (t := q.1) hb k
  refine ⟨?_, ?_, fun k hk => ?_, ?_, hn⟩
  · exact ((branchFrame_modBr s b _).trans hl.branch).trans ((branchFrame_sendWait u _ false).trans (branchFrame_modBr _ b _))
  · rw [brOf_modBr, hbr, brOf_modBr]
  · rw [brOf_modBr_other _ _ hk, hbr, brOf_modBr_other _ _ hk]
  · rw [brOf_modBr]
    calc q.2.isSome = (mirroring u && inSync u) := isSome_sendWait u (.branches (brMask u (·.brpwr)) (brMask u (·.cut))) false
      _ = (mirroring s && inSync s) := hl.2.told
/-- Carriers beside a re-admission that keep the role before it change nothing of what it leaves. -/
theorem Readmitted.along {s v u t : State} {b : Nat} (hs : quiet s v) (hr : roleKept s v) (h : Readmitted v b u) (ht : quiet u t) : Readmitted s b t := by
  obtain ⟨hf, hb, ho, hi, hn⟩ := h
  rw [hr.told] at hi
  unfold branchFrame quiet at *
  refine ⟨?_, ?_, ?_, ?_, ?_⟩
  · unfold branchFrame quiet
    rw [ht, hf, hs]
  all_goals
    rw [hs] at hb ho hn
    rw [ht]
    assumption

end Sys2Proof.Machine
end

section
/-! The commands that cut and re-admit a branch (R92, R392). -/
open Sys2Proof Sys2Proof.Machine
namespace Sys2Proof.Machine

/-! ### Commands whose effect is framed by what it keeps -/

section
variable {i : Instr} {s u v : State} {e : CmdEntry} {op : Nat} {body : State → Nat → Bytes → State × CmdRes} {P : State → Prop}

/-- A command that is taken at once and completes: beside its effect carriers alone change. -/
theorem completes_quiet {pl : Bytes} (hi : exec i s = finishD s (command s e op body)) (h : takesNow s e = true)
    (hb : body (taken s e op) e.master e.payload = (u, .fin 0 pl)) (hv : quiet v u) (hP : ∀ t, quiet u t → P t)
    (hp : v.pending = s.pending := by rfl) (hd : v.ddr = s.ddr := by rfl) (hm : v.dmp = s.dmp := by rfl) (hc : v.clk = s.clk := by rfl)
    (hop : opcodes.contains op = true := by decide) : completes i s e op pl P := by
  obtain ⟨ha, hq⟩ := command_fin op body h hb hop
  have hps : ps u = ps s := by
    unfold quiet at hv
    rw [hv, ps, ps, hc]
  refine ⟨_, hi.trans (finishD_quiet (hv.trans hq) hp hd hm), ?_, hP _ hq⟩
  unfold answered cplOf at *
  rw [← hps]
  exact ha
/-- A command that is taken at once and waits: beside its effect carriers alone change. -/
theorem completesLater_quiet {w : Wait} (hi : exec i s = finishD s (command s e op body)) (h : takesNow s e = true)
    (hb : body (taken s e op) e.master e.payload = (u, .wait w)) (hf : u.mbs = (taken s e op).mbs) (hv : quiet v u) (hP : ∀ t, quiet u t → P t)
    (hp : v.pending = s.pending := by rfl) (hd : v.ddr = s.ddr := by rfl) (hm : v.dmp = s.dmp := by rfl)
    (hop : opcodes.contains op = true := by decide) : completesLater i s e w P := by
  have hu : (mbOf u e.master).flights = [{ entry := e, opcode := op, wait := none }] := by
    rw [mbOf, hf]
    exact taken_flights op (takesNow_entry h)
  obtain ⟨ha, hq⟩ := command_wait op body h hb hu hop
  exact ⟨_, hi.trans (finishD_quiet (hv.trans hq) hp hd hm), ha, hP _ hq⟩
end

/-! ### BRANCH_CUT and BRANCH_READMIT -/

section
variable {s : State} {m b : Nat} (hb : b < 16) (hr : hasRights s m 2 rWRITE = true)
include hb hr
theorem checked_branch (k : State × CmdRes) : checked s (netChecks s m (le 4 b) 0xF) k = k := by
  have hw : onlyBits 0xF (word (le 4 b) 0) = true := by rw [word_le4 b (by omega)]; exact onlyBits_low 4 b hb
  simp [checked, firstFail, netChecks, hw, hr]
theorem branchCutRun_eq : branchCutRun s m (le 4 b) = (branchCut s b, .fin 0 []) := by
  rw [branchCutRun, checked_branch hb hr, word_le4 b (by omega), Nat.mod_eq_of_lt hb]
theorem branchReadmitRun_eq : branchReadmitRun s m (le 4 b) =
    if !(brOf s b).cut then (s, .fin 0 [])
    else if s.clk.now < (brOf s b).cutT + 100 * millisecond then
      (modBr s b (fun r => { r with readmit := true }), if brEnabled s b then .wait (.readmit b) else .fin 0 [])
    else (branchReadmit s b, if brEnabled s b then .wait (.readmit b) else .fin 0 []) := by
  rw [branchReadmitRun, checked_branch hb hr, word_le4 b (by omega), Nat.mod_eq_of_lt hb]
end

section
variable {s : State} {e : CmdEntry} (op : Nat)
@[simp] theorem brOf_taken (b : Nat) : brOf (taken s e op) b = brOf s b := by rw [show taken s e op = _ from quiet_taken s e op]; rfl
@[simp] theorem clk_taken : (taken s e op).clk = s.clk := by rw [show taken s e op = _ from quiet_taken s e op]
@[simp] theorem brEnabled_taken (b : Nat) : brEnabled (taken s e op) b = brEnabled s b := by rw [show taken s e op = _ from quiet_taken s e op]; rfl
end

section
variable {s : State} {e : CmdEntry} {b : Nat} (hpl : e.payload = le 4 b) (hb : b < 16) (hr : hasRights s e.master 2 rWRITE = true)
include hpl hb hr
theorem branchCutRun_taken : branchCutRun (taken s e 0x0404) e.master e.payload = (branchCut (taken s e 0x0404) b, .fin 0 []) := by
  rw [hpl]
  exact branchCutRun_eq hb (by simpa using hr)
theorem branchReadmitRun_open (hc : (brOf s b).cut = false) : branchReadmitRun (taken s e 0x0405) e.master e.payload = (taken s e 0x0405, .fin 0 []) := by
  rw [hpl, branchReadmitRun_eq hb (by simpa using hr)]
  simp [hc]
theorem branchReadmitRun_early (hc : (brOf s b).cut = true) (ht : s.clk.now < (brOf s b).cutT + 100 * millisecond) :
    branchReadmitRun (taken s e 0x0405) e.master e.payload =
      (modBr (taken s e 0x0405) b (fun r => { r with readmit := true }), if brEnabled s b then .wait (.readmit b) else .fin 0 []) := by
  rw [hpl, branchReadmitRun_eq hb (by simpa using hr)]
  simp [hc, ht]
theorem branchReadmitRun_late (hc : (brOf s b).cut = true) (ht : (brOf s b).cutT + 100 * millisecond ≤ s.clk.now) :
    branchReadmitRun (taken s e 0x0405) e.master e.payload =
      (branchReadmit (taken s e 0x0405) b, if brEnabled s b then .wait (.readmit b) else .fin 0 []) := by
  rw [hpl, branchReadmitRun_eq hb (by simpa using hr)]
  simp [hc, Nat.not_lt.mpr ht]
end

section
variable {s : State} {e : CmdEntry} {b : Nat} (h : takesNow s e = true) (hpl : e.payload = le 4 b) (hb : b < 16) (hr : hasRights s e.master 2 rWRITE = true)

theorem quiet_modBr {s t : State} (h : quiet s t) (b : Nat) (f : Branch → Branch) : quiet (modBr s b f) (modBr t b f) := by
  unfold quiet at *
  rw [h]
  rfl
theorem mbs_unmuteTurn (s : State) (n : Nat) : (unmuteTurn s n).mbs = s.mbs := by
  unfold unmuteTurn
  cases (ndOf s n).joined || (ndOf s n).muted || (ndOf s n).muteDue <;> rfl
theorem mbs_nodesUnmuted (s : State) (b : Nat) : (nodesUnmuted s b).mbs = s.mbs := forEach_leaves State.mbs fun t i _ => mbs_unmuteTurn t (4 * b + i)
theorem mbs_branchReadmit (s : State) (b : Nat) : (branchReadmit s b).mbs = s.mbs := by
  rw [branchReadmit_eq, modBr_mbs, sendWait_mbs, lineBack, mbs_nodesUnmuted, modBr_mbs]

include h in
theorem readmitted_taken : Readmitted s b (branchReadmit (taken s e 0x0405) b) :=
  .along (quiet_taken s e 0x0405) (roleKept_taken 0x0405 (takesNow_entry h)) (readmitted_branchReadmit _ b) (.refl _)

include h hpl hb hr
theorem branchCut_cut_completes (hc : (brOf s b).cut = true) : completes (.branchCut e) s e 0x0404 [] (quiet s) := by
  refine completes_read (.inl rfl) h ?_
  rw [branchCutRun_taken hpl hb hr, branchCut_cut (by simpa using hc)]
theorem branchCut_open_completes (hc : (brOf s b).cut = false) : completes (.branchCut e) s e 0x0404 [] (CutDone s b) := by
  have hd : CutDone (taken s e 0x0404) b (branchCut (taken s e 0x0404) b) := cutDone_branchCut (by simpa using hc)
  have hs := CutDone.along (quiet_taken s e 0x0404) hd (.refl _)
  exact completes_quiet rfl h (branchCutRun_taken hpl hb hr) hs.frame fun t ht => hs.along (.refl s) ht
theorem branchReadmit_open_completes (hc : (brOf s b).cut = false) : completes (.branchReadmit e) s e 0x0405 [] (quiet s) :=
  completes_read (.inl rfl) h (branchReadmitRun_open hpl hb hr hc)
theorem branchReadmit_early_waits (hc : (brOf s b).cut = true) (he : brEnabled s b = true) (ht : s.clk.now < (brOf s b).cutT + 100 * millisecond) :
    completesLater (.branchReadmit e) s e (.readmit b) (quiet (modBr s b (fun r => { r with readmit := true }))) := by
  have hq := quiet_modBr (quiet_taken s e 0x0405) b (fun r => { r with readmit := true })
  have hx := branchReadmitRun_early hpl hb hr hc ht
  rw [if_pos he] at hx
  exact completesLater_quiet rfl h hx rfl hq fun t ht => hq.trans ht
theorem branchReadmit_late_waits (hc : (brOf s b).cut = true) (he : brEnabled s b = true) (ht : (brOf s b).cutT + 100 * millisecond ≤ s.clk.now) :
    completesLater (.branchReadmit e) s e (.readmit b) (Readmitted s b) := by
  have hd := readmitted_taken (b := b) h
  have hx := branchReadmitRun_late hpl hb hr hc ht
  rw [if_pos he] at hx
  exact completesLater_quiet rfl h hx (mbs_branchReadmit _ b) hd.frame fun t ht => hd.along (.refl s) (roleSteps.refl s) ht
theorem branchReadmit_disabled_completes (hc : (brOf s b).cut = true) (he : brEnabled s b = false) : completes (.branchReadmit e) s e 0x0405 [] (fun t =>
    branchFrame s t ∧ brsBut s t b ∧ (brOf t b).brpwr = (if s.clk.now < (brOf s b).cutT + 100 * millisecond then (brOf s b).brpwr else false)) := by
  by_cases ht : s.clk.now < (brOf s b).cutT + 100 * millisecond
  · have hq := quiet_modBr (quiet_taken s e 0x0405) b (fun r => { r with readmit := true })
    have hx := branchReadmitRun_early hpl hb hr hc ht
    rw [he, if_neg (by simp)] at hx
    refine completes_quiet rfl h hx hq fun t hu => ?_
    have hs := hq.trans hu
    have hbr : t.brs = (modBr s b (fun r => { r with readmit := true })).brs := by
      unfold quiet at hs
      rw [hs]
    refine ⟨?_, fun k hk => ?_, ?_⟩
    · unfold branchFrame quiet at *
      rw [hs]
      rfl
    · rw [brOf_of_brs hbr, brOf_modBr_other _ _ hk]
    · rw [brOf_of_brs hbr, brOf_modBr, if_pos ht]
  · have hd := readmitted_taken (b := b) h
    have hx := branchReadmitRun_late hpl hb hr hc (Nat.not_lt.mp ht)
    rw [he, if_neg (by simp)] at hx
    refine completes_quiet rfl h hx hd.frame fun t hu => ?_
    obtain ⟨hf, hbr, ho, -, -⟩ := hd.along (.refl s) (roleSteps.refl s) hu
    exact ⟨hf, ho, by rw [hbr, he, if_neg ht]; rfl⟩
end

end Sys2Proof.Machine

/-- Settles O12: a cut by what it leaves of the branch (`cutDone_branchCut`), a re-admission by whether the 100 ms have ended, and then by what it
brings back (`readmitted_branchReadmit`). -/
theorem branchCommands : Obligations.BranchCommands := by
  intro e s b h hpl hb hr
  refine ⟨branchCut_cut_completes h hpl hb hr, fun hc => ?_, branchReadmit_open_completes h hpl hb hr, branchReadmit_early_waits h hpl hb hr, fun hc he ht => ?_,
    branchReadmit_disabled_completes h hpl hb hr⟩
  · obtain ⟨t, hx, ha, hf, ⟨hp, hn⟩, hbr, ho, hcnt, hk, hnd⟩ := branchCut_open_completes h hpl hb hr hc
    rw [hp] at hf
    refine ⟨t, hx, ha, hf, hn, ?_, ?_, ?_, ?_, ?_, hcnt, ho, hk, hnd⟩
    all_goals rw [hbr]; rfl
  · obtain ⟨t, hx, ha, hf, hbr, ho, hi, hn⟩ := branchReadmit_late_waits h hpl hb hr hc he ht
    rw [he] at hbr
    exact ⟨t, hx, ha, hf, hbr, ho, hi, hn⟩
end

section
/-! The guardian (R92, R137 to R144): muting, loss, energy outside windows, the end of a cut's 100 ms. -/
open Sys2Proof Sys2Proof.Machine
namespace Sys2Proof.Machine

/-! ### Muting (R139) -/

/-- The number of the item that a mute waits for (R478). -/
def muteTold (s : State) : Option (BitVec 32) := if mirroring s = true ∧ inSync s = true then some (s.pair.iseqSent + 1) else none
theorem snd_sendWait (s : State) (i : ItemBody) (bolt : Bool) : (sendWait s i bolt).2 = muteTold s := by simp only [sendWait, muteTold, Bool.and_eq_true]
/-- The node is to be muted, and its mute is counted. -/
def muteNoted (s : State) (n : Nat) : State :=
  modNdc (modNd s n (fun x => { x with muteDue := true, muteItem := muteTold s })) n (fun c => { c with mute := satInc 16 c.mute })
/-- A violation that mutes: the fourth in the bolt of an admitted node that is not muted yet. -/
abbrev mutes (s : State) (n : Nat) : Prop :=
  sending s = true ∧ (ndOf s n).admitted = true ∧ 4 ≤ (ndOf s n).viol ∧ (ndOf s n).muted = false ∧ (ndOf s n).muteDue = false

section
variable {s : State} {n : NodeNo}
theorem exec_nodeMuted (s : State) (n : NodeNo) : ∃ i, exec (.nodeMuted n) s = finishD s
    (if mutes s n then raise { muteNoted s n with pair := (sendWait s i false).1.pair } 0x3107 n [BitVec.ofNat 8 (n.val / 4)] else s) := by
  refine ⟨.network n (ndOf s n).admitted true (ndOf s n).integrated (ndOf s n).lost (ndOf s n).tRt (ndOf s n).desc (ndOf s n).asg, ?_⟩
  rw [muteNoted, ← snd_sendWait]
  rfl
theorem nodeMuted_mutes (h : mutes s n) : goes (.nodeMuted n) s (fun t => raised s t 0x3107 n [BitVec.ofNat 8 (n.val / 4)] ∧ quiet (muteNoted s n) t) := by
  obtain ⟨i, he⟩ := exec_nodeMuted s n
  rw [if_pos h] at he
  exact ⟨_, he, rfl, rfl⟩
theorem nodeMuted_idle (h : ¬ mutes s n) : exec (.nodeMuted n) s = .next s := by
  obtain ⟨i, he⟩ := exec_nodeMuted s n
  rw [he, if_neg h]
  rfl
end

/-! ### Loss (R144) -/

/-- A node is lost: it is admitted, and no frame of it was accepted in 32 due picks. -/
abbrev loses (s : State) (n : Nat) : Prop := sending s = true ∧ (ndOf s n).admitted = true ∧ 32 ≤ (ndOf s n).noFrame
/-- The node dropped, with four withdrawals due, and whether the rejoin table of this bolt can still go out (R549). -/
def lossNoted (s : State) (n : Nat) : State :=
  modBr (modNd (nodeDrop s n) n (fun x => { x with withdraw := 4 })) (n / 4) (fun r => { r with tabSent := r.tabSent || tableGone s (n / 4) })

/-- An event stays in the log behind the next one. -/
theorem logged_raise_raise (s : State) (c i d j : Nat) (pl ql : Bytes) (f : Node → Node) (n : Nat) : logged (raise (modNd (raise s c i pl) n f) d j ql) c i := by
  refine ⟨{ lseq := s.log.next, code := c, inst := i, pstamp := ps s, payload := pl, tstamp := s.clk.now,
            t0 := s.ptp.t0, h0s := s.ptp.h0s, h0ns := s.ptp.h0ns, rho := s.ptp.rho }, ?_, rfl, rfl⟩
  show _ ∈ List.take 524288 (_ :: List.take 524288 (_ :: _))
  rw [List.take_cons (by decide), List.take_cons (by decide), List.take_cons (by decide)]
  exact List.mem_cons_of_mem _ List.mem_cons_self

/-- REJOIN_BLOCKED notes its node and raises an event, or nothing (R106). -/
theorem rejoinBlock_cases (s : State) (n : Nat) : rejoinBlock s n = s ∨
    rejoinBlock s n = raise (modNd s n (fun d => { d with blocked := true })) 0x3105 n [BitVec.ofNat 8 (n / 4)] := by
  unfold rejoinBlock
  split
  · exact .inr rfl
  · exact .inl rfl

/-- Nothing but carriers has changed, and whether a node is blocked. -/
def blockedOnly (s t : State) (n : Nat) : Prop := quiet { s with nodes := t.nodes } t ∧ nodesBut s t n ∧ ∃ x, ndOf t n = { ndOf s n with blocked := x }
theorem blockedOnly_rejoinBlock (s : State) (c i : Nat) (pl : Bytes) (n : Nat) : blockedOnly s (rejoinBlock (raise s c i pl) n) n := by
  rcases rejoinBlock_cases (raise s c i pl) n with h | h
  · rw [h]
    exact ⟨rfl, fun _ _ => rfl, _, rfl⟩
  · rw [h]
    refine ⟨rfl, fun k hk => ?_, true, ?_⟩
    · rw [ndOf_raise, ndOf_modNd_other _ _ hk, ndOf_raise]
    · rw [ndOf_raise, ndOf_modNd, ndOf_raise]
theorem logged_rejoinBlock (s : State) (c i : Nat) (pl : Bytes) (n : Nat) : logged (rejoinBlock (raise s c i pl) n) c i := by
  rcases rejoinBlock_cases (raise s c i pl) n with h | h
  · rw [h]
    exact logged_raise s c i pl
  · rw [h]
    exact logged_raise_raise s c i _ _ pl _ _ n

/-- What the loss of a node leaves. -/
structure LossDone (s : State) (n : Nat) (t : State) : Prop where
  frame : quiet { s with nodes := t.nodes, brs := t.brs, par := t.par } t
  acks : acksEnd s t
  others : brsBut s t (n / 4)
  branch : brOf t (n / 4) = { brOf s (n / 4) with tabSent := (brOf s (n / 4)).tabSent || tableGone s (n / 4) }
  nodes : nodesBut s t n
  node : (ndOf t n).admitted = false ∧ (ndOf t n).integrated = false ∧ (ndOf t n).withdraw = 4 ∧ (ndOf t n).asg = none

theorem lossDone_lossNoted {s : State} {n : Nat} (hj : (ndOf s n).joined = true) : LossDone s n (lossNoted s n) := by
  obtain ⟨hd, ha, -⟩ := lossFrame_nodeDrop s n
  rw [ndCnt_nodeDrop] at hd
  have hbr : ∀ k, brOf (modNd (nodeDrop s n) n (fun x => { x with withdraw := 4 })) k = brOf s k := brOf_of_brs (lossFrame_nodeDrop s n).brs
  obtain ⟨keep, hg⟩ := ndOf_nodeDrop hj
  refine ⟨?_, ?_, fun k hk => ?_, ?_, fun k hk => ?_, ?_⟩
  · have hf : branchFrame (nodeDrop s n) (lossNoted s n) := rfl
    have hp : (lossNoted s n).par = (nodeDrop s n).par := rfl
    rw [hp]
    unfold branchFrame quiet at *
    rw [hf, hd]
  · exact acksEnds.trans ha (acksEnd_of_par rfl)
  · rw [lossNoted, brOf_modBr_other _ _ hk, hbr]
  · rw [lossNoted, brOf_modBr, hbr]
  · rw [lossNoted, ndOf_modBr, ndOf_modNd_other _ _ hk, ndOf_nodeDrop_other s n hk]
  · rw [lossNoted, ndOf_modBr, ndOf_modNd, hg]
    exact ⟨rfl, rfl, rfl, rfl⟩
theorem LossDone.along {s u t : State} {n : Nat} (h : LossDone s n u) (hm : blockedOnly u t n) : LossDone s n t := by
  obtain ⟨hf, ha, ho, hb, hn, hd⟩ := h
  obtain ⟨hq, hbut, x, hx⟩ := hm
  have hbr : t.brs = u.brs := by
    unfold quiet at hq
    rw [hq]
  have hp : t.par = u.par := by
    unfold quiet at hq
    rw [hq]
  refine ⟨?_, acksEnds.trans ha (acksEnd_of_par hp), fun k hk => ?_, ?_, fun k hk => (hbut k hk).trans (hn k hk), ?_⟩
  · unfold quiet at *
    rw [hq, hf]
  · rw [brOf_of_brs hbr, ho k hk]
  · rw [brOf_of_brs hbr, hb]
  · rw [hx]
    exact hd

section
variable {s : State} {n : NodeNo}
theorem exec_nodeLost (s : State) (n : NodeNo) : exec (.nodeLost n) s = finishD s
    (if loses s n then rejoinBlock (raise (lossNoted s n) 0x3109 n [BitVec.ofNat 8 (n.val / 4)]) n else s) := rfl
theorem nodeLost_loses (h : loses s n) (hj : (ndOf s n).joined = true) : goes (.nodeLost n) s (fun t => LossDone s n t ∧ logged t 0x3109 n) := by
  have he := exec_nodeLost s n
  rw [if_pos h] at he
  have hd := (lossDone_lossNoted hj).along (blockedOnly_rejoinBlock (lossNoted s n) 0x3109 n [BitVec.ofNat 8 (n.val / 4)] n)
  exact goes_quiet he hd.frame ⟨hd, logged_rejoinBlock _ _ _ _ n⟩
theorem nodeLost_idle (h : ¬ loses s n) : exec (.nodeLost n) s = .next s := by
  rw [exec_nodeLost, if_neg h]
  rfl
end

/-! ### Energy outside windows (R95, R137, R141) -/

theorem mem_foldl_dedup {x : Nat} (xs acc : List Nat) :
    x ∈ xs.foldl (fun a y => if a.contains y then a else a ++ [y]) acc ↔ x ∈ acc ∨ x ∈ xs := by
  induction xs generalizing acc with
  | nil => simp
  | cons y ys ih =>
    rw [List.foldl_cons, ih]
    split
    · next h =>
      have hy : y ∈ acc := List.contains_iff_mem.mp h
      simp only [List.mem_cons]
      constructor
      · rintro (h | h)
        · exact .inl h
        · exact .inr (.inr h)
      · rintro (h | rfl | h)
        · exact .inl h
        · exact .inl hy
        · exact .inr h
    · simp [or_assoc]
/-- A list without its repeats has the members of the list. -/
theorem mem_dedup {x : Nat} {xs : List Nat} : x ∈ dedup xs ↔ x ∈ xs := by
  rw [dedup, mem_foldl_dedup]
  simp

/-- The nodes that a burst is attributed to: the one it continues or names, or every admitted one of the branch (R137). -/
def blamed (s : State) (b : Nat) (node : Option Nat) : List Nat :=
  match node with
  | some n => [n]
  | none => (List.range 4).filterMap (fun t => if (ndOf s (4 * b + t)).admitted then some (4 * b + t) else none)
/-- Energy while the controller listens is noise of a powered branch (R95). -/
def noiseNoted (s : State) (b : Nat) : State := when (s.net.phase = .listening) (fun u => modBr u b (fun r => { r with noise := r.noise || r.brpwr })) s

/-- The energy noted for its branch. -/
def eowLine (s : State) (b : Nat) (node : Option Nat) (rb : Bool) : State :=
  modBr s b (fun r => { r with eowNow := true, eowNodes := dedup (r.eowNodes ++ blamed s b node), rbNow := r.rbNow || rb })

section
variable (s : State) (b : Nat) (node : Option Nat) (rb : Bool)
theorem eowNote_eq : eowNote s b node rb = modBrc (eowLine s b node rb) b (fun c =>
    { c with readback := if rb then satInc 32 c.readback else c.readback, unattrib := if node.isNone then satInc 32 c.unattrib else c.unattrib }) := by
  cases node <;> rfl
theorem brOf_eowNote : brOf (eowNote s b node rb) b =
    { brOf s b with eowNow := true, eowNodes := dedup ((brOf s b).eowNodes ++ blamed s b node), rbNow := (brOf s b).rbNow || rb } := by
  rw [eowNote_eq]
  exact (brOf_modBr s b _ : brOf (eowLine s b node rb) b = _)
theorem brsBut_eowNote : brsBut s (eowNote s b node rb) b := by
  rw [eowNote_eq]
  exact (brsBut_modBr s b _ : brsBut s (eowLine s b node rb) b)
theorem brcOf_eowNote : brcOf (eowNote s b node rb) b =
    { brcOf s b with readback := if rb then satInc 32 (brcOf s b).readback else (brcOf s b).readback,
                     unattrib := if node.isNone then satInc 32 (brcOf s b).unattrib else (brcOf s b).unattrib } := by
  rw [eowNote_eq, brcOf_modBrc]
  rfl
theorem eowNote_frame : quiet { s with brs := (eowNote s b node rb).brs, brCnt := (eowNote s b node rb).brCnt } (eowNote s b node rb) := by
  rw [eowNote_eq]
  rfl
end

theorem brOf_noiseNoted (s : State) (b : Nat) : brOf (noiseNoted s b) b =
    { brOf s b with noise := (brOf s b).noise || (decide (s.net.phase = .listening) && (brOf s b).brpwr) } := by
  unfold noiseNoted
  cases decide (s.net.phase = .listening)
  · simp
  · rw [when_true, brOf_modBr, Bool.true_and]
theorem brsBut_noiseNoted (s : State) (b : Nat) : brsBut s (noiseNoted s b) b := by
  unfold noiseNoted
  cases decide (s.net.phase = .listening)
  · exact fun _ _ => rfl
  · exact brsBut_modBr s b _

theorem noiseNoted_frame (s : State) (b : Nat) : noiseNoted s b = { s with brs := (noiseNoted s b).brs } := by
  unfold noiseNoted
  cases decide (s.net.phase = .listening) <;> rfl

/-- The state of a burst noted in each respect. -/
def energyNoted (s : State) (b : Nat) (u : Burst) (rb : Bool) : State := eowNote (noiseNoted s b) b (burstNode s b u) rb

section
variable {s : State} {b : BranchNo} {u : Burst} {rb : Bool}
theorem exec_energy (s : State) (b : BranchNo) (u : Burst) (rb : Bool) :
    exec (.energyOutsideWindows b u rb) s = finishD s (when s.boot.ready (fun t => energyNoted t b u rb) s) := rfl
theorem energy_idle (h : s.boot.ready = false) : exec (.energyOutsideWindows b u rb) s = .next s := by
  rw [exec_energy, h]
  rfl
theorem energy_noted (h : s.boot.ready = true) : goes (.energyOutsideWindows b u rb) s (fun t =>
    quiet { s with brs := t.brs, brCnt := t.brCnt } t ∧ brsBut s t b ∧ (brOf t b).eowNow = true ∧ (∀ k ∈ (brOf s b).eowNodes, k ∈ (brOf t b).eowNodes) ∧
    (∀ k, burstNode s b u = some k → k ∈ (brOf t b).eowNodes) ∧
    (burstNode s b u = none → ∀ i < 4, (ndOf s (4 * b.val + i)).admitted = true → 4 * b.val + i ∈ (brOf t b).eowNodes) ∧
    (brOf t b).rbNow = ((brOf s b).rbNow || rb) ∧
    (brOf t b).noise = ((brOf s b).noise || (decide (s.net.phase = .listening) && (brOf s b).brpwr)) ∧
    (brcOf t b).readback = (if rb then satInc 32 (brcOf s b).readback else (brcOf s b).readback) ∧
    (brcOf t b).unattrib = (if burstNode s b u = none then satInc 32 (brcOf s b).unattrib else (brcOf s b).unattrib)) := by
  have he := exec_energy s b u rb
  rw [h, when_true] at he
  have hf : quiet { s with brs := (energyNoted s b u rb).brs, brCnt := (energyNoted s b u rb).brCnt } (energyNoted s b u rb) := by
    have hq := eowNote_frame (noiseNoted s b) b (burstNode s b u) rb
    have hn := noiseNoted_frame s b
    unfold energyNoted quiet at *
    rw [hq, hn]
  have hbr : brOf (energyNoted s b u rb) b = _ := brOf_eowNote (noiseNoted s b) b (burstNode s b u) rb
  have hc : brcOf (energyNoted s b u rb) b = _ := brcOf_eowNote (noiseNoted s b) b (burstNode s b u) rb
  have hs : brcOf (noiseNoted s b) b = brcOf s b := by rw [noiseNoted_frame]; rfl
  have hl : blamed (noiseNoted s b) b (burstNode s b u) = blamed s b (burstNode s b u) := by rw [noiseNoted_frame]; rfl
  rw [brOf_noiseNoted, hl] at hbr
  rw [hs] at hc
  refine goes_quiet he hf ⟨hf, (brsBut_noiseNoted s b).trans (brsBut_eowNote _ _ _ _), by rw [hbr], fun k hk => ?_, fun k hk => ?_, fun hk i hi ha => ?_,
    by rw [hbr], by rw [hbr], by rw [hc], ?_⟩
  · rw [hbr]
    exact mem_dedup.mpr (List.mem_append_left _ hk)
  · rw [hbr, hk]
    exact mem_dedup.mpr (List.mem_append_right _ (List.mem_singleton_self k))
  · rw [hbr, hk]
    exact mem_dedup.mpr (List.mem_append_right _ (List.mem_filterMap.mpr ⟨i, List.mem_range.mpr hi, if_pos ha⟩))
  · rw [hc]
    simp only [Option.isNone_iff_eq_none]
end

/-! ### The end of a cut's 100 ms (R92, R93) -/

section
variable {s : State} {b : BranchNo}
theorem exec_branchCutHoldExpiry (s : State) (b : BranchNo) :
    exec (.branchCutHoldExpiry b) s = finishD s (when ((brOf s b).cut && (brOf s b).readmit && !isStandby s) (fun t => branchReadmit t b) s) := rfl
theorem cutHold_readmits (hc : (brOf s b).cut = true) (hr : (brOf s b).readmit = true) (hs : isStandby s = false) :
    goes (.branchCutHoldExpiry b) s (Readmitted s b) := by
  have he := exec_branchCutHoldExpiry s b
  rw [hc, hr, hs] at he
  have hd := readmitted_branchReadmit s b
  exact goes_quiet he hd.frame hd
theorem cutHold_idle (h : (brOf s b).cut = false ∨ (brOf s b).readmit = false ∨ isStandby s = true) : exec (.branchCutHoldExpiry b) s = .next s := by
  have hc : ((brOf s b).cut && (brOf s b).readmit && !isStandby s) = false := by
    rcases h with h | h | h <;> simp [h]
  rw [exec_branchCutHoldExpiry, hc]
  rfl
end

end Sys2Proof.Machine

/-- Settles O36: each row by what it leaves where its condition holds (`nodeMuted_mutes`, `lossDone_lossNoted`, `energy_noted`,
`readmitted_branchReadmit`), and by its idle case. -/
theorem guardianRows : Obligations.GuardianRows := by
  intro s
  refine ⟨fun n h1 h2 h3 h4 h5 => nodeMuted_mutes ⟨h1, h2, h3, h4, h5⟩, fun n h => nodeMuted_idle ?_, fun n h1 h2 hj h3 => ?_, fun n h => nodeLost_idle ?_,
    fun b u rb => energy_idle, fun b u rb => energy_noted, fun b hc hr hs => ?_, fun b => cutHold_idle⟩
  · rintro ⟨h1, h2, h3, h4, h5⟩
    rcases h with h | h | h | h | h
    · simp [h] at h1
    · simp [h] at h2
    · omega
    · simp [h] at h4
    · simp [h] at h5
  · obtain ⟨t, he, ⟨hf, ⟨hp, hn⟩, ho, hb, hk, ha, hi, hw, hg⟩, hl⟩ := nodeLost_loses ⟨h1, h2, h3⟩ hj
    rw [hp] at hf
    exact ⟨t, he, hf, hn, ho, hb, hk, hl, ha, hi, hw, hg⟩
  · rintro ⟨h1, h2, h3⟩
    rcases h with h | h | h
    · simp [h] at h1
    · simp [h] at h2
    · omega
  · obtain ⟨t, he, hf, hb, ho, -, hn⟩ := cutHold_readmits hc hr hs
    refine ⟨t, he, hf, ho, ?_⟩
    rw [hb]
    refine ⟨rfl, rfl, rfl, rfl, rfl, rfl, rfl, fun i hi => ?_, fun n hne => ?_⟩
    · rw [hn, if_pos (by omega)]
      exact ⟨rfl, rfl⟩
    · have hv : n.val / 4 ≠ b.val := fun hv => hne (Fin.ext hv)
      rw [hn, if_neg hv]
end

section
/-! The start of the network (R24, R88 to R97): the power-up, listening, the cold start, a foreign marker, calibration windows. -/
open Sys2Proof Sys2Proof.Machine
namespace Sys2Proof.Machine

/-! ### Listening (R94) -/

/-- A part of the records that a change of all of them leaves, the default too. -/
theorem tabGet_map_keep {α β : Type} (p : α → β) (d : α) (g : α → α) (hg : ∀ x, p (g x) = p x) (t : Tab α) (k : Nat) :
    p (tabGet d (t.map fun q => (q.1, g q.2)) k) = p (tabGet d t k) := by
  unfold tabGet
  rw [tabFind_map]
  cases tabFind t k with
  | none => rfl
  | some x => exact hg x

section
variable (s : State) (b : Nat)
theorem markers_listen : (brOf (listen s) b).markers = false :=
  tabGet_map_set (fun x : Branch => x.markers) {} (fun x => { x with noise := false, markers := false }) false (fun _ => rfl) rfl s.brs b
theorem noise_listen : (brOf (listen s) b).noise = false :=
  tabGet_map_set (fun x : Branch => x.noise) {} (fun x => { x with noise := false, markers := false }) false (fun _ => rfl) rfl s.brs b
theorem cut_listen : (brOf (listen s) b).cut = (brOf s b).cut :=
  tabGet_map_keep (fun x : Branch => x.cut) {} (fun x => { x with noise := false, markers := false }) (fun _ => rfl) s.brs b
theorem brpwr_listen : (brOf (listen s) b).brpwr = (brOf s b).brpwr :=
  tabGet_map_keep (fun x : Branch => x.brpwr) {} (fun x => { x with noise := false, markers := false }) (fun _ => rfl) s.brs b
end

/-! ### The power-up (R91 to R93) -/

/-- Outside branches, the network, the clock and the carriers nothing has changed. -/
def startFrame (s t : State) : Prop := quiet { s with brs := t.brs, net := t.net, clk := t.clk } t
theorem startFrame.refl (s : State) : startFrame s s := rfl
theorem startFrame.trans {s t u : State} (h : startFrame s t) (k : startFrame t u) : startFrame s u := by
  unfold startFrame quiet at *
  rw [k, h]
theorem startFrame_listen (s : State) : startFrame s (listen s) := rfl
theorem startFrame_setNet (s : State) (n : Net) : startFrame s { s with net := n } := rfl

/-- What powering some branches leaves: those that are not cut are powered, and no others (R92). -/
structure Powered (s t : State) (bs : List Nat) : Prop where
  frame : startFrame s t
  up : ∀ k ∈ bs, (brOf s k).cut = false → (brOf t k).brpwr = true
  rest : ∀ k, (k ∉ bs ∨ (brOf s k).cut = true) → (brOf t k).brpwr = (brOf s k).brpwr
  cuts : ∀ k, (brOf t k).cut = (brOf s k).cut

theorem Powered.none {s t : State} (h : startFrame s t) (hp : ∀ k, (brOf t k).brpwr = (brOf s k).brpwr) (hc : ∀ k, (brOf t k).cut = (brOf s k).cut) : Powered s t [] :=
  ⟨h, fun k hk => by simp at hk, fun k _ => hp k, hc⟩

theorem brRaise_cut {s : State} {b : Nat} (h : (brOf s b).cut = true) : brRaise s b = s := if_pos h
theorem brRaise_open {s : State} {b : Nat} (h : (brOf s b).cut = false) :
    ∃ m, brRaise s b = brItem (modBr s b (fun r => { r with brpwr := true, markFrom := m })) := by
  unfold brRaise
  rw [if_neg (by simp [h])]
  exact ⟨_, rfl⟩
theorem net_brRaise (s : State) (b : Nat) : (brRaise s b).net = s.net := by
  cases h : (brOf s b).cut
  · obtain ⟨m, he⟩ := brRaise_open h
    rw [he]
    rfl
  · rw [brRaise_cut h]
theorem powered_brRaise (s : State) (b : Nat) : Powered s (brRaise s b) [b] := by
  cases h : (brOf s b).cut
  · obtain ⟨m, he⟩ := brRaise_open h
    have hb : ∀ k, brOf (brRaise s b) k = brOf (modBr s b (fun r => { r with brpwr := true, markFrom := m })) k := brOf_of_brs (by rw [he]; rfl)
    refine ⟨by rw [he]; rfl, fun k hk _ => ?_, fun k hk => ?_, fun k => ?_⟩
    · rw [hb, List.mem_singleton.mp hk, brOf_modBr]
    · have hne : k ≠ b := by
        rintro rfl
        simp [h] at hk
      rw [hb, brOf_modBr_other _ _ hne]
    · rw [hb]
      by_cases hk : k = b
      · subst hk
        rw [brOf_modBr]
      · rw [brOf_modBr_other _ _ hk]
  · rw [brRaise_cut h]
    refine ⟨.refl s, fun k hk hc => ?_, fun _ _ => rfl, fun _ => rfl⟩
    rw [List.mem_singleton.mp hk, h] at hc
    cases hc
theorem Powered.append {s t u : State} {bs cs : List Nat} (h : Powered s t bs) (k : Powered t u cs) : Powered s u (bs ++ cs) := by
  obtain ⟨hf, hu, hr, hc⟩ := h
  obtain ⟨kf, ku, kr, kc⟩ := k
  refine ⟨hf.trans kf, fun j hj hcut => ?_, fun j hj => ?_, fun j => (kc j).trans (hc j)⟩
  · by_cases hjc : j ∈ cs
    · exact ku j hjc ((hc j).trans hcut)
    · rw [kr j (.inl hjc)]
      exact hu j ((List.mem_append.mp hj).resolve_right hjc) hcut
  · rw [List.mem_append, not_or] at hj
    rw [kr j (hj.imp And.right (hc j).trans), hr j (hj.imp And.left id)]

theorem powerNext_nil {s : State} (n : Nat) (h : s.net.toPower = []) : powerNext (n + 1) s = if s.net.phase = .powering then listen s else s := by
  rw [powerNext, h]
theorem powerNext_cons {s : State} {b : Nat} {bs : List Nat} (n : Nat) (h : s.net.toPower = b :: bs) : powerNext (n + 1) s =
    if bs = [] ∨ s.net.stagger = 0 then powerNext n (brRaise { s with net.toPower := bs } b) else brRaise { s with net.toPower := bs } b := by
  rw [powerNext, h]

/-- The power-up up to its end: at a stagger of 0, or with one branch left, every branch that waits is powered, and the power-up after firmware
start ends in listening. -/
theorem powerNext_end {n : Nat} {s : State} (hn : s.net.toPower.length < n) (h : s.net.stagger = 0 ∨ s.net.toPower.length ≤ 1) :
    Powered s (powerNext n s) s.net.toPower ∧ (powerNext n s).net.toPower = [] ∧ (s.net.phase = .powering → (powerNext n s).net.phase = .listening) := by
  induction n generalizing s with
  | zero => omega
  | succ n ih =>
    cases hb : s.net.toPower with
    | nil =>
      rw [powerNext_nil n hb]
      split
      · exact ⟨.none (startFrame_listen s) (brpwr_listen s) (cut_listen s), hb, fun _ => rfl⟩
      · next hp => exact ⟨.none (.refl s) (fun _ => rfl) (fun _ => rfl), hb, fun h => absurd h hp⟩
    | cons b bs =>
      rw [hb] at hn h
      have hend : bs = [] ∨ s.net.stagger = 0 := by
        rcases h with h | h
        · exact .inr h
        · exact .inl (List.length_eq_zero_iff.mp (by simpa using h))
      rw [powerNext_cons n hb, if_pos hend]
      have hnet : (brRaise { s with net.toPower := bs } b).net = { s.net with toPower := bs } := net_brRaise _ b
      have hr : Powered s (brRaise { s with net.toPower := bs } b) [b] :=
        have hp := powered_brRaise { s with net.toPower := bs } b
        ⟨(startFrame_setNet s _).trans hp.frame, hp.up, hp.rest, hp.cuts⟩
      generalize brRaise { s with net.toPower := bs } b = u at *
      have hu : u.net.toPower = bs := by rw [hnet]
      obtain ⟨hp, ht, hl⟩ := ih (s := u) (by rw [hu]; simpa using hn) (by rw [hnet]; exact h.imp id fun h => by simp at h; simp [h])
      rw [hu] at hp
      rw [hnet] at hl
      exact ⟨hr.append hp, ht, hl⟩

theorem exec_brpwrStaggerExpiry (s : State) :
    exec .brpwrStaggerExpiry s = finishD s (when (!isStandby s && (!s.net.toPower.isEmpty || s.net.phase = .powering)) (powerNext 20) s) := rfl

theorem exec_brpwr_powers {s : State} (hs : isStandby s = false) (h : s.net.toPower ≠ [] ∨ s.net.phase = .powering) :
    exec .brpwrStaggerExpiry s = finishD s (powerNext 20 s) := by
  have hc : (!isStandby s && (!s.net.toPower.isEmpty || s.net.phase = .powering)) = true := by simpa [hs] using h
  rw [exec_brpwrStaggerExpiry, hc]
  rfl
theorem brpwr_idle {s : State} (h : isStandby s = true ∨ (s.net.toPower = [] ∧ s.net.phase ≠ .powering)) : exec .brpwrStaggerExpiry s = .next s := by
  have hc : (!isStandby s && (!s.net.toPower.isEmpty || s.net.phase = .powering)) = false := by
    rcases h with h | h <;> simp [h]
  rw [exec_brpwrStaggerExpiry, hc]
  rfl
theorem brpwr_powers {s : State} {b : Nat} {bs : List Nat} (hs : isStandby s = false) (hb : s.net.toPower = b :: bs) (hl : s.net.toPower.length ≤ 16) :
    goes .brpwrStaggerExpiry s (fun t =>
      quiet { s with brs := t.brs, net := t.net, clk := t.clk } t ∧ ((brOf s b).cut = false → (brOf t b).brpwr = true) ∧
      (s.net.stagger = 0 → t.net.toPower = [] ∧ ∀ k ∈ bs, (brOf s k).cut = false → (brOf t k).brpwr = true) ∧
      (s.net.stagger ≠ 0 → t.net.toPower = bs ∧ ∀ k, k ≠ b → (brOf t k).brpwr = (brOf s k).brpwr) ∧
      (bs = [] → s.net.phase = .powering → t.net.phase = .listening) ∧
      ∀ k, (k ∉ s.net.toPower ∨ (brOf s k).cut = true) → (brOf t k).brpwr = (brOf s k).brpwr) := by
  have he := exec_brpwr_powers hs (.inl (by simp [hb]))
  by_cases hend : bs = [] ∨ s.net.stagger = 0
  · have hone : s.net.stagger = 0 ∨ s.net.toPower.length ≤ 1 := hend.symm.imp id fun h => by simp [hb, h]
    obtain ⟨⟨hf, hu, hr, -⟩, ht, hp⟩ := powerNext_end (n := 20) (by omega) hone
    refine goes_quiet he hf ⟨hf, hu b (by simp [hb]), fun _ => ⟨ht, fun k hk => hu k (by simp [hb, hk])⟩, fun h0 => ?_, fun _ => hp, hr⟩
    obtain rfl : bs = [] := hend.resolve_right h0
    exact ⟨ht, fun k hk => hr k (.inl (by simpa [hb] using hk))⟩
  · rw [powerNext_cons 19 hb, if_neg hend] at he
    obtain ⟨hn, h0⟩ := not_or.mp hend
    obtain ⟨hf, hu, hr, -⟩ := powered_brRaise { s with net.toPower := bs } b
    have hf := (startFrame_setNet s _).trans hf
    have ht := congrArg Net.toPower (net_brRaise { s with net.toPower := bs } b)
    refine goes_quiet he hf ⟨hf, hu b (by simp), fun h => absurd h h0, fun _ => ⟨ht, fun k hk => hr k (.inl (by simpa using hk))⟩,
      fun h => absurd h hn, fun k hk => hr k ?_⟩
    exact hk.imp (fun h hm => h (by rw [hb, List.mem_singleton.mp hm]; exact List.mem_cons_self)) id
/-- Where no branch waits, the power-up after firmware start ends at once in listening (R91, R94). -/
theorem brpwr_listens {s : State} (hs : isStandby s = false) (ht : s.net.toPower = []) (hp : s.net.phase = .powering) :
    exec .brpwrStaggerExpiry s = .next (listen s) := by
  rw [exec_brpwr_powers hs (.inr hp), powerNext_nil 19 ht, if_pos hp]
  rfl

/-! ### Rows that end in listening (R24, R94, R96) -/

section
variable {s : State}
theorem csBackoff_listens (h : s.net.phase = .backoff) : exec .csBackoffExpiry s = .next (listen { s with net.backoffBolts := 0 }) := by
  show finishD s (when (s.net.phase = .backoff) _ s) = _
  rw [decide_eq_true h]
  rfl
theorem csBackoff_idle (h : s.net.phase ≠ .backoff) : exec .csBackoffExpiry s = .next s := by
  show finishD s (when (s.net.phase = .backoff) _ s) = _
  rw [decide_eq_false h]
  rfl
/-- The new pick length is in force, and the network listens for its cold start (R24). -/
def plenListens (s : State) : State := listen { s with clk := { s.clk with plen := s.clk.plenNew, plenStop := 0 }, net.fromPlen := true }
theorem plenListens_frame (s : State) :
    quiet { s with net := { s.net with phase := .listening, fromPlen := true }, brs := (plenListens s).brs,
                   clk := { s.clk with plen := s.clk.plenNew, plenStop := 0, markers := false } } (plenListens s) := rfl
theorem exec_pickLenSilenceEnd (s : State) : exec .pickLenSilenceEnd s = finishD s (if s.net.phase = .silence then plenListens s else s) := rfl
theorem pickLenSilence_listens (h : s.net.phase = .silence) : exec .pickLenSilenceEnd s = .next (plenListens s) := by
  rw [exec_pickLenSilenceEnd, if_pos h]
  rfl
theorem pickLenSilence_idle (h : s.net.phase ≠ .silence) : exec .pickLenSilenceEnd s = .next s := by
  rw [exec_pickLenSilenceEnd, if_neg h]
  rfl
theorem exec_standbyRestartTimeout (s : State) : exec .standbyRestartTimeout s =
    finishD s (if s.net.phase = .following ∧ s.clk.plenStop = 2 then plenListens s else s) := rfl
theorem standbyRestart_listens (h : s.net.phase = .following) (h2 : s.clk.plenStop = 2) : exec .standbyRestartTimeout s = .next (plenListens s) := by
  rw [exec_standbyRestartTimeout, if_pos ⟨h, h2⟩]
  rfl
theorem standbyRestart_idle (h : s.net.phase ≠ .following ∨ s.clk.plenStop ≠ 2) : exec .standbyRestartTimeout s = .next s := by
  rw [exec_standbyRestartTimeout, if_neg (by tauto)]
  rfl
end

/-! ### A foreign marker (R94, R483) -/

theorem pair_tpDropPeer (s : State) (c peer : Nat) : (tpDropPeer s c peer).pair = s.pair := by
  unfold tpDropPeer
  extract_lets go ch
  have hgo : ∀ t had rx, (go t had rx).pair = t.pair := fun t had rx => by cases had <;> rfl
  rw [hgo, hgo]
theorem pair_tpDropAll (s : State) (c : Nat) : (tpDropAll s c).pair = s.pair := forEach_leaves State.pair fun t p _ => pair_tpDropPeer t c p
theorem pair_claimLose (s : State) (c : Nat) : (claimLose s c).pair = s.pair := by
  unfold claimLose
  extract_lets s1
  split <;> exact pair_tpDropAll s c
theorem pair_claimStartAt (s : State) (c sa : Nat) : (claimStartAt s c sa).pair = s.pair := by
  unfold claimStartAt
  split
  · split
    · exact pair_claimLose _ c
    · rfl
  · rfl
theorem pair_canRestart (s : State) (c : Nat) : (canRestart s c).pair = s.pair := (pair_claimStartAt _ c _).trans (pair_tpDropAll s c)
theorem pair_canRole (s : State) (c : Nat) : (canRole s c).pair = s.pair := by
  unfold canRole
  extract_lets m sa s1 s2
  split
  · exact (pair_claimStartAt s2 c _).trans (pair_tpDropAll s c)
  · exact pair_tpDropAll s c
theorem roleKept_canHeadEnd (s : State) (c : Nat) : roleKept s (canHeadEnd s c) := by
  unfold canHeadEnd
  extract_lets auto s1 s2
  have h2 : roleKept s s2 :=
    roleSteps.trans (t := s1) (roleKept_of_pair rfl) (roleSteps.cond auto (fun t => roleKept_of_pair (s := t) (t := modCan t c _) rfl) s1)
  clear_value s2
  exact roleSteps.trans h2 (roleSteps.loop _ (fun t m => roleSteps.loop _ (fun u f =>
    roleSteps.trans (t := modCan u c fun _ => (canRequeue u.clk.now (canOf u c)).1) (roleKept_of_pair rfl) (roleKept_produce _ m f _ _)) t) s2)
/-- A change of role leaves the pair with the role it names. -/
theorem active_roleSet (s : State) (act : Bool) : (roleSet s act).pair.active = act := by
  have h : roleKept { s with pair.active := act, qspi.roleChg := true } (roleSet s act) := by
    refine roleSteps.loop _ (fun u c => ?_) _
    split
    · exact roleSteps.trans (roleKept_of_pair (pair_canRestart u c)) (roleKept_canHeadEnd _ c)
    · exact roleSteps.cond _ (fun v => roleSteps.trans (roleKept_of_pair (pair_canRole v c)) (roleKept_canHeadEnd _ c)) u
  exact h.1

/-- The controller gives up the lead, if it had it. -/
def leadLeft (s : State) : State := when s.pair.active (fun t => roleSet (forEach (List.range 8) unIdle t) false) s
theorem par_leadLeft (s : State) : (leadLeft s).par = s.par := by
  have h : unitFrame s (leadLeft s) :=
    unitFrames.cond _ (fun t => unitFrames.trans (axFrames.loop (List.range 8) axFrame_unIdle t).unit (unitFrame_roleSet _ false)) s
  exact h.eff.par
theorem active_leadLeft (s : State) : (leadLeft s).pair.active = false := by
  unfold leadLeft
  cases h : s.pair.active
  · rw [when_false, h]
  · rw [when_true]
    exact active_roleSet _ false

section
variable {s : State} {b : BranchNo} {run : Bool} {v : BitVec 48}
theorem exec_foreignMarker (s : State) (b : BranchNo) (run : Bool) (v : BitVec 48) : exec (.foreignMarkerReceive b run v) s = finishD s
    (if s.net.phase = .listening then
      (if s.pair.en then { follow s run v with clk.pickOut := pickOutNow (follow s run v) } else listen (raise s 0x3102 b []))
     else s) := rfl
theorem foreignMarker_follows (h : s.net.phase = .listening) (hp : s.pair.en = true) : goes (.foreignMarkerReceive b run v) s (fun t =>
    t.pending = s.pending ∧ t.dmp = s.dmp ∧ t.par = s.par ∧ t.net.phase = .following ∧ t.pair.active = false ∧ t.clk.pstamp = markerStamp run v ∧
    t.clk.plen = markerPlen v ∧ t.clk.started = true ∧ ∀ k, (brOf t k).markers = false) := by
  have he := exec_foreignMarker s b run v
  rw [if_pos h, if_pos hp] at he
  refine ⟨_, he, rfl, rfl, par_leadLeft s, rfl, active_leadLeft s, rfl, rfl, rfl, fun k => ?_⟩
  exact tabGet_map_set (fun x : Branch => x.markers) {} (fun x => { x with markers := false, markFrom := none, resume := false }) false (fun _ => rfl) rfl (leadLeft s).brs k
theorem foreignMarker_listens (h : s.net.phase = .listening) (hp : s.pair.en = false) : exec (.foreignMarkerReceive b run v) s = .next (listen (raise s 0x3102 b [])) := by
  rw [exec_foreignMarker, if_pos h, hp]
  rfl
/-- A controller that listens already, and listens again. -/
theorem quiet_listen_raise {c i : Nat} {p : Bytes} (h : s.net.phase = .listening) :
    quiet { s with brs := (listen (raise s c i p)).brs, clk.markers := false } (listen (raise s c i p)) := by
  have hn : { s.net with phase := .listening } = s.net := by rw [← h]
  show quiet _ { listen (raise s c i p) with net := { s.net with phase := .listening } }
  rw [hn]
  rfl
theorem foreignMarker_idle (h : s.net.phase ≠ .listening) : exec (.foreignMarkerReceive b run v) s = .next s := by
  rw [exec_foreignMarker, if_neg h]
  rfl
end

/-! ### The cold start (R94, R95, R97) -/

/-- The branches on which the controller heard noise are cut (R95). -/
def noisyCut (s : State) (bs : List Nat) : State := forEach bs (fun t b => branchCut (raise t 0x3103 b []) b) s
/-- The enabled branches that carried energy. -/
def noisy (s : State) : List Nat := (List.range 16).filter (fun b => brEnabled s b && (brOf s b).noise)

theorem acksEnd_branchCut (s : State) (b : Nat) : acksEnd s (branchCut s b) := by
  cases h : (brOf s b).cut
  · exact (cutDone_branchCut h).acks
  · rw [branchCut_cut h]
    exact acksEnds.refl s
theorem cut_branchCut (s : State) (b : Nat) : (brOf (branchCut s b) b).cut = true := by
  cases h : (brOf s b).cut
  · rw [(cutDone_branchCut h).branch]
    rfl
  · rw [branchCut_cut h, h]
theorem cut_branchCut_other (s : State) {b k : Nat} (h : k ≠ b) : (brOf (branchCut s b) k).cut = (brOf s k).cut := by
  cases hc : (brOf s b).cut
  · rw [(cutDone_branchCut hc).others k h]
  · rw [branchCut_cut hc]
theorem acksEnd_noisyCut (s : State) (bs : List Nat) : acksEnd s (noisyCut s bs) :=
  acksEnds.loop _ (fun t b => acksEnds.trans (acksEnds.event t _ _ _) (acksEnd_branchCut _ b)) s
theorem acc_noisyCut (s : State) (bs : List Nat) : (noisyCut s bs).acc = s.acc := by
  have h : cutKeeps s (noisyCut s bs) := cutKeepsFrames.loop _ (fun t b => cutKeepsFrames.trans (cutKeepsFrames.event t _ _ _) (cutKeeps_branchCut _ b)) s
  have hq := h.1.1.1
  unfold quiet at hq
  rw [hq]
theorem cut_noisyCut (s : State) {bs : List Nat} {b : Nat} (hn : bs.Nodup) (hb : b ∈ bs) : (brOf (noisyCut s bs) b).cut = true :=
  forEach_turn (P := fun _ => True) (Q := fun t => (brOf t b).cut = true) hn hb (fun _ _ => cut_branchCut _ b) (fun _ _ _ _ => trivial)
    (fun t y hy ht => (cut_branchCut_other (raise t 0x3103 y []) (Ne.symm hy)).trans ht) trivial

/-- The placed axes lose their placement. -/
def axesUnplaced (s : State) : State := forEach ((s.warp.place.axes.filter (fun p => !p.unplaced)).map (·.axis)) axUnplace s
theorem axFrame_axesUnplaced (s : State) : axFrame s (axesUnplaced s) := axFrames.loop _ axFrame_axUnplace s

/-- What the cold start makes of a state. -/
structure ColdBegun (s t : State) : Prop where
  par : t.par = s.par
  acc : t.acc = s.acc
  phase : t.net.phase = .coldBolt
  firstRun : t.net.firstRunDue = true
  started : t.clk.started = false
  placed : t.warp.placed = false
  axes : t.warp.place.axes = []
  admitted : ∀ n, (ndOf t n).admitted = false
  cut : ∀ b, (brOf t b).cut = (brOf s b).cut

section
variable (s : State)
theorem coldBegun_coldStart : ColdBegun s (coldStart s) := by
  have h := axFrame_axesUnplaced s
  unfold axFrame quiet at h
  have hacc : (axesUnplaced s).acc = s.acc := by rw [h]
  have hbrs : (axesUnplaced s).brs = s.brs := by rw [h]
  refine ⟨(axFrame_axesUnplaced s).unit.eff.par, hacc, rfl, rfl, rfl, rfl, rfl,
    tabGet_map_set (fun x : Node => x.admitted) {} nodeCold false (fun _ => rfl) rfl (axesUnplaced s).nodes, fun b => ?_⟩
  rw [← brOf_of_brs hbrs]
  exact tabGet_map_keep (fun x : Branch => x.cut) {} branchCold (fun _ => rfl) (axesUnplaced s).brs b
theorem coldBegun_coldDraft : ColdBegun s (coldDraft (coldStart s)) := by
  obtain ⟨hp, hacc, hph, hf, hst, hpl, hax, hn, hc⟩ := coldBegun_coldStart s
  unfold coldDraft
  generalize coldStart s = t at *
  exact ⟨hp, hacc, hph, hf, hst, hpl, hax, hn, hc⟩
end

theorem exec_coldStartListenEnd (s : State) :
    exec .coldStartListenEnd s = finishD s (if s.net.phase = .listening then coldDraft (coldStart (noisyCut s (noisy s))) else s) := rfl
theorem coldStart_idle {s : State} (h : s.net.phase ≠ .listening) : exec .coldStartListenEnd s = .next s := by
  rw [exec_coldStartListenEnd, if_neg h]
  rfl
theorem coldStart_begins {s : State} (h : s.net.phase = .listening) : goes .coldStartListenEnd s (fun t =>
    t.pending = s.pending ∧ t.ddr = s.ddr ∧ t.dmp = s.dmp ∧ t.par = { s.par with pends := t.par.pends, stages := t.par.stages } ∧
    (s.par.stepMod = [] → t.par = s.par) ∧ t.acc = s.acc ∧ t.net.phase = .coldBolt ∧ t.net.firstRunDue = true ∧
    t.clk.started = false ∧ t.warp.placed = false ∧ t.warp.place.axes = [] ∧ (∀ n, (ndOf t n).admitted = false) ∧
    ∀ b < 16, brEnabled s b = true → (brOf s b).noise = true → (brOf t b).cut = true) := by
  have he := exec_coldStartListenEnd s
  rw [if_pos h] at he
  have hacc := acc_noisyCut s (noisy s)
  have hcut (b : Nat) (hb : b < 16) (hen : brEnabled s b = true) (hno : (brOf s b).noise = true) : (brOf (noisyCut s (noisy s)) b).cut = true :=
    cut_noisyCut s (List.nodup_range.filter _) (List.mem_filter.mpr ⟨List.mem_range.mpr hb, by rw [hen, hno]; rfl⟩)
  have hd := coldBegun_coldDraft (noisyCut s (noisy s))
  obtain ⟨hp, hn⟩ := acksEnds.trans (acksEnd_noisyCut s (noisy s)) (acksEnd_of_par hd.par)
  generalize coldDraft (coldStart (noisyCut s (noisy s))) = t at *
  generalize noisyCut s (noisy s) = u at *
  exact ⟨_, he, rfl, rfl, rfl, hp, hn, hd.acc.trans hacc, hd.phase, hd.firstRun, hd.started, hd.placed, hd.axes, hd.admitted,
    fun b hb hen hno => (hd.cut b).trans (hcut b hb hen hno)⟩

/-! ### Calibration windows (R88, R89) -/

theorem le_clamp {lo hi : Int} (h : lo ≤ hi) (x : Int) : lo ≤ clamp lo hi x := by
  unfold clamp
  split
  · exact le_refl lo
  · split
    · exact h
    · omega

/-- The DRV code of a branch as one step moves it (R89). -/
def stepDrv (s : State) (b : Nat) (d : TrimStep) : Nat := (clamp 0 31 (((brOf s b).drv : Int) + trimBy d)).toNat
/-- The TRIM code, likewise. -/
def stepTrim (s : State) (b : Nat) (r : TrimStep) : Int := clamp (-128) 127 ((brOf s b).trim + trimBy r)
/-- The branch with its codes moved. -/
def codesMoved (s : State) (b : Nat) (d r : TrimStep) : State :=
  modBr s b (fun x => { x with drv := stepDrv s b d, trim := stepTrim s b r, drvLim := decide (stepDrv s b d = 0 ∨ stepDrv s b d = 31),
                               trimLim := decide (stepTrim s b r = -128 ∨ stepTrim s b r = 127) })
theorem quiet_calStep (s : State) (b : Nat) (d r : TrimStep) : quiet (codesMoved s b d r) (calStep s b d r) :=
  (quiet_when _ (fun t => quiet_raise t 0x3106 b []) _).trans (quiet_when _ (fun t => quiet_raise t 0x3106 b []) _)
/-- What the window leaves: the codes moved, and the window over for this bolt. -/
def calDone (s : State) (b : Nat) (d r : TrimStep) : State := modBr (calStep s b d r) b (fun x => { x with calDone := true })

section
variable (s : State) (b : Nat) (d r : TrimStep)
theorem brs_calStep : (calStep s b d r).brs = (codesMoved s b d r).brs := by
  have h := quiet_calStep s b d r
  unfold quiet at h
  rw [h]
theorem brOf_calDone : brOf (calDone s b d r) b = { brOf s b with
    drv := stepDrv s b d, trim := stepTrim s b r, drvLim := decide (stepDrv s b d = 0 ∨ stepDrv s b d = 31),
    trimLim := decide (stepTrim s b r = -128 ∨ stepTrim s b r = 127), calDone := true } := by
  rw [calDone, brOf_modBr, brOf_of_brs (brs_calStep s b d r), codesMoved, brOf_modBr]
theorem brsBut_calDone : brsBut s (calDone s b d r) b :=
  brsBut.trans (t := calStep s b d r) (fun k hk => (brOf_of_brs (brs_calStep s b d r) k).trans (brOf_modBr_other s _ hk)) (brsBut_modBr _ b _)
theorem quiet_calDone : quiet { s with brs := (calDone s b d r).brs } (calDone s b d r) := by
  have h := quiet_calStep s b d r
  unfold calDone
  generalize calStep s b d r = t at *
  unfold quiet at *
  rw [h]
  rfl
end

section
variable {s : State} {b : BranchNo} {d r : TrimStep}
theorem exec_calibrationWindow (s : State) (b : BranchNo) (d r : TrimStep) : exec (.calibrationWindow b d r) s =
    finishD s (when (branchOn s b && decide (psPick (ps s) = 2 * b.val) && !(brOf s b).calDone) (fun t => calDone t b d r) s) := rfl
theorem calibration_moves (hb : branchOn s b = true) (hp : psPick (ps s) = 2 * b.val) (hc : (brOf s b).calDone = false) :
    goes (.calibrationWindow b d r) s (fun t =>
      quiet { s with brs := t.brs } t ∧ brsBut s t b ∧ ((brOf t b).drv : Int) = clamp 0 31 ((brOf s b).drv + trimBy d) ∧
      (brOf t b).trim = clamp (-128) 127 ((brOf s b).trim + trimBy r) ∧ (brOf t b).calDone = true) := by
  have he : exec (.calibrationWindow b d r) s = finishD s (calDone s b d r) := by
    rw [exec_calibrationWindow, hb, decide_eq_true hp, hc]
    rfl
  have hf := quiet_calDone s b d r
  refine goes_quiet he hf ⟨hf, brsBut_calDone s b d r, ?_⟩
  show ((brOf (calDone s b d r) b).drv : Int) = _ ∧ (brOf (calDone s b d r) b).trim = _ ∧ (brOf (calDone s b d r) b).calDone = _
  rw [brOf_calDone]
  exact ⟨Int.toNat_of_nonneg (le_clamp (by decide) _), rfl, rfl⟩
theorem calibration_idle (h : branchOn s b = false ∨ psPick (ps s) ≠ 2 * b.val ∨ (brOf s b).calDone = true) :
    exec (.calibrationWindow b d r) s = .next s := by
  have hc : (branchOn s b && decide (psPick (ps s) = 2 * b.val) && !(brOf s b).calDone) = false := by
    rcases h with h | h | h <;> simp [h]
  rw [exec_calibrationWindow, hc]
  rfl
end

end Sys2Proof.Machine

/-- Settles O33: the power-up by how many branches wait (`brpwr_powers`, from `powerNext_end`), each other row by the state it leaves where its
condition holds, and by its idle case. -/
theorem networkStartRows : Obligations.NetworkStartRows := by
  intro s
  refine ⟨fun b bs => brpwr_powers, fun hs ht hp => ⟨_, brpwr_listens hs ht hp, rfl, fun k => ⟨markers_listen s k, noise_listen s k⟩⟩, brpwr_idle,
    coldStart_begins, coldStart_idle, fun b run v => foreignMarker_follows,
    fun b run v h hp => ⟨_, foreignMarker_listens h hp, quiet_listen_raise h, rfl, fun k => ⟨markers_listen _ k, noise_listen _ k⟩⟩,
    fun b run v => foreignMarker_idle, fun h => ⟨_, csBackoff_listens h, rfl⟩, csBackoff_idle, fun h => ⟨_, pickLenSilence_listens h, plenListens_frame s⟩,
    pickLenSilence_idle, fun h h2 => ⟨_, standbyRestart_listens h h2, plenListens_frame s⟩, standbyRestart_idle, fun b d r => calibration_moves, fun b d r => calibration_idle⟩
end

section
/-! The commands that bring back a node and ask for key frames of an axis (R140, R160, R392). -/
open Sys2Proof Sys2Proof.Machine
namespace Sys2Proof.Machine

section
variable {s : State} {m n : Nat} (hr : hasRights s m 2 rWRITE = true)
include hr
/-- A network command whose number fills its mask of `k` bits passes its checks. -/
theorem checked_network {k : Nat} (hn : n < 2 ^ k) (hk : k ≤ 32) (r : State × CmdRes) : checked s (netChecks s m (le 4 n) (2 ^ k - 1)) r = r := by
  have h32 : n < 2 ^ 32 := Nat.lt_of_lt_of_le hn (Nat.pow_le_pow_right (by decide) hk)
  have hw : onlyBits (2 ^ k - 1) (word (le 4 n) 0) = true := by
    rw [word_le4 n h32]
    exact onlyBits_low k n hn
  simp [checked, firstFail, netChecks, hw, hr]
theorem nodeReadmitRun_eq (hn : n < 64) : nodeReadmitRun s m (le 4 n) =
    (when ((ndOf s n).muted || (ndOf s n).muteDue) (fun t => nodeUnmute t n) s, .fin 0 []) := by
  rw [nodeReadmitRun, word_le4 n (by omega), Nat.mod_eq_of_lt hn]
  exact checked_network hr (k := 6) hn (by decide) _
theorem axisRekeyRun_eq (hn : n < 128) : axisRekeyRun s m (le 4 n) =
    (when (axClass s n != 0) (fun t => modNd t (axNode t n) (reqRekey (ps t))) s, .fin 0 []) := by
  rw [axisRekeyRun, word_le4 n (by omega), Nat.mod_eq_of_lt hn]
  exact checked_network hr (k := 7) hn (by decide) _
end

@[simp] theorem ndOf_taken (s : State) (e : CmdEntry) (op n : Nat) : ndOf (taken s e op) n = ndOf s n := by
  rw [show taken s e op = _ from quiet_taken s e op]
  rfl
@[simp] theorem par_taken (s : State) (e : CmdEntry) (op : Nat) : (taken s e op).par = s.par := par_of_quiet (quiet_taken s e op)
theorem axNode_of_par {s t : State} (h : t.par = s.par) (a : Nat) : axNode t a = axNode s a := by
  unfold axNode pnat pget
  rw [h]
theorem quiet_modNd {s t : State} (h : quiet s t) (n : Nat) (f : Node → Node) : quiet (modNd s n f) (modNd t n f) := by
  unfold quiet at *
  rw [h]
  rfl

/-- A node that is heard again: unmuted, and asked for a key frame (R140). -/
def nodeHeard (s : State) (n : Nat) : State := modNd s n (fun d => reqRekey (ps s) { d with muted := false, muteDue := false, viol := 0 })

section
variable {s : State} {e : CmdEntry} {n : Nat} (h : takesNow s e = true) (hpl : e.payload = le 4 n) (hr : hasRights s e.master 2 rWRITE = true)
include h hpl hr

theorem nodeReadmit_completes (hn : n < 64) : completes (.nodeReadmit e) s e 0x0403 []
    (quiet (if (ndOf s n).muted = true ∨ (ndOf s n).muteDue = true then nodeHeard s n else s)) := by
  have hb := nodeReadmitRun_eq (s := taken s e 0x0403) (m := e.master) (by simpa using hr) hn
  rw [← hpl, ndOf_taken] at hb
  by_cases hm : (ndOf s n).muted = true ∨ (ndOf s n).muteDue = true
  · rw [if_pos hm]
    rw [(by simpa using hm : ((ndOf s n).muted || (ndOf s n).muteDue) = true), when_true] at hb
    have hq : quiet (nodeHeard s n) (nodeUnmute (taken s e 0x0403) n) := by
      unfold nodeUnmute
      rw [ps_taken]
      exact (quiet_modNd (quiet_taken s e 0x0403) n _).trans (quiet_sendItem _ _)
    exact completes_quiet rfl h hb hq fun t ht => hq.trans ht
  · rw [if_neg hm]
    rw [(by simpa using hm : ((ndOf s n).muted || (ndOf s n).muteDue) = false), when_false] at hb
    exact completes_read (.inl rfl) h hb

theorem axisRekey_completes (hn : n < 128) : completes (.axisRekey e) s e 0x0406 []
    (quiet (if axClass s n = 0 then s else modNd s (axNode s n) (reqRekey (ps s)))) := by
  have hb := axisRekeyRun_eq (s := taken s e 0x0406) (m := e.master) (by simpa using hr) hn
  rw [← hpl, axClass_of_par (par_taken s e _)] at hb
  by_cases hc : axClass s n = 0
  · rw [if_pos hc]
    rw [hc] at hb
    exact completes_read (.inl rfl) h hb
  · rw [if_neg hc]
    rw [(by simpa using hc : (axClass s n != 0) = true), when_true, axNode_of_par (par_taken s e _), ps_taken] at hb
    have hq := quiet_modNd (quiet_taken s e 0x0406) (axNode s n) (reqRekey (ps s))
    exact completes_quiet rfl h hb hq fun t ht => hq.trans ht
end

end Sys2Proof.Machine

/-- Settles O11: each command by whether its number names a muted node or a declared axis. -/
theorem nodeCommands : Obligations.NodeCommands := by
  intro e s n h hpl hr
  exact ⟨nodeReadmit_completes h hpl hr, axisRekey_completes h hpl hr⟩
end

section
/-! The parser (R171, R173, R174): what the status word of a frame changes, and where the job of an axis goes. -/
open Sys2Proof Sys2Proof.Machine
namespace Sys2Proof.Machine

theorem modBr_congr {s : State} {b : Nat} {f g : Branch → Branch} (h : f (brOf s b) = g (brOf s b)) : modBr s b f = modBr s b g := by
  unfold modBr tabMod
  rw [show f (tabGet {} s.brs b) = _ from h]
  rfl

/-! ### Ready lists (R171) -/

theorem lnList_lnSet (l : Lane) (p : Nat) (js : List Job) : lnList (lnSet l p js) p = js := by
  unfold lnList lnSet
  split
  · rfl
  · split
    · rfl
    · split <;> rfl
theorem mem_jobInsert (j : Job) (js : List Job) : j ∈ jobInsert j js := by
  induction js with
  | nil => simp [jobInsert]
  | cons x xs ih =>
    unfold jobInsert
    split
    · exact List.mem_cons_self
    · exact List.mem_cons_of_mem _ ih

/-- A job that enters is in its list. -/
theorem mem_axEnter (s : State) (ln : Nat) (j : Job) : j ∈ lnList (laneOf (axEnter s ln j) ln) j.prio := by
  have h : laneOf (axEnter s ln j) ln = lnSet (laneOf s ln) j.prio (jobInsert j (lnList (laneOf s ln) j.prio)) :=
    laneOf_modLane s ln fun l => lnSet l j.prio (jobInsert j (lnList l j.prio))
  rw [h, lnList_lnSet]
  exact mem_jobInsert j _
theorem axEnter_frame (s : State) (ln : Nat) (j : Job) :
    axEnter s ln j = { s with lanes := (axEnter s ln j).lanes, lnCnt := (axEnter s ln j).lnCnt, axes := (axEnter s ln j).axes } := rfl
theorem brs_axEnter (s : State) (ln : Nat) (j : Job) : (axEnter s ln j).brs = s.brs := rfl
theorem raw_axEnter (s : State) (ln : Nat) (j : Job) : (axOf (axEnter s ln j) j.id).sm.raw = (axOf s j.id).sm.raw := by
  show (axOf (modAx (jobPush s ln j) j.id _) j.id).sm.raw = _
  rw [axOf_modAx]
  rfl
theorem axesBut_axEnter (s : State) (ln : Nat) (j : Job) : axesBut s (axEnter s ln j) j.id := (axLocal_modSm (jobPush s ln j) j.id _).2

/-! ### Time (R171, R172) -/

theorem loomTo_frame (s : State) (tt : Nat) : loomTo s tt = { s with lanes := (loomTo s tt).lanes, clk := (loomTo s tt).clk } := by
  unfold loomTo
  simp only []
  split <;> rfl

/-! ### The status word of an accepted frame (R120, R230, R237, R238) -/

section
variable (s : State) (a : Nat)
theorem axFrame_crejStep (crej : Bool) : axFrame s (crejStep s a crej) := by
  unfold crejStep
  split
  · extract_lets s1
    have h1 : axFrame s s1 := axFrame_modAx s a _
    exact axFrames.ite h1 (axFrames.trans (axFrames.trans h1 (axFrame_modSm s1 a _)) (axFrames.event _ _ _ _))
  · exact .refl s
theorem axFrame_buvStep (buv : Bool) : axFrame s (buvStep s a buv) := by
  unfold buvStep
  split
  · exact axFrames.trans (axFrames.trans (axLocal_boostStart s a).1 (axFrame_modAx _ a _)) (axFrame_modAx _ a _)
  · exact axFrame_modAx s a _
theorem axFrame_otwStep (otw : Bool) : axFrame s (otwStep s a otw) := by
  unfold otwStep
  split
  · split
    · exact axFrame_modAx s a _
    · exact axFrames.trans (axFrame_modAx s a _) (axFrames.event _ _ _ _)
  · exact axFrame_modAx s a _
theorem axFrame_statusWord (discarded : Bool) (w : BitVec 16) : axFrame s (statusWord s a discarded w) := by
  unfold statusWord
  extract_lets b s1
  have h1 : axFrame s s1 := axFrames.trans (axFrame_modSm s a _) (axFrame_crejStep _ a _)
  clear_value s1
  refine axFrames.ite h1 (axFrames.trans h1 ?_)
  exact axFrames.trans (axFrames.trans (axFrame_buvStep s1 a _) (axFrame_otwStep _ a _)) (axFrame_takeFaults _ a _)
end

/-! ### The job of an axis (R168, R173, R174) -/

/-- The raw values of a frame, kept for the job of their axis. -/
def rawNoted (s : State) (a : Nat) (raw : RawIn) : State := modSm s a (fun m => { m with raw := raw })
/-- The job that the parser creates for an axis. -/
def parserJob (s : State) (a : Nat) : Job := { kind := 1, id := a, prio := axPrio s a, made := s.clk.now }
/-- A job without room in its list, counted and held for its branch. -/
def jobHeld (b : Nat) (s : State) (ln : Nat) (j : Job) : State :=
  modBr (modSm (listFull (modLnc s ln (fun c => { c with bpHolds := satInc 32 c.bpHolds })) ln j.prio) j.id (fun m => { m with jobCause := 3 })) b
    (fun x => { x with held := x.held ++ [j] })

theorem parseJob_unplaced {s : State} {a : Nat} (h : axLane s a = none) (b : Nat) (raw : RawIn) : parseJob b s a raw = s := by
  unfold parseJob
  rw [h]
theorem parseJob_placed {s : State} {a ln : Nat} (h : axLane s a = some ln) (b : Nat) (raw : RawIn) : parseJob b s a raw =
    if newRoom s ln (parserJob s a) then axEnter (rawNoted s a raw) ln (parserJob s a) else jobHeld b (rawNoted s a raw) ln (parserJob s a) := by
  unfold parseJob
  rw [h]
  rfl

/-- A list that is full changes nothing but the mark of its lane that it was, and carriers. -/
theorem listFull_frame (s : State) (ln p : Nat) : quiet { s with lanes := (listFull s ln p).lanes } (listFull s ln p) := by
  unfold listFull
  split <;> rfl
theorem lnAll_listFull (s : State) (ln p : Nat) : lnAll (laneOf (listFull s ln p) ln) = lnAll (laneOf s ln) := by
  unfold listFull
  split
  · rfl
  · have h : laneOf (raise (modLane s ln fun l => { l with fullRaised := p :: l.fullRaised }) 0x4102 ln [BitVec.ofNat 8 p]) ln =
        { laneOf s ln with fullRaised := p :: (laneOf s ln).fullRaised } := laneOf_modLane s ln fun l => { l with fullRaised := p :: l.fullRaised }
    rw [h]
    rfl

section
variable (b : Nat) (s : State) (ln : Nat) (j : Job)
theorem jobHeld_frame : quiet { s with brs := (jobHeld b s ln j).brs, lanes := (jobHeld b s ln j).lanes, lnCnt := (jobHeld b s ln j).lnCnt,
                                       axes := (jobHeld b s ln j).axes } (jobHeld b s ln j) := by
  have h := listFull_frame (modLnc s ln (fun c => { c with bpHolds := satInc 32 c.bpHolds })) ln j.prio
  unfold jobHeld
  generalize listFull _ ln j.prio = u at h
  unfold quiet at h
  rw [h]
  rfl
theorem brs_listFull (p : Nat) : (listFull s ln p).brs = s.brs := by
  rw [show listFull s ln p = _ from listFull_frame s ln p]
theorem axes_listFull (p : Nat) : (listFull s ln p).axes = s.axes := by
  rw [show listFull s ln p = _ from listFull_frame s ln p]
theorem lnCnt_listFull (p : Nat) : (listFull s ln p).lnCnt = s.lnCnt := by
  rw [show listFull s ln p = _ from listFull_frame s ln p]
theorem brOf_jobHeld : brOf (jobHeld b s ln j) b = { brOf s b with held := (brOf s b).held ++ [j] } := by
  rw [jobHeld, brOf_modBr, brOf_of_brs (t := modSm _ _ _) (brs_listFull _ ln j.prio)]
  rfl
theorem brsBut_jobHeld : brsBut s (jobHeld b s ln j) b := fun k hk => by
  rw [jobHeld, brOf_modBr_other _ _ hk, brOf_of_brs (t := modSm _ _ _) (brs_listFull _ ln j.prio)]
  rfl
theorem raw_jobHeld : (axOf (jobHeld b s ln j) j.id).sm.raw = (axOf s j.id).sm.raw := by
  have h : axOf (jobHeld b s ln j) j.id = axOf (modSm (listFull _ ln j.prio) j.id fun m => { m with jobCause := 3 }) j.id := rfl
  rw [h, modSm, axOf_modAx, axOf_of_axes (axes_listFull _ ln j.prio)]
  rfl
theorem lnAll_jobHeld : lnAll (laneOf (jobHeld b s ln j) ln) = lnAll (laneOf s ln) := lnAll_listFull _ ln j.prio
theorem bpHolds_jobHeld : (lncOf (jobHeld b s ln j) ln).bpHolds = satInc 32 (lncOf s ln).bpHolds := by
  have h : lncOf (jobHeld b s ln j) ln = lncOf (modLnc s ln fun c => { c with bpHolds := satInc 32 c.bpHolds }) ln := lncOf_of_lnCnt (lnCnt_listFull _ ln j.prio) ln
  rw [h, lncOf_modLnc]
end

/-! ### Frames of a branch (R171, R173) -/

/-- What the parser of a branch may change: axes, groups, histories, lanes, and of the branch all but its buffer. -/
def parseFrame (b : Nat) (s t : State) : Prop :=
  quiet { s with axes := t.axes, grps := t.grps, kiln := t.kiln, lanes := t.lanes, lnCnt := t.lnCnt, brs := t.brs } t ∧ brsBut s t b ∧
    (brOf t b).rxBuf = (brOf s b).rxBuf
theorem parseFrames (b : Nat) : Frame (parseFrame b) where
  carriers h := by
    have hq := h.1
    unfold quiet at hq
    refine ⟨?_, fun k _ => ?_, ?_⟩
    · unfold quiet
      rw [hq]
    · rw [hq]
      rfl
    · rw [hq]
      rfl
  trans := fun ⟨h, hb, hr⟩ ⟨k, kb, kr⟩ => by
    refine ⟨?_, hb.trans kb, kr.trans hr⟩
    unfold quiet at *
    rw [k, h]
theorem parseFrame.rest {b : Nat} {s t : State} (h : parseFrame b s t) :
    t.pending = s.pending ∧ t.ddr = s.ddr ∧ t.dmp = s.dmp ∧ t.par = s.par ∧ t.clk = s.clk ∧ t.warp = s.warp := by
  have hq := h.1
  unfold quiet at hq
  rw [hq]
  exact ⟨rfl, rfl, rfl, rfl, rfl, rfl⟩
theorem axFrame.parse {s t : State} (h : axFrame s t) (b : Nat) : parseFrame b s t := by
  unfold axFrame quiet at h
  refine ⟨?_, fun k _ => ?_, ?_⟩
  · unfold quiet
    rw [h]
  · rw [h]
    rfl
  · rw [h]
    rfl
theorem parseFrame_axEnter (b : Nat) (s : State) (ln : Nat) (j : Job) : parseFrame b s (axEnter s ln j) := by
  refine ⟨?_, fun k _ => brOf_of_brs (brs_axEnter s ln j) k, congrArg Branch.rxBuf (brOf_of_brs (brs_axEnter s ln j) b)⟩
  rw [axEnter_frame]
  rfl
theorem parseFrame_jobHeld (b : Nat) (s : State) (ln : Nat) (j : Job) : parseFrame b s (jobHeld b s ln j) := by
  refine ⟨?_, brsBut_jobHeld b s ln j, by rw [brOf_jobHeld]⟩
  have hq := jobHeld_frame b s ln j
  unfold quiet at *
  rw [hq]
theorem parseFrame_parseJob (b : Nat) (s : State) (a : Nat) (raw : RawIn) : parseFrame b s (parseJob b s a raw) := by
  have hn : parseFrame b s (rawNoted s a raw) := (axFrame_modSm s a _).parse b
  rcases h : axLane s a with _ | ln
  · rw [parseJob_unplaced h]
    exact (parseFrames b).refl s
  · rw [parseJob_placed h]
    exact (parseFrames b).ite ((parseFrames b).trans hn (parseFrame_axEnter b _ ln _)) ((parseFrames b).trans hn (parseFrame_jobHeld b _ ln _))

/-- A frame that has been worked off leaves the buffer, unless a job of it is held. -/
def frameOver (s : State) (b : Nat) : State := modBr s b (fun x => if x.held = [] then { x with rxBuf := x.rxBuf.drop 1 } else x)
/-- The axes in a frame, with their raw values. -/
def frameAxes (s : State) (f : RxFrame) : List (Nat × RawIn) := f.axes.filterMap (fun p => (axAt s f.node p.1).map (fun a => (a, p.2)))
/-- The axes in a frame whose job is due, ascending. -/
def frameDue (s : State) (f : RxFrame) : List (Nat × RawIn) := sortBy (fun (x y : Nat × RawIn) => x.1 < y.1) ((frameAxes s f).filter (fun p => (axOf s p.1).sm.jobDue))
/-- The status words of a frame, taken. -/
def frameWords (s : State) (f : RxFrame) : State := forEach (frameAxes s f) (fun t p => statusWord t p.1 f.discarded p.2.inp) s
/-- The jobs of a frame, created. -/
def frameJobs (s : State) (b : Nat) (f : RxFrame) : State := forEach (frameDue s f) (fun t p => parseJob b t p.1 p.2) (frameWords s f)

theorem parseFrame_frameJobs (s : State) (b : Nat) (f : RxFrame) : parseFrame b s (frameJobs s b f) :=
  (parseFrames b).trans ((show axFrame s (frameWords s f) from axFrames.loop _ (fun t (p : Nat × RawIn) => axFrame_statusWord t p.1 _ _) s).parse b)
    ((parseFrames b).loop _ (fun t (p : Nat × RawIn) => parseFrame_parseJob b t p.1 p.2) _)

section
variable {s : State} {b : Nat} {f : RxFrame} {fs : List RxFrame}
theorem frameParse_oldest (hh : (brOf s b).held = []) (hr : (brOf s b).rxBuf = f :: fs) :
    frameParse s b = frameOver (if (ndOf s f.node).muted = true then s else frameJobs s b f) b := by
  unfold frameParse
  simp only [hh, hr]
  split <;> rfl
theorem frameParse_idle (h : (brOf s b).held ≠ [] ∨ (brOf s b).rxBuf = []) : frameParse s b = s := by
  unfold frameParse
  simp only []
  split
  · next hh hr => simp [hh, hr] at h
  · rfl
theorem brOf_frameOver (s : State) (b : Nat) :
    brOf (frameOver s b) b = if (brOf s b).held = [] then { brOf s b with rxBuf := (brOf s b).rxBuf.drop 1 } else brOf s b := brOf_modBr s b _
theorem held_frameOver (s : State) (b : Nat) : (brOf (frameOver s b) b).held = (brOf s b).held := by
  rw [brOf_frameOver]
  split <;> rfl
theorem rxBuf_frameOver (s : State) (b : Nat) : (brOf (frameOver s b) b).rxBuf = if (brOf (frameOver s b) b).held = [] then (brOf s b).rxBuf.drop 1 else (brOf s b).rxBuf := by
  rw [held_frameOver, brOf_frameOver]
  split <;> rfl
theorem frameOver_free (hh : (brOf s b).held = []) (hr : (brOf s b).rxBuf = f :: fs) : frameOver s b = modBr s b (fun x => { x with rxBuf := fs }) := by
  refine modBr_congr ?_
  rw [if_pos hh, hr]
  rfl

theorem frameJobs_none (h : f.axes = []) : frameJobs s b f = s := by simp [frameJobs, frameWords, frameDue, frameAxes, h, sortBy, forEach]
theorem frameJobs_one {l a : Nat} {raw : RawIn} (h : f.axes = [(l, raw)]) (ha : axAt s f.node l = some a) (hj : (axOf s a).sm.jobDue = true) :
    frameJobs s b f = parseJob b (statusWord s a f.discarded raw.inp) a raw := by
  simp [frameJobs, frameWords, frameDue, frameAxes, h, ha, hj, sortBy, insertBy, forEach]
end

/-! ### FRAME_PARSE (R139, R171, R174) -/

theorem newRoom_of_axFrame {s t : State} (h : axFrame s t) (ln : Nat) (j : Job) : newRoom t ln j = newRoom s ln j := by
  unfold axFrame quiet at h
  rw [h]
  rfl
theorem axLane_of_axFrame {s t : State} (h : axFrame s t) (a : Nat) : axLane t a = axLane s a := by
  unfold axFrame quiet at h
  rw [h]
  rfl
theorem parserJob_of_axFrame {s t : State} (h : axFrame s t) (a : Nat) : parserJob t a = parserJob s a := by
  unfold axFrame quiet at h
  rw [h]
  rfl

/-- What the parser leaves behind the job of an axis it has created: the raw values, and the job in its list or held. -/
structure JobCreated (u : State) (b ln : Nat) (j : Job) (raw : RawIn) (t : State) : Prop where
  raw : (axOf t j.id).sm.raw = raw
  enters : newRoom u ln j = true → (brOf t b).held = [] ∧ j ∈ lnList (laneOf t ln) j.prio
  waits : newRoom u ln j = false → (brOf t b).held = [j] ∧ lnAll (laneOf t ln) = lnAll (laneOf u ln) ∧ (lncOf t ln).bpHolds = satInc 32 (lncOf u ln).bpHolds

theorem jobCreated_parseJob {u v : State} {b a ln : Nat} (raw : RawIn) (hv : axFrame u v) (hh : (brOf u b).held = []) (hl : axLane u a = some ln) :
    JobCreated u b ln (parserJob u a) raw (parseJob b v a raw) := by
  have hbr : brOf (rawNoted v a raw) b = brOf u b := by
    have h := hv
    unfold axFrame quiet at h
    rw [h]
    rfl
  have hln : laneOf (rawNoted v a raw) ln = laneOf u ln ∧ lncOf (rawNoted v a raw) ln = lncOf u ln := by
    have h := hv
    unfold axFrame quiet at h
    rw [h]
    exact ⟨rfl, rfl⟩
  have hraw : (axOf (rawNoted v a raw) a).sm.raw = raw := by rw [rawNoted, modSm, axOf_modAx]
  rw [parseJob_placed ((axLane_of_axFrame hv a).trans hl), newRoom_of_axFrame hv, parserJob_of_axFrame hv]
  cases hn : newRoom u ln (parserJob u a)
  · rw [if_neg Bool.false_ne_true]
    refine ⟨(raw_jobHeld b _ ln (parserJob u a)).trans hraw, fun h => ?_, fun _ => ⟨?_, ?_, ?_⟩⟩
    · rw [hn] at h
      cases h
    · rw [brOf_jobHeld, hbr, hh]
      rfl
    · rw [lnAll_jobHeld, hln.1]
    · rw [bpHolds_jobHeld, hln.2]
  · rw [if_pos rfl]
    refine ⟨(raw_axEnter _ ln (parserJob u a)).trans hraw, fun _ => ⟨?_, mem_axEnter _ _ _⟩, fun h => ?_⟩
    · rw [brOf_of_brs (brs_axEnter _ ln (parserJob u a)), hbr, hh]
    · rw [hn] at h
      cases h

/-- A frame that is over touches its branch only. -/
theorem JobCreated.over {u t : State} {b ln : Nat} {j : Job} {raw : RawIn} (h : JobCreated u b ln j raw t) : JobCreated u b ln j raw (frameOver t b) :=
  ⟨h.raw, fun hn => ⟨(held_frameOver t b).trans (h.enters hn).1, (h.enters hn).2⟩, fun hn => ⟨(held_frameOver t b).trans (h.waits hn).1, (h.waits hn).2⟩⟩

section
variable {s : State} {b : BranchNo} {tt : Nat}

theorem exec_frameParse (s : State) (b : BranchNo) (tt : Nat) :
    exec (.frameParse ⟨b, tt⟩) s = finishD s (when (!parsesOnly s && !s.clk.afterDl) (fun u => frameParse (loomTo u tt) b) s) := rfl
theorem exec_frameParse_on (hp : parsesOnly s = false) (ha : s.clk.afterDl = false) :
    exec (.frameParse ⟨b, tt⟩) s = finishD s (frameParse (loomTo s tt) b) := by
  rw [exec_frameParse, hp, ha]
  rfl
theorem frameParse_off (h : parsesOnly s = true ∨ s.clk.afterDl = true) : exec (.frameParse ⟨b, tt⟩) s = .next s := by
  have hc : (!parsesOnly s && !s.clk.afterDl) = false := by rcases h with h | h <;> simp [h]
  rw [exec_frameParse, hc]
  rfl
theorem brOf_loomTo (s : State) (tt k : Nat) : brOf (loomTo s tt) k = brOf s k := by
  rw [loomTo_frame]
  rfl
theorem lncOf_loomTo (s : State) (tt ln : Nat) : lncOf (loomTo s tt) ln = lncOf s ln := by
  rw [loomTo_frame]
  rfl
theorem frameParse_waits (hp : parsesOnly s = false) (ha : s.clk.afterDl = false) (h : (brOf s b).held ≠ [] ∨ (brOf s b).rxBuf = []) :
    exec (.frameParse ⟨b, tt⟩) s = .next (loomTo s tt) := by
  rw [exec_frameParse_on hp ha, frameParse_idle (by simpa only [brOf_loomTo] using h), loomTo_frame]
  rfl

/-- The oldest frame of a branch is worked on: what the parser leaves of everything but axes and lanes. -/
theorem frameParse_goes {f : RxFrame} {fs : List RxFrame} (hp : parsesOnly s = false) (ha : s.clk.afterDl = false) (hh : (brOf s b).held = [])
    (hr : (brOf s b).rxBuf = f :: fs) :
    let u := loomTo s tt
    goes (.frameParse ⟨b, tt⟩) s (fun t =>
      t.pending = s.pending ∧ t.ddr = s.ddr ∧ t.dmp = s.dmp ∧ t.par = s.par ∧ t.clk = u.clk ∧ t.warp = s.warp ∧ brsBut s t b ∧
      (brOf t b).rxBuf = (if (brOf t b).held = [] then fs else f :: fs) ∧
      ((ndOf s f.node).muted = true → t = modBr u b (fun x => { x with rxBuf := fs })) ∧
      (f.axes = [] → (brOf t b).held = [] ∧ t.lanes = u.lanes) ∧
      ∀ l raw a ln, (ndOf s f.node).muted = false → f.axes = [(l, raw)] → axAt s f.node l = some a → (axOf s a).sm.jobDue = true → axLane s a = some ln →
        JobCreated u b ln { kind := 1, id := a, prio := axPrio s a, made := u.clk.now } raw t) := by
  intro u
  have hu : u = { s with lanes := u.lanes, clk := u.clk } := loomTo_frame s tt
  have hhu : (brOf u b).held = [] := by rw [brOf_loomTo, hh]
  have hru : (brOf u b).rxBuf = f :: fs := by rw [brOf_loomTo, hr]
  have hnd : ndOf u f.node = ndOf s f.node := by rw [hu]; rfl
  have he := exec_frameParse_on (b := b) (tt := tt) hp ha
  rw [frameParse_oldest hhu hru, hnd] at he
  have hf : parseFrame b u (if (ndOf s f.node).muted = true then u else frameJobs u b f) :=
    (parseFrames b).ite ((parseFrames b).refl u) (parseFrame_frameJobs u b f)
  have free {v : State} (h : v = u) : frameOver v b = modBr u b (fun x => { x with rxBuf := fs }) := by
    rw [h]
    exact frameOver_free hhu hru
  have job (l raw a ln) (hm : (ndOf s f.node).muted = false) (hx : f.axes = [(l, raw)]) (hat : axAt s f.node l = some a) (hd : (axOf s a).sm.jobDue = true)
      (hl : axLane s a = some ln) : JobCreated u b ln { kind := 1, id := a, prio := axPrio s a, made := u.clk.now } raw
        (frameOver (if (ndOf s f.node).muted = true then u else frameJobs u b f) b) := by
    have hj : parserJob u a = { kind := 1, id := a, prio := axPrio s a, made := u.clk.now } := by rw [hu]; rfl
    rw [if_neg (by simp [hm]), frameJobs_one hx (by rw [hu]; exact hat) (by rw [hu]; exact hd), ← hj]
    exact (jobCreated_parseJob raw (axFrame_statusWord u a _ _) hhu (by rw [hu]; exact hl)).over
  have bare (hx : f.axes = []) : (if (ndOf s f.node).muted = true then u else frameJobs u b f) = u := by rw [frameJobs_none hx, ite_self]
  have mute (hm : (ndOf s f.node).muted = true) : (if (ndOf s f.node).muted = true then u else frameJobs u b f) = u := if_pos hm
  generalize (if (ndOf s f.node).muted = true then u else frameJobs u b f) = v at *
  obtain ⟨hpe, hdd, hdm, hpa, hck, hwa⟩ := hf.rest
  have su {α : Type} (p : State → α) (h : p { s with lanes := u.lanes, clk := u.clk } = p s := by rfl) : p u = p s := by rw [hu]; exact h
  refine goes_quiet he (.refl _) ⟨hpe.trans (su State.pending), hdd.trans (su State.ddr), hdm.trans (su State.dmp), hpa.trans (su State.par), hck,
    hwa.trans (su State.warp), fun k hk => ?_, ?_, fun hm => free (mute hm), fun hx => ?_, job⟩
    (hpe.trans (su State.pending)) (hdd.trans (su State.ddr)) (hdm.trans (su State.dmp))
  · rw [frameOver, brOf_modBr_other _ _ hk, hf.2.1 k hk, brOf_loomTo]
  · rw [rxBuf_frameOver, hf.2.2, hru]
    rfl
  · rw [held_frameOver, bare hx, hhu, frameOver_free hhu hru]
    exact ⟨rfl, rfl⟩
end

/-! ### HELD_JOB_ENTER (R174) -/

/-- The list of a held job has room behind the jobs held before it. -/
def heldFits (s : State) (j : Job) : Bool :=
  match jobLane s j with
  | some ln => decide ((lnList (laneOf s ln) j.prio).length + heldBefore s ln j < 128)
  | none => false
/-- A held job of a branch enters its list, and with the last one the frame leaves the buffer. -/
def heldEntered (s : State) (b ln : Nat) (j : Job) : State :=
  let rest := (brOf s b).held.filter (fun k => k != j)
  modBr (axEnter s ln j) b (fun x => { x with held := rest, rxBuf := if rest = [] then x.rxBuf.drop 1 else x.rxBuf })

section
variable {s : State} {b : Nat} {j : Job} {ln : Nat}
theorem heldEnter_none (h : (brOf s b).held.find? (heldFits s) = none) : heldEnter s b = s := by
  show (match (brOf s b).held.find? (heldFits s) with | none => s | some j => _) = s
  rw [h]
theorem heldEnter_some (h : (brOf s b).held.find? (heldFits s) = some j) (hl : jobLane s j = some ln) : heldEnter s b = heldEntered s b ln j := by
  show (match (brOf s b).held.find? (heldFits s) with
    | none => s
    | some j => match jobLane s j with | none => s | some ln => heldEntered s b ln j) = _
  rw [h]
  simp only [hl]
theorem heldEntered_frame : quiet { s with brs := (heldEntered s b ln j).brs, lanes := (heldEntered s b ln j).lanes, lnCnt := (heldEntered s b ln j).lnCnt,
                                           axes := (heldEntered s b ln j).axes } (heldEntered s b ln j) := rfl
theorem brsBut_heldEntered : brsBut s (heldEntered s b ln j) b := fun k hk => by
  rw [heldEntered, brOf_modBr_other _ _ hk, brOf_of_brs (brs_axEnter s ln j)]
theorem axesBut_heldEntered : axesBut s (heldEntered s b ln j) j.id := axesBut_axEnter s ln j
theorem brOf_heldEntered : brOf (heldEntered s b ln j) b = { brOf s b with
    held := (brOf s b).held.filter (fun k => k != j),
    rxBuf := if (brOf s b).held.filter (fun k => k != j) = [] then (brOf s b).rxBuf.drop 1 else (brOf s b).rxBuf } := by
  rw [heldEntered, brOf_modBr]
  rfl
end

section
variable {s : State} {b : BranchNo}
theorem heldJob_stays (h : (brOf s b).held.find? (heldFits (lanesGo s)) = none) : exec (.heldJobEnter b) s = .next (lanesGo s) := by
  show finishD s (heldEnter (lanesGo s) b) = _
  rw [heldEnter_none (s := lanesGo s) h]
  rfl
theorem heldJob_enters {j : Job} {ln : Nat} (h : (brOf s b).held.find? (heldFits (lanesGo s)) = some j) (hl : jobLane (lanesGo s) j = some ln) :
    goes (.heldJobEnter b) s (fun t =>
      quiet { s with brs := t.brs, lanes := t.lanes, lnCnt := t.lnCnt, axes := t.axes } t ∧ brsBut s t b ∧ axesBut s t j.id ∧
      j ∈ lnList (laneOf t ln) j.prio ∧ (brOf t b).held = (brOf s b).held.filter (fun k => k != j) ∧
      (brOf t b).rxBuf = (if (brOf t b).held = [] then (brOf s b).rxBuf.drop 1 else (brOf s b).rxBuf)) := by
  have he : exec (.heldJobEnter b) s = finishD s (heldEntered (lanesGo s) b ln j) := by
    rw [← heldEnter_some (s := lanesGo s) h hl]
    rfl
  have hb := brOf_heldEntered (s := lanesGo s) (b := b) (j := j) (ln := ln)
  have hbr : ∀ k, brOf (lanesGo s) k = brOf s k := fun _ => rfl
  have hax : ∀ k, axOf (lanesGo s) k = axOf s k := fun _ => rfl
  have hq := heldEntered_frame (s := lanesGo s) (b := b) (j := j) (ln := ln)
  refine ⟨heldEntered (lanesGo s) b ln j, he.trans (finishD_quiet hq), hq, fun k hk => ?_, fun k hk => ?_, mem_axEnter (lanesGo s) ln j, ?_, ?_⟩
  · rw [brsBut_heldEntered k hk, hbr]
  · rw [axesBut_heldEntered k hk, hax]
  · rw [hb, hbr]
  · rw [hb, hbr]
end

end Sys2Proof.Machine

/-- Settles O38: a frame by whether its node is muted and its list has room (`frameParse_oldest`, `jobCreated_parseJob`), a held job by whether
one fits (`heldEnter_some`, `heldEnter_none`). -/
theorem parserRows : Obligations.ParserRows := by
  intro s b tt
  refine ⟨fun f fs hp ha hh hr => ?_, frameParse_waits, frameParse_off, fun j ln => heldJob_enters, heldJob_stays⟩
  obtain ⟨t, he, hpe, hdd, hdm, hpa, hck, hwa, hb, hrx, hm, hx, hj⟩ := frameParse_goes (tt := tt) hp ha hh hr
  refine ⟨t, he, hpe, hdd, hdm, hpa, hck, hwa, hb, hrx, hm, hx, fun l raw a ln hmu hax hat hd hl => ?_⟩
  obtain ⟨hraw, hin, hheld⟩ := hj l raw a ln hmu hax hat hd hl
  refine ⟨hraw, hin, fun hn => ?_⟩
  obtain ⟨hb, hall, hbp⟩ := hheld hn
  exact ⟨hb, hall, hbp.trans (by rw [lncOf_loomTo])⟩
end

section
/-! The gate of an up slot (R136, R138, R145, R146, R173, R175): its class, what the guardian records of it, and where an accepted frame goes. -/
open Sys2Proof Sys2Proof.Machine
namespace Sys2Proof.Machine

/-! ### The assignment begins -/

section
variable (s : State) (n : Nat) (g : SlotAsg) (o : GateObs)
theorem gateOpen_frame : quiet { s with nodes := (gateOpen s n g o).nodes, brs := (gateOpen s n g o).brs, brCnt := (gateOpen s n g o).brCnt } (gateOpen s n g o) := rfl
theorem ndOf_gateOpen : ndOf (gateOpen s n g o) n = { asgBegin (ndOf s n).desc g (ndOf s n) with gateNow := true } :=
  ndOf_modNd s n fun d => { asgBegin (ndOf s n).desc g d with gateNow := true }
theorem brOf_gateOpen : brOf (gateOpen s n g o) (n / 4) = { brOf s (n / 4) with runOn := if o.energyAtClose then some (n % 4) else none } :=
  brOf_modBr s (n / 4) fun r => { r with runOn := if o.energyAtClose then some (n % 4) else none }
theorem brsBut_gateOpen : brsBut s (gateOpen s n g o) (n / 4) := brsBut_modBr s (n / 4) fun r => { r with runOn := if o.energyAtClose then some (n % 4) else none }
theorem brcOf_gateOpen : brcOf (gateOpen s n g o) (n / 4) = { brcOf s (n / 4) with codeViol := satAdd 32 (brcOf s (n / 4)).codeViol o.codeViol } :=
  brcOf_modBrc s (n / 4) fun c => { c with codeViol := satAdd 32 c.codeViol o.codeViol }
theorem asgBegin_noFrame (desc : Bytes) (d : Node) : (asgBegin desc g d).noFrame = d.noFrame ∧ (asgBegin desc g d).viol = d.viol := by
  unfold asgBegin
  split <;> exact ⟨rfl, rfl⟩
end

/-! ### What the guardian records (R136, R138, R139, R145) -/

/-- A gate recorded as its class says. -/
def gateJudged (s : State) (n : Nat) (o : GateObs) (c : GateClass) : State := if c = .accepted then gateAccepted s n o else gateRefused s n c

/-- Of the counters of the classes, that of one class counts. -/
def countsClass (c : GateClass) (x y : NodeCnt) : Prop :=
  y.framesOk = (if c = .accepted then satInc 32 x.framesOk else x.framesOk) ∧
  y.missed = (if c = .missed then satInc 32 x.missed else x.missed) ∧
  y.corr = (if c = .corrupted then satInc 32 x.corr else x.corr) ∧
  y.corrEopen = (if c = .corrOpen then satInc 32 x.corrEopen else x.corrEopen) ∧
  y.violBand = (if c = .outOfBand then satInc 32 x.violBand else x.violBand) ∧
  y.violOvr = (if c = .overrun then satInc 32 x.violOvr else x.violOvr)

/-- What the guardian's record of a gate leaves. -/
structure Judged (s : State) (n : Nat) (o : GateObs) (c : GateClass) (t : State) : Prop where
  frame : quiet { s with nodes := t.nodes, ndCnt := t.ndCnt } t
  counts : countsClass c (ndcOf s n) (ndcOf t n)
  others : ∀ k, k ≠ n → ndcOf t k = ndcOf s k
  gate : (ndOf t n).gateNow = (ndOf s n).gateNow
  taken : c = .accepted → (ndOf t n).accNow = true ∧ (ndOf t n).noFrame = 0 ∧ (ndcOf t n).ofsLast = o.start.getD 0
  refused : c ≠ .accepted → (ndOf t n).noFrame = (ndOf s n).noFrame + 1
  viol : (ndOf t n).viol = (ndOf s n).viol + if c = .overrun ∨ c = .outOfBand then 1 else 0

section
variable (s : State) (n : Nat) (o : GateObs)
/-- The counters of a node behind a gate whose frame is not used. -/
def refusedCounts (c : GateClass) (x : NodeCnt) : NodeCnt :=
  match c with
  | .overrun => { x with violOvr := satInc 32 x.violOvr }
  | .outOfBand => { x with violBand := satInc 32 x.violBand }
  | .corrOpen => { x with corrEopen := satInc 32 x.corrEopen }
  | .corrupted => { x with corr := satInc 32 x.corr }
  | .missed => { x with missed := satInc 32 x.missed }
  | .accepted => x
theorem ndcOf_gateRefused (c : GateClass) : ndcOf (gateRefused s n c) n = refusedCounts c (ndcOf s n) := ndcOf_modNdc s n (refusedCounts c)
theorem ndOf_gateRefused (c : GateClass) : ndOf (gateRefused s n c) n =
    { ndOf s n with noFrame := (ndOf s n).noFrame + 1, viol := if c = .overrun || c = .outOfBand then (ndOf s n).viol + 1 else (ndOf s n).viol } :=
  ndOf_modNd s n fun x => { x with noFrame := x.noFrame + 1, viol := if c = .overrun || c = .outOfBand then x.viol + 1 else x.viol }
theorem judged_gateRefused {c : GateClass} (hc : c ≠ .accepted) : Judged s n o c (gateRefused s n c) := by
  refine ⟨rfl, ?_, fun k hk => ndcOf_modNdc_other s (refusedCounts c) hk, ?_, fun h => absurd h hc, fun _ => ?_, ?_⟩
  · rw [ndcOf_gateRefused]
    cases c <;> simp [countsClass, refusedCounts] at hc ⊢
  · rw [ndOf_gateRefused]
  · rw [ndOf_gateRefused]
  · rw [ndOf_gateRefused]
    cases c <;> rfl
/-- How far DOWN_BAD has gone on since the frame before (R145). -/
def downBadInc (o : GateObs) (d : Node) : Nat := match d.lastDb with | some p => (upDownBad o.frame + 256 - p) % 256 | none => 0
/-- The counters of a node behind an accepted frame. -/
def acceptedCounts (o : GateObs) (d : Node) (x : NodeCnt) : NodeCnt :=
  { x with framesOk := satInc 32 x.framesOk, ofsLast := o.start.getD 0, ofsMax := imax x.ofsMax (o.start.getD 0), ofsMin := imin x.ofsMin (o.start.getD 0),
           downBad := satAdd 32 x.downBad (downBadInc o d) }
theorem ndcOf_gateAccepted : ndcOf (gateAccepted s n o) n = acceptedCounts o (ndOf s n) (ndcOf s n) := ndcOf_modNdc s n (acceptedCounts o (ndOf s n))
theorem ndOf_gateAccepted : ndOf (gateAccepted s n o) n = { ndOf s n with
    noFrame := 0, accNow := true, lastDb := some (upDownBad o.frame), sumDelta := (ndOf s n).sumDelta + o.start.getD 0, nDelta := (ndOf s n).nDelta + 1 } :=
  ndOf_modNd s n fun x => { x with noFrame := 0, accNow := true, lastDb := some (upDownBad o.frame), sumDelta := x.sumDelta + o.start.getD 0, nDelta := x.nDelta + 1 }
theorem judged_gateAccepted : Judged s n o .accepted (gateAccepted s n o) := by
  refine ⟨rfl, ?_, fun k hk => ndcOf_modNdc_other s (acceptedCounts o (ndOf s n)) hk, ?_, fun _ => ?_, fun h => absurd rfl h, ?_⟩
  · rw [ndcOf_gateAccepted]
    simp [countsClass, acceptedCounts]
  · rw [ndOf_gateAccepted]
  · rw [ndOf_gateAccepted, ndcOf_gateAccepted]
    exact ⟨rfl, rfl, rfl⟩
  · rw [ndOf_gateAccepted]
    rfl
theorem judged_gateJudged (c : GateClass) : Judged s n o c (gateJudged s n o c) := by
  unfold gateJudged
  split
  · next h =>
    subst h
    exact judged_gateAccepted s n o
  · next h => exact judged_gateRefused s n o h
end

/-! ### What takes a frame leaves of the guardian's record (R160, R173, R175, R475) -/

/-- What the guardian keeps of a node for its own rows. -/
def guardOf (d : Node) : Bool × Bool × Nat × Nat := (d.gateNow, d.accNow, d.noFrame, d.viol)
/-- What a frame, or its absence, may change beside the guardian's record: nodes, axes, and the branch of the node, but not its count of code violations. -/
def slotFrame (n : Nat) (s t : State) : Prop :=
  quiet { s with nodes := t.nodes, brs := t.brs, brCnt := t.brCnt, axes := t.axes } t ∧ brsBut s t (n / 4) ∧
    (brcOf t (n / 4)).codeViol = (brcOf s (n / 4)).codeViol ∧ guardOf (ndOf t n) = guardOf (ndOf s n)
theorem slotSteps (n : Nat) : Steps (slotFrame n) where
  refl _ := ⟨rfl, fun _ _ => rfl, rfl, rfl⟩
  trans := fun ⟨h, hb, hv, hg⟩ ⟨k, kb, kv, kg⟩ => by
    refine ⟨?_, hb.trans kb, kv.trans hv, kg.trans hg⟩
    unfold quiet at *
    rw [k, h]

/-- Of the axes and the event log alone. -/
theorem faceFrame.kept {s t : State} (h : faceFrame s t) : t.nodes = s.nodes ∧ t.brs = s.brs ∧ t.brCnt = s.brCnt := by
  unfold faceFrame at h
  rw [h]
  exact ⟨rfl, rfl, rfl⟩
theorem brcOf_of_brCnt {s t : State} (h : t.brCnt = s.brCnt) (b : Nat) : brcOf t b = brcOf s b := by
  unfold brcOf
  rw [h]
theorem faceFrame.slot {s t : State} (h : faceFrame s t) (n : Nat) : slotFrame n s t := by
  obtain ⟨hn, hb, hc⟩ := h.kept
  refine ⟨?_, fun k _ => brOf_of_brs hb k, congrArg BranchCnt.codeViol (brcOf_of_brCnt hc _), congrArg guardOf (ndOf_of_nodes hn n)⟩
  unfold faceFrame at h
  unfold quiet
  rw [h]

section
variable (s : State) (n : Nat)
theorem faceFrame_codeStats (fo : FrameOut) (ls : List LaxInfo) : faceFrame s (codeStats n fo ls s) := by
  unfold codeStats
  refine faceSteps.loop _ (fun t l => ?_) s
  split
  · exact faceSteps.refl t
  · next a _ =>
    extract_lets mine er t1
    have h1 : faceFrame t t1 := faceFrame_modAx t a _
    clear_value t1
    exact faceSteps.ite h1 (faceSteps.trans h1 (faceSteps.trans (faceFrame_modAx t1 a _) (faceFrame_raise _ _ _ _)))
theorem faceFrame_dueCause (c : Nat) : faceFrame s (dueCause s n c) := faceSteps.loop _ (fun t a => faceFrame_modAx t a _) s
theorem faceFrame_standbyAxis (a : Nat) (raw : RawIn) : faceFrame s (standbyAxis s a raw) := by
  unfold standbyAxis
  split
  · exact faceSteps.ite (faceSteps.trans (faceFrame_modAx s a _) (faceFrame_modAx _ a _)) (faceFrame_modAx s a _)
  · exact faceSteps.refl s
theorem slotFrame_modNd {f : Node → Node} (hf : ∀ d, guardOf (f d) = guardOf d) : slotFrame n s (modNd s n f) :=
  ⟨rfl, fun _ _ => rfl, rfl, by rw [ndOf_modNd, hf]⟩
theorem slotFrame_modBr (f : Branch → Branch) : slotFrame n s (modBr s (n / 4) f) := ⟨rfl, brsBut_modBr s _ f, rfl, rfl⟩
theorem slotFrame_modBrc {f : BranchCnt → BranchCnt} (hf : ∀ c, (f c).codeViol = c.codeViol) : slotFrame n s (modBrc s (n / 4) f) :=
  ⟨rfl, fun _ _ => rfl, by rw [brcOf_modBrc, hf], rfl⟩

theorem guardOf_waitCount (d : Node) : guardOf (waitCount d) = guardOf d := by
  unfold waitCount
  split <;> rfl
theorem chans_waitCount (d : Node) : (waitCount d).chans = d.chans := by
  unfold waitCount
  split <;> rfl
theorem guardOf_notAccepted (p : BitVec 32) (d : Node) : guardOf (notAccepted p d) = guardOf d := by
  unfold notAccepted
  split <;> rfl

theorem slotFrame_standbyGate (ls : List LaxInfo) (u : Nat) (acc : Bool) (fo : FrameOut) (db : Nat) : slotFrame n s (standbyGate s n ls u acc fo db) := by
  unfold standbyGate
  extract_lets clear s1
  split
  · have h0 : slotFrame n s (modNd s n fun d => clear { d with lastAcc := some (ps s, db), chans := fo.chans, sync := .sync }) := slotFrame_modNd s n fun _ => rfl
    have h1 : slotFrame n s s1 := (slotSteps n).trans h0 ((faceFrame_codeStats _ n fo ls).slot n)
    clear_value s1
    refine (slotSteps n).trans h1 ((slotSteps n).loop _ (fun t p => ?_) s1)
    split
    · exact (faceFrame_standbyAxis t _ _).slot n
    · exact (slotSteps n).refl t
  · exact slotFrame_modNd s n fun _ => rfl
end

/-! ### The buffer of the branch (R173, R175) -/

section
variable (s : State) (n : Nat) (ls : List LaxInfo) (fo : FrameOut) (db : Nat)
/-- An accepted frame is decoded: the channels, the statistics of coding, and what may keep the jobs of its axes waiting. -/
def frameDecoded : State := dueCause (codeStats n fo ls (modNd s n (accNode s fo db))) n 3
/-- An accepted frame goes to the end of its branch's buffer. -/
def frameBuffered : State :=
  modBr (frameDecoded s n ls fo db) (n / 4) (fun r => { r with rxBuf := r.rxBuf ++ [{ node := n, discarded := fo.discarded, axes := fo.axes }] })
/-- An accepted frame without room in the buffer is dropped and counted. -/
def frameDropped : State := dueCause (modBrc (modNd s n (notAccepted (ps s))) (n / 4) (fun c => { c with rxDrop := satInc 32 c.rxDrop })) n 3

theorem activeGate_room (h : (brOf s (n / 4)).rxBuf.length < 2) : activeGate s n ls true fo db = modNd (frameBuffered s n ls fo db) n waitCount := by
  have hf : decide (2 ≤ (brOf s (n / 4)).rxBuf.length) = false := decide_eq_false (by omega)
  unfold activeGate
  simp only [hf]
  rfl
theorem activeGate_full (h : 2 ≤ (brOf s (n / 4)).rxBuf.length) : activeGate s n ls true fo db = modNd (frameDropped s n) n waitCount := by
  unfold activeGate
  simp only [decide_eq_true h]
  rfl
theorem activeGate_refused : activeGate s n ls false fo db = modNd (modNd s n (notAccepted (ps s))) n waitCount := rfl

theorem slotFrame_waitCount : slotFrame n s (modNd s n waitCount) := slotFrame_modNd s n guardOf_waitCount
theorem faceFrame_frameDecoded : faceFrame (modNd s n (accNode s fo db)) (frameDecoded s n ls fo db) :=
  faceSteps.trans (faceFrame_codeStats _ n fo ls) (faceFrame_dueCause _ n 3)
theorem slotFrame_frameBuffered : slotFrame n s (frameBuffered s n ls fo db) :=
  (slotSteps n).trans ((slotSteps n).trans (slotFrame_modNd s n (f := accNode s fo db) fun _ => rfl) ((faceFrame_frameDecoded s n ls fo db).slot n)) (slotFrame_modBr _ n _)
theorem slotFrame_frameDropped : slotFrame n s (frameDropped s n) := by
  have h : slotFrame n s (modBrc (modNd s n (notAccepted (ps s))) (n / 4) fun c => { c with rxDrop := satInc 32 c.rxDrop }) :=
    (slotSteps n).trans (slotFrame_modNd s n (guardOf_notAccepted _)) (slotFrame_modBrc _ n fun _ => rfl)
  exact (slotSteps n).trans h ((faceFrame_dueCause _ n 3).slot n)
theorem slotFrame_activeGate (acc : Bool) : slotFrame n s (activeGate s n ls acc fo db) := by
  cases acc
  · exact (slotSteps n).trans (slotFrame_modNd s n (guardOf_notAccepted _)) (slotFrame_waitCount _ n)
  · by_cases h : (brOf s (n / 4)).rxBuf.length < 2
    · rw [activeGate_room s n ls fo db h]
      exact (slotSteps n).trans (slotFrame_frameBuffered s n ls fo db) (slotFrame_waitCount _ n)
    · rw [activeGate_full s n ls fo db (Nat.not_lt.mp h)]
      exact (slotSteps n).trans (slotFrame_frameDropped s n) (slotFrame_waitCount _ n)

/-- With room, an accepted frame is the last of the buffer, and its channels are the decoder's state. -/
theorem activeGate_buffers (h : (brOf s (n / 4)).rxBuf.length < 2) :
    (brOf (activeGate s n ls true fo db) (n / 4)).rxBuf = (brOf s (n / 4)).rxBuf ++ [{ node := n, discarded := fo.discarded, axes := fo.axes }] ∧
    (ndOf (activeGate s n ls true fo db) n).chans = fo.chans ∧ (brcOf (activeGate s n ls true fo db) (n / 4)).rxDrop = (brcOf s (n / 4)).rxDrop := by
  obtain ⟨hn, hb, hc⟩ := (faceFrame_frameDecoded s n ls fo db).kept
  rw [activeGate_room s n ls fo db h]
  refine ⟨?_, ?_, ?_⟩
  · have he : brOf (modNd (frameBuffered s n ls fo db) n waitCount) (n / 4) = brOf (frameBuffered s n ls fo db) (n / 4) := rfl
    rw [he, frameBuffered, brOf_modBr, brOf_of_brs hb]
    rfl
  · rw [ndOf_modNd, chans_waitCount, frameBuffered, ndOf_modBr, ndOf_of_nodes hn, ndOf_modNd]
    rfl
  · exact congrArg BranchCnt.rxDrop (brcOf_of_brCnt hc (n / 4))
/-- Without room it is dropped and counted. -/
theorem activeGate_drops (h : 2 ≤ (brOf s (n / 4)).rxBuf.length) :
    (brOf (activeGate s n ls true fo db) (n / 4)).rxBuf = (brOf s (n / 4)).rxBuf ∧
    (brcOf (activeGate s n ls true fo db) (n / 4)).rxDrop = satInc 32 (brcOf s (n / 4)).rxDrop := by
  obtain ⟨-, hb, hc⟩ := (faceFrame_dueCause (modBrc (modNd s n (notAccepted (ps s))) (n / 4) fun c => { c with rxDrop := satInc 32 c.rxDrop }) n 3).kept
  rw [activeGate_full s n ls fo db h]
  refine ⟨congrArg Branch.rxBuf (brOf_of_brs hb (n / 4)), ?_⟩
  have he := brcOf_of_brCnt hc (n / 4)
  rw [brcOf_modBrc] at he
  exact congrArg BranchCnt.rxDrop he
end

/-! ### UP_SLOT_GATE_CLOSE (R136) -/

theorem upGate_eq (s : State) (n : Nat) (g : SlotAsg) (o : GateObs) :
    let j := gateJudged (gateOpen s n g o) n o (upClass s n g o)
    let ls := laxInfos (ndOf s n).desc g
    let fo := gateFrame (gateOpen s n g o) n g o
    let acc := decide (upClass s n g o = .accepted)
    upGate s n g o = if parsesOnly s then standbyGate j n ls ((ps s).toNat / 2 ^ g.rcode) acc fo (upDownBad o.frame)
      else activeGate j n ls acc fo (upDownBad o.frame) := rfl

/-- The gate of a node is due and open (R135, R136). -/
def slotOpen (s : State) (n : Nat) : Prop := nodeDue s n = true ∧ (ndOf s n).gateNow = false ∧ (branchOn s (n / 4) = true ∨ isStandby s = true)

section
variable {s : State} {n : NodeNo} {o : GateObs}
theorem exec_upSlot_open {g : SlotAsg} (hg : asgOf s n = some g) (h : slotOpen s n) : exec (.upSlotGateClose n o) s = finishD s (upGate s n g o) := by
  show finishD s (match asgOf s n with | some g => _ | none => s) = _
  rw [hg]
  exact congrArg (finishD s) (if_pos h)
theorem upSlot_idle (h : asgOf s n = none ∨ ¬ slotOpen s n) : exec (.upSlotGateClose n o) s = .next s := by
  show finishD s (match asgOf s n with | some g => _ | none => s) = finishD s s
  rcases hg : asgOf s n with _ | g
  · rfl
  · exact congrArg (finishD s) (if_neg (h.resolve_left (by simp [hg])))
end

section
variable (s : State) (n : Nat) (g : SlotAsg) (o : GateObs)
/-- The guardian's record of the gate of a slot. -/
def slotJudged : State := gateJudged (gateOpen s n g o) n o (upClass s n g o)
theorem judged_slotJudged : Judged (gateOpen s n g o) n o (upClass s n g o) (slotJudged s n g o) := judged_gateJudged _ n o _
theorem slotFrame_upGate : slotFrame n (slotJudged s n g o) (upGate s n g o) := by
  rw [upGate_eq]
  exact (slotSteps n).ite (slotFrame_standbyGate _ n _ _ _ _ _) (slotFrame_activeGate _ n _ _ _ _)

/-- What a gate that is due leaves of the node's and the branch's records. -/
structure SlotClosed (c : GateClass) (t : State) : Prop where
  frame : quiet { s with nodes := t.nodes, ndCnt := t.ndCnt, brs := t.brs, brCnt := t.brCnt, axes := t.axes } t
  counts : countsClass c (ndcOf s n) (ndcOf t n)
  viols : (brcOf t (n / 4)).codeViol = satAdd 32 (brcOf s (n / 4)).codeViol o.codeViol
  gate : (ndOf t n).gateNow = true
  taken : c = .accepted → (ndOf t n).accNow = true ∧ (ndOf t n).noFrame = 0 ∧ (ndcOf t n).ofsLast = o.start.getD 0
  refused : c ≠ .accepted → (ndOf t n).noFrame = (ndOf s n).noFrame + 1
  viol : (ndOf t n).viol = (ndOf s n).viol + if c = .overrun ∨ c = .outOfBand then 1 else 0
  nodes : ∀ k, k ≠ n → ndcOf t k = ndcOf s k
  branches : brsBut s t (n / 4)

/-- The guardian's record leaves the branches. -/
theorem Judged.branches {s t : State} {n : Nat} {o : GateObs} {c : GateClass} (h : Judged s n o c t) : t.brs = s.brs ∧ t.brCnt = s.brCnt := by
  have hf := h.frame
  unfold quiet at hf
  rw [hf]
  exact ⟨rfl, rfl⟩
/-- The begin of an assignment, the guardian's record and what takes the frame, one after the other. -/
theorem slotClosed_frame {s v j t : State} (h : quiet { s with nodes := v.nodes, brs := v.brs, brCnt := v.brCnt } v)
    (k : quiet { v with nodes := j.nodes, ndCnt := j.ndCnt } j) (l : quiet { j with nodes := t.nodes, brs := t.brs, brCnt := t.brCnt, axes := t.axes } t) :
    quiet { s with nodes := t.nodes, ndCnt := t.ndCnt, brs := t.brs, brCnt := t.brCnt, axes := t.axes } t := by
  unfold quiet at *
  rw [l, k, h]
theorem slotClosed_upGate : SlotClosed s n o (upClass s n g o) (upGate s n g o) := by
  have hj := judged_slotJudged s n g o
  have hf := slotFrame_upGate s n g o
  generalize slotJudged s n g o = j at hj hf
  generalize upGate s n g o = t at hf
  generalize upClass s n g o = c at hj
  obtain ⟨hq, hb, hv, hgu⟩ := hf
  obtain ⟨hbrs, hcnt⟩ := hj.branches
  obtain ⟨hgate, hacc, hno, hvi⟩ : _ ∧ _ ∧ _ ∧ _ := by simpa only [guardOf, Prod.mk.injEq] using hgu
  obtain ⟨hno0, hvi0⟩ := asgBegin_noFrame g (ndOf s n).desc (ndOf s n)
  have hndc : ∀ k, ndcOf t k = ndcOf j k := fun k => by
    unfold quiet at hq
    rw [hq]
    rfl
  have hndc0 : ∀ k, ndcOf (gateOpen s n g o) k = ndcOf s k := fun _ => rfl
  have hnd0 := ndOf_gateOpen s n g o
  refine ⟨slotClosed_frame (gateOpen_frame s n g o) hj.frame hq, ?_, ?_, ?_, fun hc => ?_, fun hc => ?_, ?_, fun k hk => ?_, ?_⟩
  · rw [hndc, ← hndc0]
    exact hj.counts
  · rw [hv, brcOf_of_brCnt hcnt, brcOf_gateOpen]
  · rw [hgate, hj.gate, hnd0]
  · obtain ⟨h1, h2, h3⟩ := hj.taken hc
    exact ⟨hacc.trans h1, hno.trans h2, by rw [hndc, h3]⟩
  · rw [hno, hj.refused hc, hnd0]
    exact congrArg (· + 1) hno0
  · rw [hvi, hj.viol, hnd0]
    exact congrArg (· + _) hvi0
  · rw [hndc, hj.others k hk, hndc0]
  · exact (brsBut_gateOpen s n g o).trans fun k hk => (hb k hk).trans (brOf_of_brs hbrs k)
end

/-- Where the frame of a gate goes at the active controller: into the branch's buffer and the decoder's state, or nowhere. -/
structure SlotPassed (s : State) (n : NodeNo) (c : GateClass) (f : FrameOut) (t : State) : Prop where
  buffered : c = .accepted → (brOf s (n.val / 4)).rxBuf.length < 2 →
    (brOf t (n.val / 4)).rxBuf = (brOf s (n.val / 4)).rxBuf ++ [{ node := n, discarded := f.discarded, axes := f.axes }] ∧
      (ndOf t n).chans = f.chans ∧ (brcOf t (n.val / 4)).rxDrop = (brcOf s (n.val / 4)).rxDrop
  dropped : c = .accepted → 2 ≤ (brOf s (n.val / 4)).rxBuf.length →
    (brOf t (n.val / 4)).rxBuf = (brOf s (n.val / 4)).rxBuf ∧ (brcOf t (n.val / 4)).rxDrop = satInc 32 (brcOf s (n.val / 4)).rxDrop
  refused : c ≠ .accepted → (brOf t (n.val / 4)).rxBuf = (brOf s (n.val / 4)).rxBuf

theorem slotPassed_upGate {s : State} (n : NodeNo) (g : SlotAsg) (o : GateObs) (hp : parsesOnly s = false) :
    SlotPassed s n (upClass s n g o) (gateFrame (gateOpen s n g o) n g o) (upGate s n g o) := by
  have he : upGate s n g o = activeGate (slotJudged s n g o) n (laxInfos (ndOf s n).desc g) (decide (upClass s n g o = .accepted))
      (gateFrame (gateOpen s n g o) n g o) (upDownBad o.frame) := by
    have h := upGate_eq s n g o
    simp only [hp, Bool.false_eq_true, if_false] at h
    exact h
  obtain ⟨hbrs, hcnt⟩ := (judged_slotJudged s n g o).branches
  have hrx : (brOf (slotJudged s n g o) (n.val / 4)).rxBuf = (brOf s (n.val / 4)).rxBuf := by rw [brOf_of_brs hbrs, brOf_gateOpen]
  have hdr : (brcOf (slotJudged s n g o) (n.val / 4)).rxDrop = (brcOf s (n.val / 4)).rxDrop := by rw [brcOf_of_brCnt hcnt, brcOf_gateOpen]
  rw [he]
  refine ⟨fun hc hl => ?_, fun hc hl => ?_, fun hc => ?_⟩
  · rw [decide_eq_true hc, ← hrx, ← hdr]
    exact activeGate_buffers _ n _ _ _ (by rw [hrx]; exact hl)
  · rw [decide_eq_true hc, ← hrx, ← hdr]
    exact activeGate_drops _ n _ _ _ (by rw [hrx]; exact hl)
  · rw [decide_eq_false hc, activeGate_refused, ← hrx]
    rfl

end Sys2Proof.Machine

/-- Settles O34: the guardian's record by the class of the gate (`judged_gateJudged`), which what takes the frame leaves (`slotFrame_upGate`), and the
buffer by whether the frame is accepted and has room (`slotPassed_upGate`). -/
theorem upGateCountsItsClass : Obligations.UpGateCountsItsClass := by
  intro s n o
  refine ⟨fun g hg hd hn hb => ?_, fun h => upSlot_idle (h.imp_right fun h => ?_)⟩
  · obtain ⟨hf, ⟨h1, h2, h3, h4, h5, h6⟩, hv, hga, hta, hre, hvi, hno, hbr⟩ := slotClosed_upGate s n g o
    refine goes_quiet (exec_upSlot_open hg ⟨hd, hn, hb⟩) hf ⟨hf, h1, h2, h3, h4, h5, h6, hv, hga, hta, hre, hvi, hno, hbr, fun hp => ?_⟩
    obtain ⟨hbu, hdr, hru⟩ := slotPassed_upGate n g o hp
    exact ⟨hbu, hdr, hru⟩
  · rintro ⟨hd, hn, hb⟩
    rcases h with h | h | ⟨h, h'⟩
    · simp [h] at hd
    · simp [h] at hn
    · simp [h, h'] at hb
end

section
/-! The acyclic windows of a branch (R122, R126, R127, R144, R549): what each carries. -/
open Sys2Proof Sys2Proof.Machine
namespace Sys2Proof.Machine

/-! ### What a window carries -/

/-- A window has opened, and no reply is awaited. -/
def windowOpened (s : State) (b k : Nat) : State := modBr s b (fun r => { r with win := k + 1, xfer := none })
/-- A frame on the line that awaits no reply. -/
def acycPut (s : State) (b : Nat) (f : Bytes) : State := modBr s b (fun r => { r with acycSent := f })
/-- A withdrawal of a tap on the line (R144). -/
def withdrawPut (s : State) (b tap : Nat) : State :=
  modNd (acycPut s b (acycFrame s b false (4 * b + tap) 9 0 0 [])) (4 * b + tap) (fun d => { d with withdraw := d.withdraw - 1 })
/-- The broadcast with the rejoin table on the line, where a node awaits its rejoin (R549). -/
def tablePut (s : State) (b : Nat) : State :=
  modBr (acycPut s b (bcastFrame s b true)) b (fun r =>
    { r with tabSent := r.tabSent || (lostTaps s b != []), rejoinSent := if lostTaps s b != [] then r.rejoin else r.rejoinSent })
/-- The transfer that failed on the line again. -/
def retryPut (s : State) (b : Nat) (x : Xfer) : State := xferStart (modBr s b (fun r => { r with retry := none })) b x
/-- A transfer that waited on the line. -/
def nextPut (s : State) (b : Nat) (x : Xfer) : State := xferStart (modBr s b (fun r => { r with xfers := eraseOne x r.xfers })) b x
/-- The first tap of a branch with a withdrawal due (R144). -/
def withdrawTap (s : State) (b : Nat) : Option Nat := (List.range 4).find? (fun t => (ndOf s (4 * b + t)).withdraw != 0)

section
variable (s : State) (b k : Nat)
theorem brOf_windowOpened : brOf (windowOpened s b k) b = { brOf s b with win := k + 1, xfer := none } := brOf_modBr s b fun r => { r with win := k + 1, xfer := none }
theorem brsBut_windowOpened : brsBut s (windowOpened s b k) b := brsBut_modBr s b _
theorem rejoinWindow_windowOpened : rejoinWindow (windowOpened s b k) b k = rejoinWindow s b k := by
  unfold rejoinWindow rejoinFirst
  rw [brOf_windowOpened]
  rfl
theorem bcastFrame_windowOpened (table : Bool) : bcastFrame (windowOpened s b k) b table = bcastFrame s b table := by
  unfold bcastFrame
  rw [brOf_windowOpened]
  rfl
theorem nextXfer_windowOpened : nextXfer (windowOpened s b k) b = nextXfer s b := by
  unfold nextXfer
  rw [brOf_windowOpened]
  rfl

theorem lostTaps_windowOpened : lostTaps (windowOpened s b k) b = lostTaps s b := rfl
theorem withdrawTap_windowOpened : withdrawTap (windowOpened s b k) b = withdrawTap s b := rfl
theorem xferFrame_modBr (j : Nat) (f : Branch → Branch) (x : Xfer) : xferFrame (modBr s j f) x = xferFrame s x := rfl
end

/-- What a window carries that has opened (R127, R144, R549): the rejoin table in a rejoin window, else a withdrawal, else the rejoin table where a
node awaits its rejoin, else the transfer that failed or the next one. -/
def windowCarries (s : State) (b k : Nat) : State :=
  if rejoinWindow s b k then (if pnat s 0x0204 b < 45 then s else acycPut s b (bcastFrame s b false))
  else match withdrawTap s b with
    | some t => withdrawPut s b t
    | none =>
      if decide (pnat s 0x0204 b < 45) || (lostTaps s b != [] && !(brOf s b).tabSent) then tablePut s b
      else match (brOf s b).retry with
        | some x => retryPut s b x
        | none => match nextXfer s b with
          | some x => nextPut s b x
          | none => acycPut s b (bcastFrame s b true)
theorem acycWindow_eq (s : State) (b k : Nat) : acycWindow s b k = windowCarries (windowOpened s b k) b k := rfl

section
variable {s : State} {b k : Nat} (hr : rejoinWindow s b k = false)
include hr
theorem windowCarries_withdrawal {t : Nat} (hw : withdrawTap s b = some t) : windowCarries s b k = withdrawPut s b t := by
  unfold windowCarries
  simp only [hr, hw]
  rfl
theorem windowCarries_table (hw : withdrawTap s b = none) (hl : lostTaps s b ≠ []) (ht : (brOf s b).tabSent = false) : windowCarries s b k = tablePut s b := by
  have hc : (decide (pnat s 0x0204 b < 45) || (lostTaps s b != [] && !(brOf s b).tabSent)) = true := by simp [hl, ht]
  unfold windowCarries
  simp only [hr, hw, hc]
  rfl
section
variable (hw : withdrawTap s b = none) (h45 : 45 ≤ pnat s 0x0204 b) (hl : lostTaps s b = [])
include hw h45 hl
theorem windowCarries_retry {x : Xfer} (hx : (brOf s b).retry = some x) : windowCarries s b k = retryPut s b x := by
  have hc : (decide (pnat s 0x0204 b < 45) || (lostTaps s b != [] && !(brOf s b).tabSent)) = false := by simp [hl, h45]
  unfold windowCarries
  simp only [hr, hw, hc, hx]
  rfl
theorem windowCarries_next (hx : (brOf s b).retry = none) : windowCarries s b k =
    match nextXfer s b with | some x => nextPut s b x | none => acycPut s b (bcastFrame s b true) := by
  have hc : (decide (pnat s 0x0204 b < 45) || (lostTaps s b != [] && !(brOf s b).tabSent)) = false := by simp [hl, h45]
  unfold windowCarries
  simp only [hr, hw, hc, hx]
  rfl
end
end

/-! ### What every window leaves -/

/-- Outside the branch, its nodes and their counters nothing has changed, nor has the window that opened. -/
def windowFrame (b : Nat) (s t : State) : Prop :=
  quiet { s with brs := t.brs, nodes := t.nodes, ndCnt := t.ndCnt } t ∧ brsBut s t b ∧ (brOf t b).win = (brOf s b).win
theorem windowSteps (b : Nat) : Steps (windowFrame b) where
  refl _ := ⟨rfl, fun _ _ => rfl, rfl⟩
  trans := fun ⟨h, hb, hw⟩ ⟨k, kb, kw⟩ => by
    refine ⟨?_, hb.trans kb, kw.trans hw⟩
    unfold quiet at *
    rw [k, h]
section
variable (s : State) (b : Nat)
theorem windowFrame_modBr {f : Branch → Branch} (hf : ∀ r, (f r).win = r.win) : windowFrame b s (modBr s b f) :=
  ⟨rfl, brsBut_modBr s b f, by rw [brOf_modBr, hf]⟩
theorem windowFrame_modNd (n : Nat) (f : Node → Node) : windowFrame b s (modNd s n f) := ⟨rfl, fun _ _ => rfl, rfl⟩
theorem windowFrame_modNdc (n : Nat) (f : NodeCnt → NodeCnt) : windowFrame b s (modNdc s n f) := ⟨rfl, fun _ _ => rfl, rfl⟩
theorem windowFrame_acycPut (f : Bytes) : windowFrame b s (acycPut s b f) := windowFrame_modBr s b fun _ => rfl
theorem windowFrame_xferStart (x : Xfer) : windowFrame b s (xferStart s b x) := by
  unfold xferStart
  extract_lets c y s1
  have h1 : windowFrame b s s1 := windowFrame_modBr s b fun _ => rfl
  clear_value s1
  split
  · exact (windowSteps b).ite ((windowSteps b).trans h1 (windowFrame_modNdc s1 b _ _)) h1
  · exact h1
theorem windowFrame_withdrawPut (tap : Nat) : windowFrame b s (withdrawPut s b tap) := (windowSteps b).trans (windowFrame_acycPut s b _) (windowFrame_modNd _ b _ _)
theorem windowFrame_tablePut : windowFrame b s (tablePut s b) := by
  refine (windowSteps b).trans (windowFrame_acycPut s b (bcastFrame s b true)) ?_
  exact windowFrame_modBr _ b fun _ => rfl
theorem windowFrame_retryPut (x : Xfer) : windowFrame b s (retryPut s b x) := by
  refine (windowSteps b).trans (t := modBr s b fun r => { r with retry := none }) ?_ (windowFrame_xferStart _ b x)
  exact windowFrame_modBr s b fun _ => rfl
theorem windowFrame_nextPut (x : Xfer) : windowFrame b s (nextPut s b x) := by
  refine (windowSteps b).trans (t := modBr s b fun r => { r with xfers := eraseOne x r.xfers }) ?_ (windowFrame_xferStart _ b x)
  exact windowFrame_modBr s b fun _ => rfl
theorem windowFrame_windowCarries (k : Nat) : windowFrame b s (windowCarries s b k) := by
  unfold windowCarries
  refine (windowSteps b).ite ((windowSteps b).ite ((windowSteps b).refl s) (windowFrame_acycPut s b _)) ?_
  split
  · exact windowFrame_withdrawPut s b _
  · refine (windowSteps b).ite (windowFrame_tablePut s b) ?_
    split
    · exact windowFrame_retryPut s b _
    · split
      · exact windowFrame_nextPut s b _
      · exact windowFrame_acycPut s b _
end

/-! ### The record of the branch behind a window -/

/-- A transfer as a window of a branch has room for it (R122). -/
def xferFits (s : State) (b : Nat) (x : Xfer) : Xfer := { x with kind := (xferCut (acycRoom s b) x.kind).1 }

section
variable (s : State) (b : Nat)
theorem brOf_xferStart (x : Xfer) : ∃ xs, brOf (xferStart s b x) b =
    { brOf s b with xfer := some (xferFits s b x), acycSent := xferFrame s (xferFits s b x), xfers := xs } := by
  unfold xferStart
  extract_lets c y s1
  have h1 := brOf_modBr s b fun r => { r with xfer := some y, acycSent := xferFrame s y, xfers := (c.2.map (fun k => { x with kind := k, reps := 0 })).toList ++ r.xfers }
  refine ⟨_, Eq.trans ?_ h1⟩
  split
  · split <;> rfl
  · rfl
theorem brOf_acycPut (f : Bytes) : brOf (acycPut s b f) b = { brOf s b with acycSent := f } := brOf_modBr s b fun r => { r with acycSent := f }
theorem brOf_withdrawPut (t : Nat) : brOf (withdrawPut s b t) b = { brOf s b with acycSent := acycFrame s b false (4 * b + t) 9 0 0 [] } := brOf_acycPut s b _
theorem ndOf_withdrawPut (t : Nat) : ndOf (withdrawPut s b t) (4 * b + t) = { ndOf s (4 * b + t) with withdraw := (ndOf s (4 * b + t)).withdraw - 1 } :=
  ndOf_modNd (acycPut s b _) (4 * b + t) fun d => { d with withdraw := d.withdraw - 1 }
theorem brOf_tablePut : brOf (tablePut s b) b = { brOf s b with
    acycSent := bcastFrame s b true, tabSent := (brOf s b).tabSent || (lostTaps s b != []),
    rejoinSent := if lostTaps s b != [] then (brOf s b).rejoin else (brOf s b).rejoinSent } := by
  rw [tablePut, brOf_modBr, brOf_acycPut]
theorem brOf_retryPut (x : Xfer) : ∃ xs, brOf (retryPut s b x) b =
    { brOf s b with xfer := some (xferFits s b x), acycSent := xferFrame s (xferFits s b x), retry := none, xfers := xs } := by
  obtain ⟨xs, h⟩ := brOf_xferStart (modBr s b fun r => { r with retry := none }) b x
  refine ⟨xs, h.trans ?_⟩
  rw [brOf_modBr, xferFrame_modBr]
  rfl
theorem xfer_nextPut (x : Xfer) : (brOf (nextPut s b x) b).xfer = some (xferFits s b x) := by
  obtain ⟨xs, h⟩ := brOf_xferStart (modBr s b fun r => { r with xfers := eraseOne x r.xfers }) b x
  exact congrArg Branch.xfer h
end

/-! ### ACYCLIC_WINDOW -/

section
variable {s : State} {b i : Nat}
theorem withdrawTap_first (hi : i < 4) (h : (ndOf s (4 * b + i)).withdraw ≠ 0) (hj : ∀ j < i, (ndOf s (4 * b + j)).withdraw = 0) : withdrawTap s b = some i :=
  List.find?_range_eq_some.mpr ⟨by simpa using h, List.mem_range.mpr hi, fun j hji => by simpa using hj j hji⟩
theorem withdrawTap_none (h : ∀ i < 4, (ndOf s (4 * b + i)).withdraw = 0) : withdrawTap s b = none :=
  List.find?_range_eq_none.mpr fun i hi => by simpa using h i hi
end

section
variable {s : State} {b : BranchNo} {k : Nat}
/-- The window opens: it lies in the pick, behind the last one of its branch, whose reply is not awaited any more. -/
def windowDue (s : State) (b k : Nat) : Bool := branchOn s b && decide (k < acycIn s b (psPick (ps s))) && decide ((brOf s b).win ≤ k) && (brOf s b).xfer.isNone
theorem exec_acyclicWindow (s : State) (b : BranchNo) (k : Nat) : exec (.acyclicWindow b k) s = finishD s (when (windowDue s b k) (fun t => acycWindow t b k) s) := rfl
theorem acyclicWindow_idle (h : branchOn s b = false ∨ acycIn s b (psPick (ps s)) ≤ k ∨ k < (brOf s b).win) : exec (.acyclicWindow b k) s = .next s := by
  have hd : windowDue s b k = false := by
    unfold windowDue
    rcases h with h | h | h
    · simp [h]
    · simp [Nat.not_lt.mpr h]
    · simp [Nat.not_le.mpr h]
  rw [exec_acyclicWindow, hd]
  rfl

theorem acyclicWindow_goes (hb : branchOn s b = true) (hk : k < acycIn s b (psPick (ps s))) (hw : (brOf s b).win ≤ k) (hx : (brOf s b).xfer = none) :
    goes (.acyclicWindow b k) s (fun t =>
      quiet { s with brs := t.brs, nodes := t.nodes, ndCnt := t.ndCnt } t ∧ brsBut s t b ∧ (brOf t b).win = k + 1 ∧
      (rejoinWindow s b k = false → 45 ≤ pnat s 0x0204 b → lostTaps s b = [] → (∀ i < 4, (ndOf s (4 * b.val + i)).withdraw = 0) →
        (∀ x, (brOf s b).retry = some x →
          (brOf t b).xfer = some (xferFits s b x) ∧ (brOf t b).acycSent = xferFrame s (xferFits s b x) ∧ (brOf t b).retry = none) ∧
        ((brOf s b).retry = none → (brOf t b).xfer = (nextXfer s b).map (xferFits s b))) ∧
      (∀ i < 4, rejoinWindow s b k = false → (ndOf s (4 * b.val + i)).withdraw ≠ 0 → (∀ j < i, (ndOf s (4 * b.val + j)).withdraw = 0) →
        (ndOf t (4 * b.val + i)).withdraw = (ndOf s (4 * b.val + i)).withdraw - 1 ∧ (brOf t b).xfer = none ∧
        (brOf t b).acycSent = acycFrame s b false (4 * b.val + i) 9 0 0 []) ∧
      (rejoinWindow s b k = false → (∀ i < 4, (ndOf s (4 * b.val + i)).withdraw = 0) → lostTaps s b ≠ [] → (brOf s b).tabSent = false →
        (brOf t b).xfer = none ∧ (brOf t b).acycSent = bcastFrame s b true ∧ (brOf t b).tabSent = true ∧ (brOf t b).rejoinSent = (brOf s b).rejoin)) := by
  have hd : windowDue s b k = true := by simp [windowDue, hb, hk, hw, hx]
  have he : exec (.acyclicWindow b k) s = finishD s (windowCarries (windowOpened s b k) b k) := by
    rw [exec_acyclicWindow, hd, when_true, acycWindow_eq]
  have hq : quiet { s with brs := (windowOpened s b k).brs } (windowOpened s b k) := rfl
  have hbut := brsBut_windowOpened s b k
  have hbr := brOf_windowOpened s b k
  have hrj := rejoinWindow_windowOpened s b k
  have hbc := bcastFrame_windowOpened s b k true
  have hnx := nextXfer_windowOpened s b k
  have hlost := lostTaps_windowOpened s b k
  have htap := withdrawTap_windowOpened s b k
  have hpn : pnat (windowOpened s b k) 0x0204 b = pnat s 0x0204 b := rfl
  have hfit : ∀ x, xferFits (windowOpened s b k) b x = xferFits s b x := fun _ => rfl
  have hfr : ∀ x, xferFrame (windowOpened s b k) x = xferFrame s x := fun _ => rfl
  have hac : ∀ n, acycFrame (windowOpened s b k) b false n 9 0 0 [] = acycFrame s b false n 9 0 0 [] := fun _ => rfl
  have hnd : ∀ n, ndOf (windowOpened s b k) n = ndOf s n := fun _ => rfl
  generalize windowOpened s b k = v at *
  obtain ⟨hwq, hwb, hww⟩ := windowFrame_windowCarries v b k
  have hf : quiet { s with brs := (windowCarries v b k).brs, nodes := (windowCarries v b k).nodes, ndCnt := (windowCarries v b k).ndCnt } (windowCarries v b k) := by
    unfold quiet at *
    rw [hwq, hq]
  rw [← hrj, ← hpn, ← hlost]
  refine goes_quiet he hf ⟨hf, hbut.trans hwb, by rw [hww, hbr], fun hr h45 hl h0 => ⟨fun x hx => ?_, fun hx => ?_⟩, fun i hi hr h0 hj => ?_, fun hr h0 hl ht => ?_⟩
  · obtain ⟨xs, hy⟩ := brOf_retryPut v b x
    rw [windowCarries_retry hr (htap.trans (withdrawTap_none h0)) h45 hl (by rw [hbr]; exact hx), hy, hfit, hfr]
    exact ⟨rfl, rfl, rfl⟩
  · rw [windowCarries_next hr (htap.trans (withdrawTap_none h0)) h45 hl (by rw [hbr]; exact hx), hnx]
    rcases nextXfer s b with _ | x
    · exact (congrArg Branch.xfer (brOf_acycPut v b _)).trans (congrArg Branch.xfer hbr)
    · rw [xfer_nextPut, hfit]
      rfl
  · rw [windowCarries_withdrawal hr (htap.trans (withdrawTap_first hi h0 hj)), ndOf_withdrawPut, brOf_withdrawPut, hbr, hnd, hac]
    exact ⟨rfl, rfl, rfl⟩
  · rw [windowCarries_table hr (htap.trans (withdrawTap_none h0)) hl (by rw [hbr]; exact ht), brOf_tablePut, hbr, hbc]
    simp [hl]
end

end Sys2Proof.Machine
end

section
/-! What a reply to a transfer, or its absence, leads to (R127, R135, R146, R233, R236, R240). -/
open Sys2Proof Sys2Proof.Machine
namespace Sys2Proof.Machine

/-! ### The transfer on the line ends -/

/-- The reply of a branch is awaited no more, and the code violations seen are counted. -/
def replyTaken (s : State) (b viol : Nat) : State := replyViol (modBr s b (fun r => { r with xfer := none })) b viol

section
variable (s : State) (b viol : Nat)
theorem replyTaken_frame : quiet { s with brs := (replyTaken s b viol).brs, brCnt := (replyTaken s b viol).brCnt } (replyTaken s b viol) := rfl
theorem brOf_replyTaken : brOf (replyTaken s b viol) b = { brOf s b with xfer := none } := brOf_modBr s b fun r => { r with xfer := none }
theorem brsBut_replyTaken : brsBut s (replyTaken s b viol) b := brsBut_modBr s b fun r => { r with xfer := none }
theorem brcOf_replyTaken : brcOf (replyTaken s b viol) b = { brcOf s b with codeViol := satAdd 32 (brcOf s b).codeViol viol } :=
  brcOf_modBrc (modBr s b fun r => { r with xfer := none }) b fun c => { c with codeViol := satAdd 32 c.codeViol viol }
theorem xfers_replyTaken (j : Nat) : (brOf (replyTaken s b viol) j).xfers = (brOf s j).xfers := by
  by_cases h : j = b
  · subst h
    rw [brOf_replyTaken]
  · rw [brsBut_replyTaken s b viol j h]

theorem exec_reply (b : BranchNo) (start : Int) (viol : Nat) (f : Bytes) :
    exec (.acyclicReplyReceive b ⟨start, viol⟩ f) s = finishD s (match (brOf s b).xfer with | some x => replyIn s b x start viol f | none => s) := rfl
theorem exec_replyGate (b : BranchNo) (viol : Nat) : exec (.acyclicReplyGateClose ⟨b, viol⟩) s =
    finishD s (match (brOf s b).xfer with | some x => when (!x.stale) (fun t => xferFail t b x) (replyTaken s b viol) | none => s) := rfl
end

/-- What a reply to a transfer leads to: STAT of a good one, or none (R127, R135). -/
def replyEnds (s : State) (b : Nat) (x : Xfer) (st : Option Nat) (f : Bytes) : State :=
  match st with
  | none => xferFail s b x
  | some 0 => xferDone s x (frPayload f)
  | some 3 => xferFail s b x
  | some st => if x.kind = .tableCrc ∧ st = 4 then crcRefused s x else xferAbandon s x true
theorem replyIn_eq (s : State) (b : Nat) (x : Xfer) (start : Int) (viol : Nat) (f : Bytes) : replyIn s b x start viol f =
    if x.stale then replyTaken s b viol
    else replyEnds (replyTaken s b viol) b x (if replyBand start = true ∧ viol = 0 then replyStat s x f else none) f := rfl

section
variable {s : State} {b : BranchNo} {x : Xfer} (hx : (brOf s b).xfer = some x)
include hx
theorem exec_reply_stale (hs : x.stale = true) (start : Int) (viol : Nat) (f : Bytes) :
    exec (.acyclicReplyReceive b ⟨start, viol⟩ f) s = .next (replyTaken s b viol) := by
  rw [exec_reply, hx]
  show finishD s (replyIn s b x start viol f) = _
  rw [replyIn_eq, if_pos hs]
  rfl
theorem exec_replyGate_stale (hs : x.stale = true) (viol : Nat) : exec (.acyclicReplyGateClose ⟨b, viol⟩) s = .next (replyTaken s b viol) := by
  rw [exec_replyGate, hx]
  show finishD s (when (!x.stale) _ _) = _
  rw [hs]
  rfl
theorem exec_reply_awaited (hs : x.stale = false) (start : Int) (viol : Nat) (f : Bytes) : exec (.acyclicReplyReceive b ⟨start, viol⟩ f) s =
    finishD s (replyEnds (replyTaken s b viol) b x (if replyBand start = true ∧ viol = 0 then replyStat s x f else none) f) := by
  rw [exec_reply, hx]
  show finishD s (replyIn s b x start viol f) = _
  rw [replyIn_eq, if_neg (by simp [hs])]
theorem exec_reply_status (hs : x.stale = false) {start : Int} (hb : replyBand start = true) (f : Bytes) :
    exec (.acyclicReplyReceive b ⟨start, 0⟩ f) s = finishD s (replyEnds (replyTaken s b 0) b x (replyStat s x f) f) := by
  rw [exec_reply_awaited hx hs, if_pos ⟨hb, rfl⟩]
theorem exec_replyGate_awaited (hs : x.stale = false) (viol : Nat) : exec (.acyclicReplyGateClose ⟨b, viol⟩) s = finishD s (xferFail (replyTaken s b viol) b x) := by
  rw [exec_replyGate, hx]
  show finishD s (when (!x.stale) _ _) = _
  rw [hs]
  rfl
end

theorem replyEnds_status (s : State) (b : Nat) {x : Xfer} {st : Nat} (h0 : st ≠ 0) (h3 : st ≠ 3) (f : Bytes) :
    replyEnds s b x (some st) f = if x.kind = .tableCrc ∧ st = 4 then crcRefused s x else xferAbandon s x true := by
  unfold replyEnds
  split
  · next h => cases h
  · next h => exact absurd (Option.some.inj h) h0
  · next h => exact absurd (Option.some.inj h) h3
  · next h =>
    obtain rfl := Option.some.inj h
    rfl
/-- A reply that is not good, and status 0x03, repeat the transfer. -/
theorem replyEnds_fails {s : State} {b : Nat} {x : Xfer} {start : Int} {viol : Nat} {st : Option Nat} (f : Bytes)
    (h : replyBand start = false ∨ viol ≠ 0 ∨ st = none ∨ st = some 3) :
    replyEnds s b x (if replyBand start = true ∧ viol = 0 then st else none) f = xferFail s b x := by
  by_cases hc : replyBand start = true ∧ viol = 0
  · rw [if_pos hc]
    rcases h with h | h | rfl | rfl
    · simp [h] at hc
    · exact absurd hc.2 h
    · rfl
    · rfl
  · rw [if_neg hc]
    rfl

/-! ### A transfer that is abandoned (R127) -/

/-- The counter of abandoned transfers of a node. -/
def abandonCounted (s : State) (n : Nat) : State := modNdc s n (fun c => { c with acycFail := satInc 16 c.acycFail })
theorem acycFail_abandonCounted (s : State) (n : Nat) : (ndcOf (abandonCounted s n) n).acycFail = satInc 16 (ndcOf s n).acycFail :=
  congrArg NodeCnt.acycFail (ndcOf_modNdc s n fun c => { c with acycFail := satInc 16 c.acycFail })
theorem ndcOf_of_ndCnt {s t : State} (h : t.ndCnt = s.ndCnt) (n : Nat) : ndcOf t n = ndcOf s n := by
  unfold ndcOf
  rw [h]
theorem ndCnt_of_quiet {s t : State} (h : quiet s t) : t.ndCnt = s.ndCnt := by
  unfold quiet at h
  rw [h]
theorem nodes_of_quiet {s t : State} (h : quiet s t) : t.nodes = s.nodes := by
  unfold quiet at h
  rw [h]
theorem brs_of_quiet {s t : State} (h : quiet s t) : t.brs = s.brs := by
  unfold quiet at h
  rw [h]

/-- The counters of the nodes are as they were. -/
def tallyKept (s t : State) : Prop := t.ndCnt = s.ndCnt
theorem tallyFrames : Frame tallyKept := ⟨fun h => ndCnt_of_quiet h.1, fun h k => Eq.trans k h⟩

section
variable {s : State} {x : Xfer}
theorem tallyKept_xferAbandon (s : State) (x : Xfer) (ev : Bool) : tallyKept (abandonCounted s x.node) (xferAbandon s x ev) := by
  unfold xferAbandon
  extract_lets n s1 pl
  have h1 : tallyKept (abandonCounted s x.node) s1 := rfl
  clear_value s1
  have raised (t : State) (c : Nat) : tallyKept t (if ev then raise t c n pl else t) := tallyFrames.cond ev (fun u => tallyFrames.event u c n pl) t
  split
  · exact tallyFrames.trans (t := modNd s1 n _) h1 (raised _ _)
  · have h2 := tallyFrames.trans h1 (raised s1 0x310B)
    split
    · exact tallyFrames.trans (t := modNd _ n _) h2 (ndCnt_stepModFail _ n)
    · exact tallyFrames.ite (tallyFrames.trans h2 (tallyFrames.waits _ _ _ _)) h2
theorem acycFail_xferAbandon (s : State) (x : Xfer) (ev : Bool) : (ndcOf (xferAbandon s x ev) x.node).acycFail = satInc 16 (ndcOf s x.node).acycFail := by
  rw [ndcOf_of_ndCnt (tallyKept_xferAbandon s x ev), acycFail_abandonCounted]

/-- The write of a block of parameters of which a piece is abandoned (R233). -/
def blockBad (l : Nat) (d : Node) : Node := { d with wrPend := d.wrPend.filter (· != l), wrBad := dedup (d.wrBad ++ [l]) }
theorem ndOf_xferAbandon_block {l : Nat} (hl : parLax x.kind = some l) : ndOf (xferAbandon s x true) x.node = blockBad l (ndOf s x.node) := by
  have h : xferAbandon s x true =
      stepModFail (modNd (raise (abandonCounted s x.node) 0x310B x.node [BitVec.ofNat 8 (x.node / 4)]) x.node (blockBad l)) x.node := by
    unfold xferAbandon
    split
    · next h =>
      rw [h] at hl
      cases hl
    · rw [hl]
      rfl
  rw [h, ndOf_of_nodes (nodes_stepModFail _ _), ndOf_modNd]
  rfl
theorem blockBad_marks (l : Nat) (d : Node) : l ∈ (blockBad l d).wrBad ∧ l ∉ (blockBad l d).wrPend :=
  ⟨mem_dedup.mpr (List.mem_append_right _ List.mem_cons_self), fun h => by simpa using (List.mem_filter.mp h).2⟩

/-- An abandoned check of a table ends the load that waits for it (R393). -/
theorem xferAbandon_crc (hk : x.kind = .tableCrc) :
    quiet (abandonCounted s x.node) (xferAbandon s x true) := by
  have h : xferAbandon s x true = loadDone (raise (abandonCounted s x.node) 0x310B x.node [BitVec.ofNat 8 (x.node / 4)]) x.node 0x2007 := by
    unfold xferAbandon
    split
    · next h =>
      rw [h] at hk
      cases hk
    · rw [hk]
      rfl
  rw [h]
  exact (quiet_raise _ _ _ _).trans (quiet_completeWaits _ _ _ _)
end

/-! ### A transfer without success (R127) -/

/-- What a transfer that has no success leaves: it waits to be repeated, or is abandoned after three repetitions. -/
structure XferFailed (s : State) (b : Nat) (x : Xfer) (viol : Nat) (t : State) : Prop where
  frame : quiet { s with brs := t.brs, brCnt := t.brCnt, nodes := t.nodes, ndCnt := t.ndCnt, par := t.par } t
  others : brsBut s t b
  ended : (brOf t b).xfer = none
  viols : (brcOf t b).codeViol = satAdd 32 (brcOf s b).codeViol viol
  repeats : x.reps < 3 → quiet { s with brs := t.brs, brCnt := t.brCnt, ndCnt := t.ndCnt } t ∧
    brOf t b = { brOf s b with xfer := none, retry := some { x with reps := x.reps + 1 } } ∧ (ndcOf t x.node).acycRetry = satInc 16 (ndcOf s x.node).acycRetry
  abandoned : 3 ≤ x.reps → quiet { s with brs := t.brs, brCnt := t.brCnt, nodes := t.nodes, ndCnt := t.ndCnt,
                                          par := { s.par with pends := t.par.pends, stages := t.par.stages } } t ∧
    (s.par.stepMod = [] → t.par = s.par) ∧ (brOf t b).retry = (brOf s b).retry ∧ (ndcOf t x.node).acycFail = satInc 16 (ndcOf s x.node).acycFail

/-- What an abandoned transfer of a branch leaves. -/
structure XferAbandoned (s : State) (b : Nat) (x : Xfer) (viol : Nat) (t : State) : Prop where
  frame : quiet { s with brs := t.brs, brCnt := t.brCnt, nodes := t.nodes, ndCnt := t.ndCnt,
                         par := { s.par with pends := t.par.pends, stages := t.par.stages } } t
  acks : s.par.stepMod = [] → t.par = s.par
  branch : brOf t b = { brOf s b with xfer := none }
  others : brsBut s t b
  viols : (brcOf t b).codeViol = satAdd 32 (brcOf s b).codeViol viol
  count : (ndcOf t x.node).acycFail = satInc 16 (ndcOf s x.node).acycFail

/-- Behind the end of a reply, an abandoned transfer is framed by what is lost with it. -/
theorem abandoned_frame {s v t : State} (h : quiet { s with brs := v.brs, brCnt := v.brCnt } v) (k : lossFrame v t) :
    quiet { s with brs := t.brs, brCnt := t.brCnt, nodes := t.nodes, ndCnt := t.ndCnt, par := { s.par with pends := t.par.pends, stages := t.par.stages } } t ∧
      (s.par.stepMod = [] → t.par = s.par) := by
  obtain ⟨hq, ⟨hp, ha⟩, -⟩ := k
  have hv : v.par = s.par := by
    unfold quiet at h
    rw [h]
  rw [hv] at ha
  refine ⟨?_, ha⟩
  unfold commitsEnd at hp
  rw [hv] at hp
  rw [← hp]
  unfold quiet at *
  rw [hq, h]
theorem xferAbandoned (s : State) (b : Nat) (x : Xfer) (viol : Nat) : XferAbandoned s b x viol (xferAbandon (replyTaken s b viol) x true) := by
  have hl := lossFrame_xferAbandon (replyTaken s b viol) x true
  obtain ⟨hf, hp⟩ := abandoned_frame (replyTaken_frame s b viol) hl
  refine ⟨hf, hp, ?_, fun k hk => ?_, ?_, acycFail_xferAbandon _ x true⟩
  · rw [brOf_of_brs hl.brs, brOf_replyTaken]
  · rw [brOf_of_brs hl.brs, brsBut_replyTaken s b viol k hk]
  · rw [brcOf_of_brCnt hl.brCnt, brcOf_replyTaken]

theorem xferFail_repeats (s : State) (b : Nat) {x : Xfer} (h : x.reps < 3) : xferFail s b x =
    modBr (modNdc s x.node (fun c => { c with acycRetry := satInc 16 c.acycRetry })) b (fun r => { r with retry := some { x with reps := x.reps + 1 } }) :=
  if_neg (Nat.not_le.mpr h)
theorem xferFail_abandons (s : State) (b : Nat) {x : Xfer} (h : 3 ≤ x.reps) : xferFail s b x = xferAbandon s x true := if_pos h

theorem xferFailed (s : State) (b : Nat) (x : Xfer) (viol : Nat) : XferFailed s b x viol (xferFail (replyTaken s b viol) b x) := by
  by_cases h : x.reps < 3
  · rw [xferFail_repeats _ b h]
    have hn : ¬ 3 ≤ x.reps := Nat.not_le.mpr h
    have hb (v : State) (hv : brOf v b = brOf (replyTaken s b viol) b) :
        brOf (modBr v b fun r => { r with retry := some { x with reps := x.reps + 1 } }) b = { brOf s b with xfer := none, retry := some { x with reps := x.reps + 1 } } := by
      rw [brOf_modBr, hv, brOf_replyTaken]
    refine ⟨rfl, (brsBut_replyTaken s b viol).trans (brsBut_modBr (modNdc (replyTaken s b viol) _ _) b _), ?_, congrArg BranchCnt.codeViol (brcOf_replyTaken s b viol),
      fun _ => ⟨rfl, hb _ rfl, ?_⟩, fun h3 => absurd h3 hn⟩
    · exact congrArg Branch.xfer (hb (modNdc (replyTaken s b viol) x.node _) rfl)
    · exact congrArg NodeCnt.acycRetry (ndcOf_modNdc (replyTaken s b viol) x.node fun c => { c with acycRetry := satInc 16 c.acycRetry })
  · rw [xferFail_abandons _ b (Nat.not_lt.mp h)]
    obtain ⟨hf, hp, hb, ho, hv, hc⟩ := xferAbandoned s b x viol
    refine ⟨?_, ho, by rw [hb], hv, fun h3 => absurd h3 h, fun _ => ⟨hf, hp, by rw [hb], hc⟩⟩
    unfold quiet at *
    rw [hf]

/-! ### Transfers that are sent (R127, R128, R233, R236) -/

/-- Where no reply of a branch was awaited, none is. -/
def idleKept (s t : State) : Prop := ∀ b, (brOf s b).xfer = none → (brOf t b).xfer = none
/-- Transfers put on the lists of branches: outside branches, nodes and carriers nothing has changed. -/
def sendFrame (s t : State) : Prop := quiet { s with brs := t.brs, nodes := t.nodes } t ∧ idleKept s t
/-- As `sendFrame`, with what the Warper is still to place. -/
def planFrame (s t : State) : Prop := quiet { s with brs := t.brs, nodes := t.nodes, warp := t.warp } t ∧ idleKept s t
theorem idleKept_of_quiet {s t : State} (h : quiet s t) : idleKept s t := fun b hb => by
  rw [brOf_of_brs (brs_of_quiet h), hb]
theorem sendFrames : Frame sendFrame where
  carriers h := by
    refine ⟨?_, idleKept_of_quiet h.1⟩
    have hq := h.1
    unfold quiet at *
    rw [hq]
  trans := fun ⟨h, hi⟩ ⟨k, ki⟩ => by
    refine ⟨?_, fun b hb => ki b (hi b hb)⟩
    unfold quiet at *
    rw [k, h]
theorem sendFrame.plan {s t : State} (h : sendFrame s t) : planFrame s t := by
  refine ⟨?_, h.2⟩
  have hq := h.1
  unfold quiet at *
  rw [hq]
theorem planFrames : Frame planFrame where
  carriers h := (sendFrames.carriers h).plan
  trans := fun ⟨h, hi⟩ ⟨k, ki⟩ => by
    refine ⟨?_, fun b hb => ki b (hi b hb)⟩
    unfold quiet at *
    rw [k, h]

section
variable (s : State) (n : Nat)
theorem sendFrame_modNd (f : Node → Node) : sendFrame s (modNd s n f) := ⟨rfl, fun _ h => h⟩
theorem sendFrame_modBr (f : Branch → Branch) (hf : ∀ r, r.xfer = none → (f r).xfer = none := by exact fun _ h => h) : sendFrame s (modBr s n f) := by
  refine ⟨rfl, fun b hb => ?_⟩
  by_cases h : b = n
  · subst h
    rw [brOf_modBr]
    exact hf _ hb
  · rw [brOf_modBr_other s f h, hb]
theorem sendFrame_ndItem : sendFrame s (ndItem s n) := sendFrames.item s _
theorem sendFrame_asgPlan (p : NodePl) : sendFrame s (asgPlan s p) :=
  sendFrames.trans (sendFrames.trans (sendFrames.trans (sendFrame_modBr s _ _) (sendFrame_modNd _ _ _)) (sendFrame_modBr _ _ _)) (sendFrame_ndItem _ _)
theorem sendFrame_asgLater : sendFrame s (asgLater s n) :=
  sendFrames.loop _ (fun t m => sendFrames.trans (sendFrame_modNd t m _) (sendFrame_ndItem _ m)) s
theorem sendFrame_asgAgain (p : NodePl) : sendFrame s (asgLater (asgPlan s p) n) := sendFrames.trans (sendFrame_asgPlan s p) (sendFrame_asgLater _ n)
theorem sendFrame_parSend (xs : List Xfer) : sendFrame s (parSend s n xs) := sendFrames.trans (sendFrame_modBr s _ _) (sendFrame_modNd _ n _)
theorem sendFrame_imageSend : sendFrame s (imageSend s n) :=
  sendFrames.trans (sendFrames.trans (sendFrame_modNd s n _) (sendFrame_modBr _ _ _ fun r h => by simp [h])) (sendFrame_modBr _ _ _)
theorem sendFrame_tableNext (i : Nat) : sendFrame s (tableNext s n i) := sendFrame_modBr s _ _
theorem planFrame_setWarp (w : Warp) : planFrame s { s with warp := w } := ⟨rfl, fun _ h => h⟩
theorem planFrame_integrate (desc : Bytes) : planFrame s (integrate s n desc) := by
  unfold integrate
  extract_lets old s1 s2 s3
  have h3 : planFrame s s3 := (sendFrames.trans (sendFrames.trans (sendFrames.trans (sendFrame_modNd s n _) (sendFrame_parSend s1 n _))
    (sendFrames.cond _ (fun t => sendFrame_imageSend t n) s2)) (sendFrame_ndItem _ n)).plan
  clear_value s3
  split
  · exact planFrames.ite (planFrames.trans h3 (sendFrame_asgAgain s3 n _).plan) (planFrames.trans h3 (planFrame_setWarp s3 _))
  · exact planFrames.trans h3 (planFrame_setWarp s3 _)
theorem planFrame_descPartIn (d : Bytes) : planFrame s (descPartIn s n d) := by
  unfold descPartIn
  extract_lets got
  exact planFrames.ite (sendFrame_modNd s n _).plan
    (planFrames.ite (planFrames.trans (sendFrame_modNd s n _).plan (planFrames.event _ _ _ _)) (planFrame_integrate s n got))
end

/-! ### A refused check of a table (R236, R242) -/

theorem quiet_mstabEvent (s : State) (n : Nat) : quiet s (mstabEvent s n) := quiets.loop _ (fun t a => quiet_raise t 0x7109 a []) s

/-- What the refusal of the check of a table leaves. -/
structure CrcRefused (s : State) (x : Xfer) (t : State) : Prop where
  frame : quiet { s with brs := t.brs, nodes := t.nodes, ndCnt := t.ndCnt } t
  idle : idleKept s t
  count : (ndcOf t x.node).acycFail = satInc 16 (ndcOf s x.node).acycFail
  again : (ndOf t x.node).imgRetry = !(ndOf s x.node).imgRetry

/-- The refused transfer is abandoned. -/
theorem crcRefused_ends {s v : State} {x : Xfer} (h : quiet (abandonCounted s x.node) v) (hr : (ndOf s x.node).imgRetry = true) :
    CrcRefused s x (modNd v x.node fun d => { d with imgRetry := false }) := by
  refine ⟨?_, fun b hb => ?_, ?_, ?_⟩
  · unfold quiet at *
    rw [h]
    rfl
  · exact (congrArg Branch.xfer (brOf_of_brs (brs_of_quiet h) b)).trans hb
  · exact (congrArg NodeCnt.acycFail (ndcOf_of_ndCnt (ndCnt_of_quiet h) x.node)).trans (acycFail_abandonCounted s x.node)
  · rw [ndOf_modNd, hr]
    rfl
/-- The download starts once more. -/
theorem crcRefused_restarts {s v : State} {x : Xfer} (h : quiet (abandonCounted s x.node) v) (hr : (ndOf s x.node).imgRetry = false) :
    CrcRefused s x (modNd (imageSend v x.node) x.node fun d => { d with imgRetry := true }) := by
  obtain ⟨hq, hi⟩ := sendFrame_imageSend v x.node
  have hc : ndcOf (imageSend v x.node) x.node = ndcOf (abandonCounted s x.node) x.node := by
    have hv : (imageSend v x.node).ndCnt = v.ndCnt := (ndCnt_of_quiet hq :)
    exact ndcOf_of_ndCnt (hv.trans (ndCnt_of_quiet h)) x.node
  refine ⟨?_, fun b hb => ?_, ?_, ?_⟩
  · generalize imageSend v x.node = w at hq
    unfold quiet at *
    rw [hq, h]
    rfl
  · exact hi b ((congrArg Branch.xfer (brOf_of_brs (brs_of_quiet h) b)).trans hb)
  · exact (congrArg NodeCnt.acycFail hc).trans (acycFail_abandonCounted s x.node)
  · rw [ndOf_modNd, hr]
    rfl
/-- Behind the end of a reply, the refusal is framed by the branches and the nodes. -/
theorem crcRefused_frame {s v t : State} (h : quiet { s with brs := v.brs, brCnt := v.brCnt } v)
    (k : quiet { v with brs := t.brs, nodes := t.nodes, ndCnt := t.ndCnt } t) : quiet { s with brs := t.brs, brCnt := t.brCnt, nodes := t.nodes, ndCnt := t.ndCnt } t := by
  have hc : t.brCnt = v.brCnt := by
    unfold quiet at k
    rw [k]
  rw [hc]
  unfold quiet at *
  rw [k, h]
theorem crcRefused_refused (s : State) {x : Xfer} (hk : x.kind = .tableCrc) : CrcRefused s x (crcRefused s x) := by
  have hm := quiet_mstabEvent s x.node
  have hn : ndOf (mstabEvent s x.node) x.node = ndOf s x.node := ndOf_of_nodes (nodes_of_quiet hm) x.node
  have ha : quiet (abandonCounted s x.node) (abandonCounted (mstabEvent s x.node) x.node) := by
    unfold quiet at *
    rw [hm]
    rfl
  cases hr : (ndOf s x.node).imgRetry
  · have he : crcRefused s x = modNd (imageSend (raise (abandonCounted (mstabEvent s x.node) x.node) 0x310B x.node [BitVec.ofNat 8 (x.node / 4)]) x.node) x.node
        (fun d => { d with imgRetry := true }) := if_neg (by rw [hn, hr]; exact Bool.false_ne_true)
    rw [he]
    exact crcRefused_restarts (ha.trans (quiet_raise _ _ _ _)) hr
  · have he : crcRefused s x = modNd (xferAbandon (mstabEvent s x.node) x true) x.node (fun d => { d with imgRetry := false }) := if_pos (by rw [hn, hr])
    rw [he]
    exact crcRefused_ends (ha.trans (xferAbandon_crc hk)) hr

/-! ### A transfer that is done (R127, R233, R240) -/

theorem planFrame_xferDone (s : State) {x : Xfer} (h : parLax x.kind = none) (d : Bytes) : planFrame s (xferDone s x d) := by
  unfold xferDone
  extract_lets n
  split
  · exact planFrame_descPartIn s n d
  · exact planFrames.trans (sendFrame_modNd s n _).plan (sendFrame_ndItem _ n).plan
  · exact (sendFrame_tableNext s n _).plan
  · exact planFrames.trans (sendFrame_modNd s n _).plan (planFrames.waits _ _ _ _)
  · rw [h]
    simp only []
    split
    · exact planFrames.ite (sendFrame_asgAgain s n _).plan (planFrames.refl s)
    · exact planFrames.refl s
theorem tRt_xferDone (s : State) {x : Xfer} {adj : Int} (h : x.kind = .timing adj) (d : Bytes) :
    (ndOf (xferDone s x d) x.node).tRt = (ndOf s x.node).tRt + adj := by
  have he : xferDone s x d = ndItem (modNd s x.node fun e => { e with tRt := e.tRt + adj }) x.node := by
    unfold xferDone
    rw [h]
  rw [he, ndOf_ndItem, ndOf_modNd]

/-- The last piece of a block of parameters has been written. -/
def blockDone (l : Nat) (d : Node) : Node := { d with wrPend := d.wrPend.filter (· != l) }
/-- A block of a node is written: the values of its stepper axis that wait are in force, unless a piece of it was abandoned (R233, R240). -/
def blockWritten (s : State) (n l : Nat) : State :=
  let s1 := modNd s n (blockDone l)
  match laxAxis s n l with
  | some a => when (s1.par.stepMod != [] && !(ndOf s n).wrBad.contains l) (fun t => stepModDone t a) s1
  | none => s1
/-- Pieces of the block that a transfer belongs to still wait. -/
def blockWaits (s : State) (n l : Nat) : Bool := (brOf s (n / 4)).xfers.any (fun y => decide (y.node = n) && decide (parLax y.kind = some l))
theorem xferDone_block (s : State) {x : Xfer} {l : Nat} (h : parLax x.kind = some l) (d : Bytes) :
    xferDone s x d = if blockWaits s x.node l then s else blockWritten s x.node l := by
  unfold xferDone
  extract_lets n
  split
  · next hk =>
    rw [hk] at h
    cases h
  · next hk =>
    rw [hk] at h
    cases h
  · next hk =>
    rw [hk] at h
    cases h
  · next hk =>
    rw [hk] at h
    cases h
  · rw [h]
    rfl

/-- The values of a stepper axis that wait for its acknowledgement, in force (R240). -/
def stepModIn (s : State) (a : Nat) : State :=
  { s with par.force := tabMerge s.par.force (s.par.stepMod.filter (fun y => y.1 % 256 = a)), par.stepMod := s.par.stepMod.filter (fun y => y.1 % 256 != a) }
theorem stepModDone_eq (s : State) (a : Nat) :
    stepModDone s a = stepAnswer (stepModIn s a) (fun p => !p.vals.any (fun x => (tabFind (stepModIn s a).par.stepMod x.1).isSome)) 0 := rfl
theorem stepModDone_par (s : State) (a : Nat) : quiet { s with par := (stepModDone s a).par } (stepModDone s a) ∧
    (stepModDone s a).par.force = (stepModIn s a).par.force ∧ (stepModDone s a).par.stepMod = (stepModIn s a).par.stepMod := by
  rw [stepModDone_eq]
  obtain ⟨hq, hc⟩ := commitFrame_stepAnswer (stepModIn s a) (fun p => !p.vals.any (fun x => (tabFind (stepModIn s a).par.stepMod x.1).isSome)) 0
  unfold commitsEnd at hc
  exact ⟨hq, by rw [hc], by rw [hc]⟩

/-- What a block that is written leaves. -/
structure BlockWritten (s : State) (n l : Nat) (t : State) : Prop where
  frame : quiet { s with nodes := t.nodes, par := t.par } t
  acks : s.par.stepMod = [] → t.par = s.par
  pending : l ∉ (ndOf t n).wrPend
  force : ∀ a, laxAxis s n l = some a → (ndOf s n).wrBad.contains l = false →
    t.par.force = tabMerge s.par.force (s.par.stepMod.filter (fun y => y.1 % 256 = a)) ∧ ∀ y ∈ t.par.stepMod, y.1 % 256 ≠ a

theorem blockWritten_written (s : State) (n l : Nat) : BlockWritten s n l (blockWritten s n l) := by
  have hp : l ∉ (ndOf (modNd s n (blockDone l)) n).wrPend := by
    rw [ndOf_modNd]
    exact fun h => by simpa using (List.mem_filter.mp h).2
  have stays (hf : ∀ a, laxAxis s n l = some a → (ndOf s n).wrBad.contains l = false → s.par.stepMod = []) : BlockWritten s n l (modNd s n (blockDone l)) := by
    refine ⟨rfl, fun _ => rfl, hp, fun a ha hb => ?_⟩
    have h0 : (modNd s n (blockDone l)).par.stepMod = [] := hf a ha hb
    rw [hf a ha hb, h0]
    exact ⟨rfl, by simp⟩
  unfold blockWritten
  simp only []
  rcases ha : laxAxis s n l with _ | a
  · exact stays fun a h => by simp [ha] at h
  · simp only []
    cases hc : (modNd s n (blockDone l)).par.stepMod != [] && !(ndOf s n).wrBad.contains l
    · refine stays fun _ _ hb => ?_
      rw [hb, modNd_par] at hc
      simpa using hc
    · obtain ⟨hq, hf, hm⟩ := stepModDone_par (modNd s n (blockDone l)) a
      rw [when_true]
      refine ⟨?_, fun h => ?_, ?_, fun i hi _ => ?_⟩
      · have hn := nodes_of_quiet hq
        unfold quiet at hq ⊢
        rw [hn]
        exact hq
      · rw [modNd_par, h] at hc
        simp at hc
      · rw [ndOf_of_nodes (nodes_of_quiet hq)]
        exact hp
      · obtain rfl : a = i := Option.some.inj (ha.symm.trans hi)
        refine ⟨hf, fun y hy => ?_⟩
        rw [hm] at hy
        simpa using (List.mem_filter.mp hy).2

/-- What a transfer that is done leaves, where it was the one on the line of a branch. -/
structure XferSucceeded (s : State) (b : Nat) (x : Xfer) (t : State) : Prop where
  frame : quiet { s with brs := t.brs, brCnt := t.brCnt, nodes := t.nodes, warp := t.warp, par := t.par } t
  ended : (brOf t b).xfer = none
  acks : s.par.stepMod = [] → t.par = s.par
  timing : ∀ adj, x.kind = .timing adj → (ndOf t x.node).tRt = (ndOf s x.node).tRt + adj
  block : ∀ l, parLax x.kind = some l → blockWaits s x.node l = false →
    l ∉ (ndOf t x.node).wrPend ∧ (∀ a, laxAxis s x.node l = some a → (ndOf s x.node).wrBad.contains l = false →
      t.par.force = tabMerge s.par.force (s.par.stepMod.filter (fun y => y.1 % 256 = a)) ∧ ∀ y ∈ t.par.stepMod, y.1 % 256 ≠ a)

theorem blockWaits_replyTaken (s : State) (b viol n l : Nat) : blockWaits (replyTaken s b viol) n l = blockWaits s n l := by
  unfold blockWaits
  rw [xfers_replyTaken]
theorem xferSucceeded (s : State) (b : Nat) (x : Xfer) (viol : Nat) (d : Bytes) : XferSucceeded s b x (xferDone (replyTaken s b viol) x d) := by
  have hv := replyTaken_frame s b viol
  have hb : (brOf (replyTaken s b viol) b).xfer = none := by rw [brOf_replyTaken]
  have hw := blockWaits_replyTaken s b viol x.node
  have hnd : ndOf (replyTaken s b viol) x.node = ndOf s x.node := rfl
  have hpar : (replyTaken s b viol).par = s.par := rfl
  have hlax : ∀ l, laxAxis (replyTaken s b viol) x.node l = laxAxis s x.node l := fun _ => rfl
  generalize replyTaken s b viol = v at *
  rcases hl : parLax x.kind with _ | l
  · obtain ⟨hq, hi⟩ := planFrame_xferDone v hl d
    have hp : (xferDone v x d).par = v.par := (par_of_quiet hq :)
    refine ⟨?_, hi b hb, fun _ => hp.trans hpar, fun adj hk => ?_, fun l h => ?_⟩
    · unfold quiet at *
      rw [hq, hv]
    · rw [tRt_xferDone v hk, hnd]
    · rw [hl] at h
      cases h
  · have ht : ∀ adj, x.kind ≠ .timing adj := fun adj h => by
      rw [h] at hl
      cases hl
    rw [xferDone_block v hl]
    cases hc : blockWaits v x.node l
    · obtain ⟨hq, ha, hpe, hfo⟩ := blockWritten_written v x.node l
      rw [if_neg Bool.false_ne_true]
      refine ⟨?_, ?_, ?_, fun adj h => absurd h (ht adj), fun j hj _ => ?_⟩
      · unfold quiet at *
        rw [hq, hv]
      · have h : brOf (blockWritten v x.node l) b = brOf v b := brOf_of_brs (brs_of_quiet hq) b
        rw [h, hb]
      · rw [← hpar]
        exact ha
      · obtain rfl : l = j := Option.some.inj (hl.symm.trans hj)
        rw [hlax, hnd, hpar] at hfo
        exact ⟨hpe, hfo⟩
    · rw [if_pos rfl]
      refine ⟨?_, hb, fun _ => hpar, fun adj h => absurd h (ht adj), fun j hj hn => ?_⟩
      · unfold quiet at *
        rw [hv]
      · obtain rfl : l = j := Option.some.inj (hl.symm.trans hj)
        rw [← hw, hc] at hn
        cases hn

/-! ### ACYCLIC_REPLY_RECEIVE and ACYCLIC_REPLY_GATE_CLOSE -/

section
variable {s : State} {b : BranchNo} {x : Xfer} (hx : (brOf s b).xfer = some x)
include hx
/-- The reply to a part of a replaced download leads to nothing (R236). -/
theorem reply_stale (hs : x.stale = true) (viol : Nat) : exec (.acyclicReplyGateClose ⟨b, viol⟩) s = .next (replyTaken s b viol) ∧
    ∀ start f, exec (.acyclicReplyReceive b ⟨start, viol⟩ f) s = exec (.acyclicReplyGateClose ⟨b, viol⟩) s :=
  ⟨exec_replyGate_stale hx hs viol, fun start f => (exec_reply_stale hx hs start viol f).trans (exec_replyGate_stale hx hs viol).symm⟩

section
variable (hs : x.stale = false)
include hs
theorem reply_fails {start : Int} {viol : Nat} {f : Bytes}
    (h : replyBand start = false ∨ viol ≠ 0 ∨ replyStat s x f = none ∨ replyStat s x f = some 3) :
    goes (.acyclicReplyReceive b ⟨start, viol⟩ f) s (XferFailed s b x viol) := by
  have ht := xferFailed s b x viol
  rw [← replyEnds_fails f h] at ht
  exact goes_quiet (exec_reply_awaited hx hs start viol f) ht.frame ht
theorem replyGate_fails (viol : Nat) : goes (.acyclicReplyGateClose ⟨b, viol⟩) s (XferFailed s b x viol) :=
  goes_quiet (exec_replyGate_awaited hx hs viol) (xferFailed s b x viol).frame (xferFailed s b x viol)

section
variable {start : Int} {f : Bytes} (hb : replyBand start = true)
include hb
/-- The pieces of the block whose write fails wait no more, and the block is marked (R233). -/
theorem reply_abandons {st : Nat} (hst : replyStat s x f = some st) (h0 : st ≠ 0) (h3 : st ≠ 3) (h4 : ¬(x.kind = .tableCrc ∧ st = 4)) :
    goes (.acyclicReplyReceive b ⟨start, 0⟩ f) s (fun t => XferAbandoned s b x 0 t ∧
      ∀ l, parLax x.kind = some l → l ∈ (ndOf t x.node).wrBad ∧ l ∉ (ndOf t x.node).wrPend) := by
  have he := exec_reply_status hx hs hb f
  rw [hst, replyEnds_status _ _ h0 h3, if_neg h4] at he
  refine goes_quiet he (xferAbandoned s b x 0).frame ⟨xferAbandoned s b x 0, fun l hl => ?_⟩
  rw [ndOf_xferAbandon_block hl]
  exact blockBad_marks l _
theorem reply_crcRefused (hst : replyStat s x f = some 4) (hk : x.kind = .tableCrc) : goes (.acyclicReplyReceive b ⟨start, 0⟩ f) s (fun t =>
    quiet { s with brs := t.brs, brCnt := t.brCnt, nodes := t.nodes, ndCnt := t.ndCnt } t ∧ (brOf t b).xfer = none ∧
    (ndcOf t x.node).acycFail = satInc 16 (ndcOf s x.node).acycFail ∧ (ndOf t x.node).imgRetry = !(ndOf s x.node).imgRetry) := by
  have he := exec_reply_status hx hs hb f
  rw [hst, replyEnds_status _ _ (by decide) (by decide), if_pos ⟨hk, rfl⟩] at he
  obtain ⟨hq, hi, hc, ha⟩ := crcRefused_refused (replyTaken s b 0) hk
  have hf := replyTaken_frame s b 0
  have hf' := crcRefused_frame hf hq
  exact goes_quiet he hf' ⟨hf', hi b (by rw [brOf_replyTaken]), hc, ha⟩
theorem reply_succeeds (hst : replyStat s x f = some 0) : goes (.acyclicReplyReceive b ⟨start, 0⟩ f) s (XferSucceeded s b x) := by
  have he := exec_reply_status hx hs hb f
  rw [hst] at he
  exact goes_quiet he (xferSucceeded s b x 0 _).frame (xferSucceeded s b x 0 _)
end
end
end

theorem reply_unawaited {s : State} {b : BranchNo} (hx : (brOf s b).xfer = none) : (∀ v, exec (.acyclicReplyGateClose ⟨b, v⟩) s = .next s) ∧
    ∀ i v f, exec (.acyclicReplyReceive b ⟨i, v⟩ f) s = .next s := by
  refine ⟨fun v => ?_, fun i v f => ?_⟩
  · rw [exec_replyGate, hx]
    rfl
  · rw [exec_reply, hx]
    rfl

/-! ### DESCRIPTOR_RETRY_EXPIRY -/

theorem exec_descriptorRetryExpiry (n : NodeNo) (s : State) : exec (.descriptorRetryExpiry n) s = finishD s (match (ndOf s n).descRetry with
    | some k => if boltReached s k ∧ (ndOf s n).admitted = true then modNd s n (fun d => { d with descRetry := none, descDue := true, descPart := [] }) else s
    | none => s) := rfl
theorem descriptorRetryExpiry_due {s : State} {n : NodeNo} {k : Nat} (h : (ndOf s n).descRetry = some k) (hk : boltReached s k = true) (ha : (ndOf s n).admitted = true) :
    exec (.descriptorRetryExpiry n) s = .next (modNd s n (fun d => { d with descRetry := none, descDue := true, descPart := [] })) := by
  rw [exec_descriptorRetryExpiry, h]
  simp only [hk, ha, and_self, if_true]
  rfl
theorem descriptorRetryExpiry_idle {s : State} {n : NodeNo}
    (h : (ndOf s n).descRetry = none ∨ (ndOf s n).descRetry.any (boltReached s) = false ∨ (ndOf s n).admitted = false) :
    exec (.descriptorRetryExpiry n) s = .next s := by
  rw [exec_descriptorRetryExpiry]
  split
  · next k hk =>
    rw [hk, Option.any_some] at h
    have hc : ¬(boltReached s k = true ∧ (ndOf s n).admitted = true) := by
      rintro ⟨hb, ha⟩
      rcases h with h | h | h
      · cases h
      · exact Bool.false_ne_true (h.symm.trans hb)
      · exact Bool.false_ne_true (h.symm.trans ha)
    rw [if_neg hc]
    rfl
  · rfl

end Sys2Proof.Machine

/-- Settles O37: a window carries what `windowCarries` says of the state behind its opening, and a reply ends the transfer that its branch awaits
(`replyTaken`), which is then repeated, abandoned or done. -/
theorem acyclicRows : Obligations.AcyclicRows := by
  intro s b
  refine ⟨fun k => acyclicWindow_goes, fun k => acyclicWindow_idle, fun x hx hs => reply_stale hx hs, fun x start viol f hx hs h => ?_,
    fun x start st f hx hs hb hst h0 h3 h4 => ?_, fun x start f hx hs hb => reply_crcRefused hx hs hb, fun x start f hx hs hb hst => ?_,
    fun x viol hx hs => ?_, reply_unawaited, fun n k => descriptorRetryExpiry_due, fun n => descriptorRetryExpiry_idle⟩
  · obtain ⟨t, he, ht⟩ := reply_fails hx hs h
    exact ⟨t, he, ht.others, ht.ended, ht.viols, ht.repeats, ht.abandoned⟩
  · obtain ⟨t, he, ht, hw⟩ := reply_abandons hx hs hb hst h0 h3 h4
    exact ⟨t, he, ht.frame, ht.acks, ht.others, by rw [ht.branch], ht.count, hw⟩
  · obtain ⟨t, he, ht⟩ := reply_succeeds hx hs hb hst
    exact ⟨t, he, ht.frame, ht.ended, ht.acks, ht.timing, ht.block⟩
  · obtain ⟨t, he, ht⟩ := replyGate_fails hx hs viol
    refine ⟨t, he, ht.others, ht.ended, ht.viols, ht.repeats, fun h => ?_⟩
    obtain ⟨hq, ha, -, hc⟩ := ht.abandoned h
    exact ⟨hq, ha, hc⟩

end

section
/-! What stands of an axis through the operations that stop its profile, change its state or take a fault: its state machine where only
references and outputs are set back, its feedback record and the marks of its job where its state changes. -/
open Sys2Proof Sys2Proof.Machine
namespace Sys2Proof.Machine

/-! ### What the operations of an axis leave of it -/

/-- The state machine and the feedback record of an axis. -/
def senses (x : Axis) : AxSm × AxFb := (x.sm, x.fb)
/-- The feedback record of an axis, and the marks of its job of the pick. -/
def jobMarks (x : Axis) : AxFb × Bool × Bool := (x.fb, x.sm.decoded, x.sm.jobDone)
/-- Outside axes, groups and the carriers nothing has changed, and of the axes no state machine and no feedback record. -/
def idleFrame (s t : State) : Prop := quiet { s with axes := t.axes, grps := t.grps } t ∧ ∀ k, senses (axOf t k) = senses (axOf s k)
/-- Outside axes, groups, histories, echo outputs and the carriers nothing has changed, and of the axes no feedback record and no mark of a job. -/
def jobFrame (s t : State) : Prop :=
  quiet { s with axes := t.axes, grps := t.grps, kiln := { s.kiln with hists := t.kiln.hists }, echo := t.echo } t ∧
    ∀ k, jobMarks (axOf t k) = jobMarks (axOf s k)

theorem axes_of_quiet {s t : State} (h : quiet s t) : t.axes = s.axes := by
  unfold quiet at h
  rw [h]
theorem axOf_of_quiet {s t : State} (h : quiet s t) (k : Nat) : axOf t k = axOf s k := axOf_of_axes (axes_of_quiet h) k
theorem idleFrames : Frame idleFrame where
  carriers h := by
    refine ⟨?_, fun k => by rw [axOf_of_quiet h.1]⟩
    have hq := h.1
    unfold quiet at *
    rw [hq]
  trans := fun ⟨h, hk⟩ ⟨k, kk⟩ => by
    refine ⟨?_, fun j => (kk j).trans (hk j)⟩
    unfold quiet at *
    rw [k, h]
theorem jobFrames : Frame jobFrame where
  carriers h := by
    refine ⟨?_, fun k => by rw [axOf_of_quiet h.1]⟩
    have hq := h.1
    unfold quiet at *
    rw [hq]
  trans := fun ⟨h, hk⟩ ⟨k, kk⟩ => by
    refine ⟨?_, fun j => (kk j).trans (hk j)⟩
    unfold quiet at *
    rw [k, h]
theorem jobMarks_of_senses {x y : Axis} (h : senses x = senses y) : jobMarks x = jobMarks y := by
  obtain ⟨hs, hf⟩ := Prod.mk.inj h
  unfold jobMarks
  rw [hs, hf]
theorem idleFrame.job {s t : State} (h : idleFrame s t) : jobFrame s t := by
  refine ⟨?_, fun k => jobMarks_of_senses (h.2 k)⟩
  have hq := h.1
  unfold quiet at *
  rw [hq]
theorem idleFrame.sm {s t : State} (h : idleFrame s t) (k : Nat) : (axOf t k).sm = (axOf s k).sm := congrArg Prod.fst (h.2 k)
theorem jobFrame.fb {s t : State} (h : jobFrame s t) (k : Nat) : (axOf t k).fb = (axOf s k).fb := congrArg Prod.fst (h.2 k)
theorem jobFrame.unit {s t : State} (h : jobFrame s t) : unitFrame s t := by
  have hq := h.1
  unfold unitFrame quiet at *
  rw [hq]

/-- What a change of one axis leaves of it, it leaves of every axis. -/
theorem axPart_modAx {β : Type} (p : Axis → β) (s : State) (a : Nat) {f : Axis → Axis} (hf : ∀ x, p (f x) = p x) (k : Nat) :
    p (axOf (modAx s a f) k) = p (axOf s k) := by
  by_cases hk : k = a
  · subst hk
    rw [axOf_modAx, hf]
  · rw [axOf_modAx_other _ _ hk]

section
variable (s : State) (a : Nat)
theorem idleFrame_modAx (f : Axis → Axis) (hf : ∀ x, senses (f x) = senses x := by exact fun _ => rfl) : idleFrame s (modAx s a f) :=
  ⟨rfl, axPart_modAx senses s a hf⟩
theorem jobFrame_modAx (f : Axis → Axis) (hf : ∀ x, jobMarks (f x) = jobMarks x := by exact fun _ => rfl) : jobFrame s (modAx s a f) :=
  ⟨rfl, axPart_modAx jobMarks s a hf⟩
theorem idleFrame_modGrp (g : Nat) (f : Grp → Grp) : idleFrame s (modGrp s g f) := ⟨rfl, fun _ => rfl⟩
theorem idleFrame_modHm (f : AxHome → AxHome) : idleFrame s (modHm s a f) :=
  idleFrames.trans (idleFrame_modAx s a _) (idleFrames.cond _ (fun t => idleFrames.item t _) _)
theorem jobFrame_modHi (f : Hist → Hist) : jobFrame s (modHi s a f) := ⟨rfl, fun _ => rfl⟩

/-! ### Loops, profile and homing set back (R208, R289, R291, R297, R318) -/

theorem idleFrame_boostStart : idleFrame s (boostStart s a) := by
  unfold boostStart
  simp only []
  split
  · exact idleFrame_modAx s a _
  · exact idleFrames.trans (idleFrames.trans (idleFrame_modAx s a _) (idleFrame_modAx _ a _)) (idleFrames.event _ _ _ _)
theorem idleFrame_enableReset : idleFrame s (enableReset s a) :=
  idleFrames.trans (idleFrames.trans (idleFrame_modAx s a _) (idleFrame_modAx _ a _)) (idleFrame_boostStart _ a)
theorem idleFrame_ovrStop (on : Bool) : idleFrame s (ovrStop s a on) := by
  unfold ovrStop
  split
  · exact idleFrames.refl s
  · exact idleFrames.trans (idleFrames.trans (idleFrame_modAx s a _) (idleFrames.waits _ _ _ _))
      (idleFrames.ite (idleFrame_enableReset _ a) (idleFrame_modAx _ a _))
theorem idleFrame_queueDrop : idleFrame s (queueDrop s a) := by
  unfold queueDrop
  simp only []
  split
  · exact idleFrames.refl s
  · exact idleFrames.trans (idleFrames.trans (idleFrame_modAx s a _) (idleFrames.event _ _ _ _)) (idleFrames.item _ _)
theorem idleFrame_grpItem (g : Nat) : idleFrame s (grpItem s g) := idleFrames.item s _
theorem idleFrame_grpDrop (g : Nat) : idleFrame s (grpDrop s g) := by
  unfold grpDrop
  simp only []
  split
  · exact idleFrames.refl s
  · exact idleFrames.trans (idleFrames.trans (idleFrame_modGrp s g _) (idleFrame_grpItem _ g)) (idleFrames.event _ _ _ _)
theorem idleFrame_grpLeave : idleFrame s (grpLeave s a) := by
  unfold grpLeave
  split
  · exact idleFrames.trans (idleFrame_grpDrop s _) (idleFrames.cond _ (fun t => idleFrames.trans (idleFrame_modGrp t _ _) (idleFrame_grpItem _ _)) _)
  · exact idleFrames.refl s
theorem idleFrame_grpStop (g : Nat) (ms : List Nat) (dec : Nat → Int) : idleFrame s (grpStop s g ms dec) :=
  idleFrames.trans (idleFrames.trans (idleFrame_grpDrop s g) (idleFrame_modGrp _ g _)) (idleFrame_grpItem _ g)
theorem idleFrame_profIdle : idleFrame s (profIdle s a) :=
  idleFrames.trans (idleFrames.trans (idleFrame_queueDrop s a) (idleFrame_grpLeave _ a)) (idleFrame_modAx _ a _)
theorem idleFrame_homeEnd (r : Nat) : idleFrame s (homeEnd s a r) := by
  unfold homeEnd
  simp only []
  split
  · exact idleFrames.refl s
  · exact idleFrames.trans (idleFrame_modHm s a _) (idleFrames.event _ _ _ _)

/-! ### States and faults (R205, R209, R211) -/

theorem marks_onceAdd (c : Nat) (m : AxSm) : ((onceAdd c m).decoded, (onceAdd c m).jobDone) = (m.decoded, m.jobDone) := by
  unfold onceAdd
  split <;> rfl
theorem jobFrame_once (c : Nat) (f : AxSm → AxSm) (hf : ∀ m, ((f m).decoded, (f m).jobDone) = (m.decoded, m.jobDone)) :
    jobFrame s (modSm s a (fun m => onceAdd c (f m))) :=
  jobFrame_modAx s a _ (fun x => congrArg (Prod.mk x.fb) ((marks_onceAdd c (f x.sm)).trans (hf x.sm)))
theorem jobFrame_setSt (st : AxSt) : jobFrame s (setSt s a st) := by
  unfold setSt
  split
  · exact jobFrames.refl s
  · exact jobFrames.trans (jobFrames.trans (jobFrame_once s a 0x610E (fun m => { m with st := st, changed := true }) (fun _ => rfl)) (idleFrame_ovrStop _ a _).job) (jobFrames.item _ _)
theorem jobFrame_histFault : jobFrame s (histFault s a) := jobFrame_modHi s a _
theorem jobFrame_enterFault (c r : Nat) : jobFrame s (enterFault s a c r) := by
  unfold enterFault
  extract_lets off s1 s2 s3
  have h1 : jobFrame s s1 := jobFrame_modAx s a _
  have h2 : jobFrame s s2 := jobFrames.trans (jobFrames.trans h1 (jobFrame_setSt s1 a _)) (idleFrame_homeEnd _ a _).job
  clear_value s2
  have h3 : jobFrame s2 s3 := jobFrames.ite (idleFrame_profIdle s2 a).job (jobFrames.trans (idleFrame_queueDrop s2 a).job (jobFrame_modAx _ a _))
  exact jobFrames.trans (jobFrames.trans (jobFrames.trans h2 h3) (jobFrame_histFault s3 a)) (jobFrames.item _ _)
theorem jobFrame_react1 (c r : Nat) : jobFrame s (react1 s a c r) := by
  unfold react1
  simp only []
  split
  · exact jobFrames.refl s
  · exact jobFrames.ite (jobFrames.trans (jobFrame_modAx s a _) (jobFrames.item _ _)) (jobFrames.refl s)
  · exact jobFrames.ite (jobFrames.trans (jobFrames.trans (jobFrame_modAx s a _) (jobFrames.item _ _)) (idleFrame_profIdle _ a).job)
      (jobFrames.ite (jobFrames.trans (jobFrame_modAx s a _) (jobFrames.item _ _)) (jobFrames.refl s))
  · exact jobFrame_enterFault s a c r
/-- Another member of the group of an axis that takes QSTOP or OFF stops with GROUP_STOP (R213). -/
def memberStopped (s : State) (o : Nat) : State := react1 (modSm (raise s 0x610C o []) o (fun x => { x with faults := [0x610C] })) o 0x610C (reactFor s o 1)
theorem jobFrame_memberStopped : jobFrame s (memberStopped s a) :=
  jobFrames.trans (jobFrames.trans (jobFrames.event s _ _ _) (jobFrame_modAx _ a _)) (jobFrame_react1 _ a _ _)
theorem jobFrame_takeFaults (fs : List (Nat × Nat)) : jobFrame s (takeFaults s a fs) := by
  unfold takeFaults
  split
  · exact jobFrames.refl s
  · extract_lets fs1 m new s0 cs s1 b others s2 s3
    have h0 : jobFrame s s0 := jobFrames.loop new (fun t f => jobFrames.event t f.1 a []) s
    have h1 : jobFrame s s1 := jobFrames.trans h0 (jobFrame_modAx s0 a _)
    clear_value s1
    have h3 : jobFrame s1 s3 := jobFrames.trans (jobFrame_react1 s1 a _ _) (jobFrames.loop others jobFrame_memberStopped s2)
    clear_value s3
    exact jobFrames.ite h1 (jobFrames.ite (jobFrames.trans (jobFrames.trans h1 h3) (idleFrame_grpStop s3 _ _ _).job) (jobFrames.trans h1 h3))
end

end Sys2Proof.Machine
end

section
/-! A fault whose reaction is OFF: what it makes of the state machine of its axis and of the other members of its group, and how many events
the log takes with it (R205, R209, R211, R213). -/
open Sys2Proof Sys2Proof.Machine
namespace Sys2Proof.Machine

/-! ### Where a fault leads -/

/-- A state machine that a fault brings to OFF: power is on or may come on, or a reaction is in force already. -/
def canFall (m : AxSm) : Prop := m.st ∈ [AxSt.ready, .enabled, .moving, .hold] ∨ (m.st = .fault ∧ (m.react = 1 ∨ m.react = 2))
/-- A state machine in FAULT with the power stage off. -/
def isOff (m : AxSm) : Prop := m.st = .fault ∧ m.react = 2
/-- What faults may make of a state machine. -/
structure FaultWay (x y : AxSm) : Prop where
  falls : canFall x → canFall y
  off : isOff x → isOff y
  rest : x.st = .disabled ∨ x.st = .safeOff → y.st = x.st
theorem FaultWay.refl (x : AxSm) : FaultWay x x := ⟨id, id, fun _ => rfl⟩
theorem FaultWay.trans {x y z : AxSm} (h : FaultWay x y) (k : FaultWay y z) : FaultWay x z :=
  ⟨fun hx => k.falls (h.falls hx), fun hx => k.off (h.off hx), fun hx => (k.rest (by rw [h.rest hx]; exact hx)).trans (h.rest hx)⟩
/-- A change that leaves state, reaction and so the way of an axis. -/
theorem faultWay_of_eq {x y : AxSm} (hs : y.st = x.st) (hr : y.react = x.react) : FaultWay x y := by
  refine ⟨fun h => ?_, fun h => ?_, fun _ => hs⟩
  · unfold canFall at *
    rw [hs, hr]
    exact h
  · unfold isOff at *
    rw [hs, hr]
    exact h
/-- The state machine of every axis goes the way of faults. -/
def faultsOnly (s t : State) : Prop := ∀ k, FaultWay (axOf s k).sm (axOf t k).sm
theorem faultsOnly_of_axes {s t : State} (h : t.axes = s.axes) : faultsOnly s t := fun k => by
  rw [axOf_of_axes h]
  exact .refl _
theorem faultsFrames : Frame faultsOnly where
  carriers h := faultsOnly_of_axes (axes_of_quiet h.1)
  trans h k i := (h i).trans (k i)
theorem idleFrame.faults {s t : State} (h : idleFrame s t) : faultsOnly s t := fun k => by
  rw [h.sm k]
  exact .refl _
/-- What changes one axis only, in the way of faults. -/
theorem faultsOnly_of_local {s t : State} {a : Nat} (h : axLocal s t a) (ha : FaultWay (axOf s a).sm (axOf t a).sm) : faultsOnly s t := fun k => by
  by_cases hk : k = a
  · rw [hk]
    exact ha
  · rw [h.2 k hk]
    exact .refl _

section
variable (s : State) (a : Nat)
theorem sm_modSm (f : AxSm → AxSm) : (axOf (modSm s a f) a).sm = f (axOf s a).sm := congrArg Axis.sm (axOf_modAx s a fun x => { x with sm := f x.sm })
theorem faultsOnly_modSm (f : AxSm → AxSm) (hf : ∀ m, FaultWay m (f m)) : faultsOnly s (modSm s a f) :=
  faultsOnly_of_local (axLocal_modSm s a f) (by rw [sm_modSm]; exact hf _)
theorem onceAdd_keeps (c : Nat) (m : AxSm) : (onceAdd c m).st = m.st ∧ (onceAdd c m).react = m.react ∧ (onceAdd c m).fcode = m.fcode := by
  unfold onceAdd
  split <;> exact ⟨rfl, rfl, rfl⟩
/-- A change of state sets the state alone of what a reaction is told by (R205). -/
theorem setSt_sets (st : AxSt) : (axOf (setSt s a st) a).sm.st = st ∧ (axOf (setSt s a st) a).sm.react = (axOf s a).sm.react ∧
    (axOf (setSt s a st) a).sm.fcode = (axOf s a).sm.fcode := by
  unfold setSt
  split
  next h => exact ⟨h, rfl, rfl⟩
  next =>
    have hi (t : State) (on : Bool) : (axOf (axItem (ovrStop t a on) a) a).sm = (axOf t a).sm :=
      (idleFrames.trans (idleFrame_ovrStop t a on) (idleFrames.item _ _)).sm a
    rw [hi, sm_modSm]
    exact onceAdd_keeps 0x610E _
/-- An axis that enters FAULT has the reaction and the code of the fault (R205, R211). -/
theorem enterFault_sets (c r : Nat) : (axOf (enterFault s a c r) a).sm.st = .fault ∧ (axOf (enterFault s a c r) a).sm.react = r ∧
    (axOf (enterFault s a c r) a).sm.fcode = c := by
  unfold enterFault
  extract_lets off s1 s2 s3
  obtain ⟨hst, hr, hc⟩ := setSt_sets s1 a .fault
  have h1 : (axOf s1 a).sm.react = r ∧ (axOf s1 a).sm.fcode = c := by
    rw [show (axOf s1 a).sm = _ from sm_modSm s a _]
    exact ⟨rfl, rfl⟩
  have h2 : idleFrame (setSt s1 a .fault) s2 := idleFrame_homeEnd _ a _
  have h3 : idleFrame s2 s3 := idleFrames.ite (idleFrame_profIdle s2 a) (idleFrames.trans (idleFrame_queueDrop s2 a) (idleFrame_modAx _ a _))
  have h4 : (axOf (axItem (histFault s3 a) a) a).sm = (axOf (setSt s1 a .fault) a).sm := (idleFrames.trans h2 h3).sm a
  rw [h4]
  exact ⟨hst, hr.trans h1.1, hc.trans h1.2⟩

/-! ### The reaction of one axis (R205, R211) -/

variable {s a}
theorem react1_live (h : (axOf s a).sm.st ∈ [AxSt.ready, .enabled, .moving, .hold]) (c r : Nat) : react1 s a c r = enterFault s a c r := by
  simp only [List.mem_cons, List.not_mem_nil, or_false] at h
  unfold react1
  rcases h with h | h | h | h <;> simp only [h]
theorem react1_disabled (h : (axOf s a).sm.st = .disabled) (c r : Nat) : react1 s a c r = s := by
  unfold react1
  simp only [h]
theorem st_react1_safeOff (h : (axOf s a).sm.st = .safeOff) (c r : Nat) : (axOf (react1 s a c r) a).sm.st = .safeOff := by
  have hi (t : State) : (axOf (axItem t a) a).sm = (axOf t a).sm := (idleFrames.item t _).sm a
  unfold react1
  simp only [h]
  split
  · rw [hi, sm_modSm]
    exact h
  · exact h
theorem react1_fault (h : (axOf s a).sm.st = .fault) (c r : Nat) : (axOf (react1 s a c r) a).sm.st = .fault ∧
    (axOf (react1 s a c r) a).sm.react = if (axOf s a).sm.react = 1 ∧ r = 2 then 2 else (axOf s a).sm.react := by
  have hi (t : State) : (axOf (axItem t a) a).sm = (axOf t a).sm := (idleFrames.item t _).sm a
  have hp (t : State) : (axOf (profIdle t a) a).sm = (axOf t a).sm := (idleFrame_profIdle t a).sm a
  unfold react1
  simp only [h]
  split
  · rw [hp, hi, sm_modSm]
    exact ⟨h, rfl⟩
  · split
    · rw [hi, sm_modSm]
      exact ⟨h, rfl⟩
    · exact ⟨h, rfl⟩

/-- OFF takes an axis that can fall to FAULT with the power stage off. -/
theorem isOff_react1 (h : canFall (axOf s a).sm) (c : Nat) : isOff (axOf (react1 s a c 2) a).sm := by
  rcases h with h | ⟨h, hr⟩
  · rw [react1_live h]
    obtain ⟨hs, hr, -⟩ := enterFault_sets s a c 2
    exact ⟨hs, hr⟩
  · obtain ⟨hs, ht⟩ := react1_fault h c 2
    refine ⟨hs, ht.trans ?_⟩
    rcases hr with hr | hr <;> simp [hr]
theorem faultWay_react1 (c : Nat) {r : Nat} (hr : r = 1 ∨ r = 2) : FaultWay (axOf s a).sm (axOf (react1 s a c r) a).sm := by
  cases h : (axOf s a).sm.st
  case disabled =>
    rw [react1_disabled h]
    exact .refl _
  case safeOff => 
    refine ⟨fun hf => ?_, fun hf => ?_, fun _ => (st_react1_safeOff h c r).trans h.symm⟩
    · simp [canFall, h] at hf
    · simp [isOff, h] at hf
  case fault =>
    obtain ⟨hs, ht⟩ := react1_fault h c r
    refine ⟨fun hf => .inr ⟨hs, ?_⟩, fun hf => ⟨hs, ?_⟩, fun hn => by simp [h] at hn⟩
    · rw [ht]
      have hf : (axOf s a).sm.react = 1 ∨ (axOf s a).sm.react = 2 := by simpa [canFall, h] using hf
      split
      · exact .inr rfl
      · exact hf
    · rw [ht, hf.2]
      rfl
  all_goals
    have hl : (axOf s a).sm.st ∈ [AxSt.ready, .enabled, .moving, .hold] := by simp [h]
    obtain ⟨hs, ht, -⟩ := enterFault_sets s a c r
    rw [react1_live hl]
    exact ⟨fun _ => .inr ⟨hs, by rw [ht]; exact hr⟩, fun hf => by simp [isOff, h] at hf, fun hn => by simp [h] at hn⟩
theorem faultsOnly_react1 (c : Nat) {r : Nat} (hr : r = 1 ∨ r = 2) : faultsOnly s (react1 s a c r) :=
  faultsOnly_of_local (axLocal_react1 s a c r) (faultWay_react1 c hr)
end

/-! ### OFF and what it brings about in the group (R213) -/

/-- The faults of an axis, raised unless they stand in its reaction already (R214). -/
def faultsRaised (s : State) (a : Nat) (fs : List (Nat × Nat)) : State :=
  let m := (axOf s a).sm
  forEach (fs.filter (fun f => f.1 != 0x4104 && !(m.st = .fault && m.faults.contains f.1))) (fun t f => raise t f.1 a []) s
/-- The faults of an axis, raised and noted. -/
def faultsNoted (s : State) (a : Nat) (fs : List (Nat × Nat)) : State :=
  let m := (axOf s a).sm
  let cs := fs.map (·.1)
  modSm (faultsRaised s a fs) a (fun x => { x with faults := if m.st = .fault then x.faults ++ cs.filter (fun c => !x.faults.contains c) else cs })
/-- The members that OFF of an axis stops. -/
def othersStop (s : State) (a : Nat) : List Nat := if takesStop s a 2 then grpOthers s a else []
/-- One fault whose reaction is OFF, taken by its axis and the members that stop with it. -/
def offTaken (s : State) (a c : Nat) : State :=
  forEach (othersStop (faultsNoted s a [(c, 2)]) a) memberStopped (react1 (faultsNoted s a [(c, 2)]) a c 2)

section
variable (s : State) (a c : Nat)
theorem takeFaults_off : takeFaults s a [(c, 2)] =
    if inGroup s a ∧ takesStop (faultsNoted s a [(c, 2)]) a 2 = true then
      grpStop (offTaken s a c) (axGroup s a) ((othersStop (faultsNoted s a [(c, 2)]) a).filter (fun o => reactFor s o 1 = 1)) (fun i => pget s 0x0345 i)
    else offTaken s a c := by
  have hr : reactFor s a 2 = 2 := if_neg (fun h => absurd h.1 (by decide))
  unfold takeFaults
  rw [if_neg (List.cons_ne_nil _ _)]
  simp only [List.map_cons, List.map_nil, hr, strongest, List.headD_cons, List.foldl_cons, List.foldl_nil, Nat.lt_irrefl, and_false, or_self, if_false]
  rfl
theorem axes_grpStop (g : Nat) (ms : List Nat) (dec : Nat → Int) : (grpStop s g ms dec).axes = s.axes := by
  unfold grpStop grpDrop
  simp only []
  split <;> rfl
theorem axes_takeFaults_off : (takeFaults s a [(c, 2)]).axes = (offTaken s a c).axes := by
  rw [takeFaults_off]
  split
  · exact axes_grpStop _ _ _ _
  · rfl
theorem axes_faultsRaised (fs : List (Nat × Nat)) : (faultsRaised s a fs).axes = s.axes :=
  forEach_leaves (f := fun t (f : Nat × Nat) => raise t f.1 a []) State.axes fun _ _ _ => rfl
theorem par_faultsRaised (fs : List (Nat × Nat)) : (faultsRaised s a fs).par = s.par :=
  forEach_leaves (f := fun t (f : Nat × Nat) => raise t f.1 a []) State.par fun _ _ _ => rfl
theorem faultsNoted_way (fs : List (Nat × Nat)) : faultsOnly s (faultsNoted s a fs) := by
  unfold faultsNoted
  exact faultsFrames.trans (faultsOnly_of_axes (axes_faultsRaised s a fs)) (faultsOnly_modSm _ a _ fun _ => faultWay_of_eq rfl rfl)
theorem faultsOnly_memberStopped (o : Nat) : faultsOnly s (memberStopped s o) := by
  refine faultsFrames.trans (faultsFrames.trans (faultsFrames.event s 0x610C o [])
    (faultsOnly_modSm _ o _ (by exact fun _ => faultWay_of_eq rfl rfl))) (faultsOnly_react1 _ ?_)
  unfold reactFor
  split
  · exact .inr rfl
  · exact .inl rfl
theorem faultsOnly_offTaken : faultsOnly s (offTaken s a c) :=
  faultsFrames.trans (faultsFrames.trans (faultsNoted_way s a _) (faultsOnly_react1 c (.inr rfl))) (faultsFrames.loop _ faultsOnly_memberStopped _)
theorem faultsOnly_off : faultsOnly s (takeFaults s a [(c, 2)]) :=
  faultsFrames.trans (faultsOnly_offTaken s a c) (faultsOnly_of_axes (axes_takeFaults_off s a c))
end

/-- OFF takes an axis that can fall to FAULT with the power stage off, whatever its group does. -/
theorem isOff_takeFaults {s : State} {a : Nat} (h : canFall (axOf s a).sm) (c : Nat) : isOff (axOf (takeFaults s a [(c, 2)]) a).sm := by
  rw [axOf_of_axes (axes_takeFaults_off s a c)]
  exact ((faultsFrames.loop _ faultsOnly_memberStopped _) a).off (isOff_react1 ((faultsNoted_way s a _ a).falls h) c)
/-- A loop of OFF over axes takes those that can fall. -/
theorem isOff_loop {s : State} {xs : List Nat} {a : Nat} (hn : xs.Nodup) (ha : a ∈ xs) (h : canFall (axOf s a).sm) (c : Nat) :
    isOff (axOf (forEach xs (fun t k => takeFaults t k [(c, 2)]) s) a).sm :=
  forEach_turn (P := fun t => canFall (axOf t a).sm) (Q := fun t => isOff (axOf t a).sm) hn ha (fun _ ht => isOff_takeFaults ht c)
    (fun t k _ ht => (faultsOnly_off t k c a).falls ht) (fun t k _ ht => (faultsOnly_off t k c a).off ht) h

/-! ### Which axes OFF leaves (R213) -/

theorem grpMembers_of_par {s t : State} (h : t.par = s.par) (g : Nat) : grpMembers t g = grpMembers s g := by
  unfold grpMembers axClass axGroup pnat pget
  rw [h]
theorem inGroup_of_par {s t : State} (h : t.par = s.par) (a : Nat) : inGroup t a = inGroup s a := by
  unfold inGroup axGroup pnat pget
  rw [h]
theorem par_faultsNoted (s : State) (a : Nat) (fs : List (Nat × Nat)) : (faultsNoted s a fs).par = s.par := par_faultsRaised s a fs
theorem not_mem_othersStop_self (s : State) (a : Nat) : a ∉ othersStop s a := by
  unfold othersStop grpOthers
  split
  · split
    · simp
    · simp
  · simp
theorem not_mem_othersStop {s : State} {j : Nat} (h : inGroup s j = false) (a : Nat) : j ∉ othersStop s a := fun hj => by
  unfold othersStop grpOthers at hj
  split at hj
  · split at hj
    next hg =>
      obtain ⟨hm, -⟩ := List.mem_filter.mp hj
      obtain ⟨-, hm⟩ := List.mem_filter.mp hm
      simp only [Bool.and_eq_true, beq_iff_eq] at hm
      unfold inGroup at h hg
      rw [hm.2] at h
      rw [hg] at h
      cases h
    next => simp at hj
  · simp at hj
theorem axesBut_memberStopped (s : State) (o : Nat) : axesBut s (memberStopped s o) o :=
  (((axLocal_raise s o 0x610C o []).trans (axLocal_modAx _ _ _)).trans (axLocal_react1 _ _ _ _)).2
/-- The members that stop with an axis leave every axis that is none of them. -/
theorem axOf_membersStopped {xs : List Nat} {j : Nat} (h : j ∉ xs) (s : State) : axOf (forEach xs memberStopped s) j = axOf s j :=
  forEach_leaves (fun t => axOf t j) fun t o ho => axesBut_memberStopped t o j fun he => h (he ▸ ho)
theorem axesBut_faultsNoted (s : State) (a : Nat) (fs : List (Nat × Nat)) : axesBut s (faultsNoted s a fs) a :=
  axesBut.trans (fun k _ => axOf_of_axes (axes_faultsRaised s a fs) k) (axLocal_modSm _ a _).2
/-- OFF leaves the axes that belong to no group, but its own. -/
theorem axOf_takeFaults_other {s : State} {a j : Nat} (c : Nat) (hj : j ≠ a) (h : inGroup s j = false) : axOf (takeFaults s a [(c, 2)]) j = axOf s j := by
  rw [axOf_of_axes (axes_takeFaults_off s a c), offTaken,
    axOf_membersStopped (not_mem_othersStop ((inGroup_of_par (par_faultsNoted s a _) j).trans h) a), (axLocal_react1 _ a c 2).2 j hj, axesBut_faultsNoted s a _ j hj]
/-- OFF gives an axis without a fault the reaction and the code of its fault. -/
theorem takeFaults_off_sets {s : State} {a : Nat} (h : (axOf s a).sm.st ∈ [AxSt.ready, .enabled, .moving, .hold]) (c : Nat) :
    (axOf (takeFaults s a [(c, 2)]) a).sm.st = .fault ∧ (axOf (takeFaults s a [(c, 2)]) a).sm.react = 2 ∧ (axOf (takeFaults s a [(c, 2)]) a).sm.fcode = c := by
  have hs : (axOf (faultsNoted s a [(c, 2)]) a).sm.st = (axOf s a).sm.st := by
    rw [faultsNoted, sm_modSm, axOf_of_axes (axes_faultsRaised s a _)]
  rw [axOf_of_axes (axes_takeFaults_off s a c), offTaken, axOf_membersStopped (not_mem_othersStop_self _ a), react1_live (by rw [hs]; exact h)]
  exact enterFault_sets _ a c 2

/-! ### Events of a fault stay in the log (R397) -/

/-- What stood among the latest events of the log still stands among its latest, behind at most `n` new ones. -/
def logWithin (n : Nat) (s t : State) : Prop := ∀ k r, k + n ≤ 524288 → r ∈ s.log.recs.take k → r ∈ t.log.recs.take (k + n)
theorem logWithin_of_log {s t : State} (h : t.log = s.log) (n : Nat) : logWithin n s t := fun k r _ hr => by
  rw [h]
  exact List.take_subset_take_left _ (Nat.le_add_right k n) hr
theorem logWithin.trans {n m : Nat} {s t u : State} (h : logWithin n s t) (k : logWithin m t u) : logWithin (n + m) s u := fun i r hi hr => by
  rw [← Nat.add_assoc] at hi ⊢
  exact k (i + n) r hi (h i r (by omega) hr)
theorem logWithin.mono {n m : Nat} {s t : State} (h : logWithin n s t) (hn : n ≤ m) : logWithin m s t := fun i r hi hr =>
  List.take_subset_take_left _ (by omega) (h i r (by omega) hr)
theorem logWithin.same {n : Nat} {s t u : State} (h : logWithin n s t) (hu : u.log = t.log) : logWithin n s u := fun k r hk hr => by
  rw [hu]
  exact h k r hk hr
theorem logWithin_raise (s : State) (c i : Nat) (pl : Bytes) : logWithin 1 s (raise s c i pl) := fun k r hk hr => by
  show r ∈ List.take (k + 1) (List.take 524288 (_ :: s.log.recs))
  rw [List.take_take, Nat.min_eq_left hk, List.take_succ_cons]
  exact List.mem_cons_of_mem _ hr
theorem logWithin_loop {α : Type} {n : Nat} {f : State → α → State} (hf : ∀ t x, logWithin n t (f t x)) (xs : List α) (s : State) :
    logWithin (xs.length * n) s (forEach xs f s) := by
  unfold forEach
  induction xs generalizing s with
  | nil => exact logWithin_of_log rfl _
  | cons x xs ih => exact ((hf s x).trans (ih (f s x))).mono (by rw [List.length_cons, Nat.succ_mul, Nat.add_comm])
/-- An event that is raised is in the log, and stays in it behind any number of events that the log has room for. -/
theorem logWithin.logged {n : Nat} {s t : State} {c i : Nat} {pl : Bytes} (h : logWithin n (raise s c i pl) t) (hn : n < 524288) : logged t c i := by
  refine ⟨{ lseq := s.log.next, code := c, inst := i, pstamp := ps s, payload := pl, tstamp := s.clk.now,
            t0 := s.ptp.t0, h0s := s.ptp.h0s, h0ns := s.ptp.h0ns, rho := s.ptp.rho }, ?_, rfl, rfl⟩
  refine List.mem_of_mem_take (h 1 _ (by omega) ?_)
  show _ ∈ List.take 1 (List.take 524288 (_ :: _))
  rw [List.take_take, Nat.min_eq_left (by decide), List.take_succ_cons]
  exact List.mem_cons_self

section
variable (s : State) (a : Nat)
theorem log_produce (m : Nat) (f : Flight) (st : Nat) (pl : Bytes) : (produce s m f st pl).log = s.log := by
  refine (ringFrame_writeCpl _ m _).log.trans ?_
  unfold cplItem
  split <;> rfl
theorem log_completeWaits (p : Wait → Bool) (st : Nat) (pl : Bytes) : (completeWaits s p st pl).log = s.log :=
  forEach_leaves State.log fun _ m _ => forEach_leaves State.log fun u f _ => log_produce u m f st pl
theorem logWithin_queueDrop : logWithin 1 s (queueDrop s a) := by
  unfold queueDrop
  simp only []
  split
  · exact logWithin_of_log rfl 1
  · exact logWithin_raise (modProf s a fun q => { q with queue := [], act := false }) _ _ _
theorem logWithin_grpDrop (g : Nat) : logWithin 1 s (grpDrop s g) := by
  unfold grpDrop
  simp only []
  split
  · exact logWithin_of_log rfl 1
  · exact logWithin_raise (grpItem (modGrp s g fun x => { x with queue := [], act := false }) g) _ _ _
theorem logWithin_grpLeave : logWithin 1 s (grpLeave s a) := by
  unfold grpLeave when
  split
  · simp only []
    split
    · exact logWithin_grpDrop s _
    · exact logWithin_grpDrop s _
  · exact logWithin_of_log rfl 1
theorem logWithin_grpStop (g : Nat) (ms : List Nat) (dec : Nat → Int) : logWithin 1 s (grpStop s g ms dec) := logWithin_grpDrop s g
theorem logWithin_profIdle : logWithin 2 s (profIdle s a) := (logWithin_queueDrop s a).trans (logWithin_grpLeave _ a)
theorem log_modHm (f : AxHome → AxHome) : (modHm s a f).log = s.log := by
  unfold modHm when
  simp only []
  split <;> rfl
theorem logWithin_homeEnd (r : Nat) : logWithin 1 s (homeEnd s a r) := by
  unfold homeEnd
  simp only []
  split
  · exact logWithin_of_log rfl 1
  · exact ((logWithin_of_log (log_modHm s a _) 0).trans (logWithin_raise _ _ _ _)).mono (by decide)
theorem log_loopReset : (loopReset s a).log = s.log := rfl
theorem log_ovrStop_off : (ovrStop s a false).log = s.log := by
  unfold ovrStop
  split
  · rfl
  · simp only [Bool.false_eq_true, if_false]
    rw [log_loopReset, log_completeWaits]
    rfl
theorem log_setSt_fault : (setSt s a .fault).log = s.log := by
  unfold setSt
  split
  · rfl
  · simp only [axItem, sendItem_log, reduceCtorEq, decide_false, Bool.or_self]
    rw [log_ovrStop_off]
    rfl
theorem logWithin_enterFault (c r : Nat) : logWithin 3 s (enterFault s a c r) := by
  unfold enterFault
  extract_lets off s1 s2 s3
  have h1 : (setSt s1 a .fault).log = s.log := log_setSt_fault s1 a
  have h2 : logWithin (0 + 1) s s2 := (logWithin_of_log h1 0).trans (logWithin_homeEnd _ a _)
  have h3 : logWithin 2 s2 s3 := by
    unfold s3
    split
    · exact logWithin_profIdle s2 a
    · exact ((logWithin_queueDrop s2 a).mono (by decide)).same rfl
  exact h2.trans h3
theorem logWithin_react1 (c r : Nat) : logWithin 3 s (react1 s a c r) := by
  unfold react1
  simp only []
  split
  · exact logWithin_of_log rfl 3
  · split <;> exact logWithin_of_log rfl 3
  · split
    · exact (logWithin_profIdle (axItem (modSm s a _) a) a).mono (by decide)
    · split <;> exact logWithin_of_log rfl 3
  · exact logWithin_enterFault s a c r
theorem logWithin_memberStopped (o : Nat) : logWithin 4 s (memberStopped s o) :=
  (logWithin_raise s 0x610C o []).trans (logWithin_react1 (modSm (raise s 0x610C o []) o fun x => { x with faults := [0x610C] }) o _ _)
theorem length_othersStop : (othersStop s a).length ≤ 128 := by
  have hm (g : Nat) : (grpMembers s g).length ≤ 128 := (List.length_filter_le _ _).trans (by rw [List.length_range])
  unfold othersStop grpOthers
  split
  · split
    · exact (List.length_filter_le _ _).trans (hm _)
    · exact Nat.zero_le _
  · exact Nat.zero_le _
theorem logWithin_off (c : Nat) : logWithin 516 (faultsNoted s a [(c, 2)]) (takeFaults s a [(c, 2)]) := by
  have ht : logWithin 515 (faultsNoted s a [(c, 2)]) (offTaken s a c) :=
    ((logWithin_react1 _ a c 2).trans (logWithin_loop logWithin_memberStopped _ _)).mono (by have := length_othersStop (faultsNoted s a [(c, 2)]) a; omega)
  rw [takeFaults_off]
  split
  · exact ht.trans (logWithin_grpStop _ _ _ _)
  · exact ht.mono (by decide)
end
/-- OFF of an axis without a fault raises the event of its code. -/
theorem logged_takeFaults {s : State} {a c : Nat} (h : (axOf s a).sm.st ≠ .fault) (hc : c ≠ 0x4104) : logged (takeFaults s a [(c, 2)]) c a := by
  have hn : (faultsNoted s a [(c, 2)]).log = (raise s c a []).log := by
    simp [faultsNoted, faultsRaised, h, hc, forEach]
  exact logWithin.logged (n := 516) (fun k r hk hr => logWithin_off s a c k r hk (by rw [hn]; exact hr)) (by decide)

end Sys2Proof.Machine
end

section
/-! The lanes (R167 to R172, R180, R181): what the jobs of a lane and their loss change, and what a parity error and an error of a store leave. -/
open Sys2Proof Sys2Proof.Machine
namespace Sys2Proof.Machine

/-! ### What the lanes may change -/

/-- Outside lanes, axes, groups, the free values and the carriers nothing has changed, and of the axes no state machine and no feedback record. -/
def loomFrame (s t : State) : Prop :=
  quiet { s with lanes := t.lanes, lnCnt := t.lnCnt, axes := t.axes, grps := t.grps, freeCtr := t.freeCtr } t ∧
    ∀ k, senses (axOf t k) = senses (axOf s k)
theorem loomFrames : Frame loomFrame where
  carriers h := by
    refine ⟨?_, fun k => by rw [axOf_of_quiet h.1]⟩
    have hq := h.1
    unfold quiet at *
    rw [hq]
  trans := fun ⟨h, hk⟩ ⟨k, kk⟩ => by
    refine ⟨?_, fun j => (kk j).trans (hk j)⟩
    unfold quiet at *
    rw [k, h]
theorem idleFrame.loom {s t : State} (h : idleFrame s t) : loomFrame s t := by
  refine ⟨?_, h.2⟩
  have hq := h.1
  unfold quiet at *
  rw [hq]
theorem laneFrame.loom {s t : State} (h : laneFrame s t) : loomFrame s t := by
  refine ⟨?_, fun k => by rw [axOf_of_axes h.axes]⟩
  unfold laneFrame at h
  unfold quiet
  rw [h]
theorem loomFrame.unit {s t : State} (h : loomFrame s t) : unitFrame s t := by
  have hq := h.1
  unfold unitFrame quiet at *
  rw [hq]
theorem loomFrame.clk {s t : State} (h : loomFrame s t) : t.clk = s.clk := h.unit.eff.clk
theorem loomFrame.sm {s t : State} (h : loomFrame s t) (k : Nat) : (axOf t k).sm = (axOf s k).sm := congrArg Prod.fst (h.2 k)

section
variable (s : State) (a : Nat)
theorem still_raiseAt (c i : Nat) (pl : Bytes) (p : BitVec 32) : still s (raiseAt s c i pl p) := ⟨rfl, rfl⟩
theorem idleFrame_overrun (cause : Nat) (p : BitVec 32) : idleFrame s (overrun s a cause p) := by
  unfold overrun
  simp only []
  split
  · exact idleFrame_modAx s a _
  · exact idleFrames.trans (idleFrame_modAx s a _) (idleFrames.carriers (still_raiseAt _ _ _ _ _))
theorem loomFrame_lanesGo : loomFrame s (lanesGo s) := ⟨rfl, fun _ => rfl⟩
theorem loomFrame_jobPush (j : Job) : loomFrame s (jobPush s a j) := ⟨rfl, fun _ => rfl⟩
theorem loomFrame_jobLose (j : Job) : loomFrame s (jobLose s j) := by
  unfold jobLose
  split
  · exact (idleFrames.trans (idleFrame_modGrp s _ _) (idleFrames.loop _ (fun u k => idleFrame_overrun u k 1 _) _)).loom
  · split
    · exact (idleFrame_overrun s _ 1 _).loom
    · exact loomFrames.refl s
theorem loomFrame_interpCreate (td : Nat) : loomFrame s (interpCreate s a td) := by
  unfold interpCreate
  split
  · extract_lets g s1
    have h1 : loomFrame s s1 := (idleFrame_modGrp s g _).loom
    clear_value s1
    split
    · split
      · exact loomFrames.trans h1 (loomFrames.trans (idleFrame_modGrp s1 g _).loom (loomFrames.ite (loomFrame_jobPush _ _ _) (loomFrames.refl _)))
      · exact h1
    · exact h1
  · exact loomFrames.refl s
theorem loomFrame_jobDecoded : loomFrame s (jobDecoded s a) := by
  unfold jobDecoded
  split
  · exact loomFrames.ite (loomFrame_interpCreate s _ _) (loomFrames.refl s)
  · exact loomFrames.refl s

/-! ### The record of a lane -/

theorem laneOf_map (f : Lane → Lane) (h : f {} = {}) : laneOf { s with lanes := s.lanes.map fun p => (p.1, f p.2) } a = f (laneOf s a) := by
  show (tabFind (s.lanes.map fun p => (p.1, f p.2)) a).getD {} = f ((tabFind s.lanes a).getD {})
  rw [tabFind_map]
  cases tabFind s.lanes a
  · exact h.symm
  · rfl
theorem laneOf_lanesGo : laneOf (lanesGo s) a = lnGo (laneOf s a) := laneOf_map s a lnGo rfl

/-- Whether a lane is stopped, for how long, and when its microcode last had an error. -/
def laneMarks (l : Lane) : Bool × Bool × Option Nat := (l.stopped, l.dead, l.parityT)
theorem laneMarks_lnSelect (l : Lane) : laneMarks (lnSelect l) = laneMarks l := by
  unfold lnSelect
  split
  · rfl
  · split <;> rfl
theorem laneMarks_lnGo (l : Lane) : laneMarks (lnGo l) = laneMarks l := by
  unfold lnGo
  split
  · rfl
  · simp only []
    split
    · exact laneMarks_lnSelect l
    · exact (laneMarks_lnSelect _).trans (laneMarks_lnSelect l)
theorem laneMarks_lnSet (l : Lane) (p : Nat) (js : List Job) : laneMarks (lnSet l p js) = laneMarks l := by
  unfold lnSet
  split
  · rfl
  · split
    · rfl
    · split <;> rfl
/-- What a change of one lane leaves of it, it leaves of every lane. -/
theorem lanePart_modLane {β : Type} (p : Lane → β) {f : Lane → Lane} (hf : ∀ x, p (f x) = p x) (k : Nat) :
    p (laneOf (modLane s a f) k) = p (laneOf s k) := by
  by_cases hk : k = a
  · subst hk
    rw [laneOf_modLane, hf]
  · rw [laneOf_modLane_other _ _ hk]
theorem laneMarks_jobPush (j : Job) (k : Nat) : laneMarks (laneOf (jobPush s a j) k) = laneMarks (laneOf s k) :=
  lanePart_modLane s a laneMarks (fun l => laneMarks_lnSet l _ _) k
theorem laneMarks_interpCreate (td k : Nat) : laneMarks (laneOf (interpCreate s a td) k) = laneMarks (laneOf s k) := by
  unfold interpCreate
  split
  · extract_lets g s1
    have h1 : laneMarks (laneOf s1 k) = laneMarks (laneOf s k) := rfl
    clear_value s1
    split
    · split
      · split
        · exact (laneMarks_jobPush (modGrp s1 g fun x => { x with jobOpen := true }) _ _ k).trans h1
        · exact h1
      · exact h1
    · exact h1
  · rfl
theorem laneMarks_jobDecoded (k : Nat) : laneMarks (laneOf (jobDecoded s a) k) = laneMarks (laneOf s k) := by
  unfold jobDecoded
  split
  · split
    · exact laneMarks_interpCreate s _ _ k
    · rfl
  · rfl
theorem lanes_overrun (cause : Nat) (p : BitVec 32) : (overrun s a cause p).lanes = s.lanes ∧ (overrun s a cause p).lnCnt = s.lnCnt := by
  unfold overrun
  simp only []
  split <;> exact ⟨rfl, rfl⟩
theorem lanes_jobLose (j : Job) : (jobLose s j).lanes = s.lanes ∧ (jobLose s j).lnCnt = s.lnCnt := by
  unfold jobLose
  split
  · exact ⟨forEach_leaves State.lanes fun t k _ => (lanes_overrun t k 1 _).1, forEach_leaves State.lnCnt fun t k _ => (lanes_overrun t k 1 _).2⟩
  · split
    · exact lanes_overrun s _ 1 _
    · exact ⟨rfl, rfl⟩
theorem lnCnt_laneBusy : (laneBusy s a).lnCnt = s.lnCnt := by
  unfold laneBusy
  split <;> rfl
end

/-! ### A microcode parity error (R181) -/

/-- The lanes and the jobs before a parity error is acted on. -/
def parityBegun (s : State) (ln : Nat) (dec : Bool) : State := when dec (fun t => jobDecoded t ln) (lanesGo s)
/-- A lane whose microcode had an error: stopped, its jobs removed, and reloaded or not. -/
def laneParted (now : Nat) (again : Bool) (l : Lane) : Lane := { lnClear l with stopped := true, dead := again, parityT := some now }
/-- A lane has an error: it is stopped, the jobs that it loses are counted, and LANE_FAULT is raised. -/
def parityNoted (s : State) (ln : Nat) (again : Bool) : State :=
  let l := laneOf s ln
  let js := l.run.toList ++ l.pre.toList ++ lnAll l
  let s1 := modLane (laneBusy s ln) ln (laneParted s.clk.now again)
  let s2 := modLnc s1 ln (fun c => { c with jobsCut := satAdd 32 c.jobsCut js.length })
  raise (forEach js jobLose s2) 0x4104 ln [BitVec.ofNat 8 (b2n (!again))]
/-- The axes of a lane. -/
def laneAxes (s : State) (ln : Nat) : List Nat := (List.range 128).filter (fun a => axLane s a = some ln)
/-- As `parityNoted`; where the lane is not reloaded, its axes take OFF. -/
def parityActed (s : State) (ln : Nat) (again : Bool) : State :=
  if again then forEach (laneAxes (parityNoted s ln again) ln) (fun v a => takeFaults v a [(0x4104, 2)]) (parityNoted s ln again) else parityNoted s ln again
/-- The error of a lane is the second within a second. -/
def parityAgain (s : State) (ln : Nat) : Bool := match (laneOf s ln).parityT with | some t => decide (s.clk.now - t < second) | none => false

section
variable (s : State) (ln : Nat)
theorem loomFrame_parityBegun (dec : Bool) : loomFrame s (parityBegun s ln dec) :=
  loomFrames.trans (loomFrame_lanesGo s) (loomFrames.cond dec (fun t => loomFrame_jobDecoded t ln) _)
theorem laneMarks_parityBegun (dec : Bool) (k : Nat) : laneMarks (laneOf (parityBegun s ln dec) k) = laneMarks (laneOf s k) := by
  have h : laneMarks (laneOf (lanesGo s) k) = laneMarks (laneOf s k) := by rw [laneOf_lanesGo, laneMarks_lnGo]
  cases dec
  · exact h
  · exact (laneMarks_jobDecoded (lanesGo s) ln k).trans h
variable {s ln}
theorem parityBegun_idle {dec : Bool} (h : dec = false ∨ (laneOf s ln).stopped = true) : parityBegun s ln dec = lanesGo s := by
  cases dec
  · rfl
  · have hs : (laneOf (lanesGo s) ln).stopped = true := by
      rw [laneOf_lanesGo]
      exact (congrArg Prod.fst (laneMarks_lnGo (laneOf s ln))).trans (by simpa [laneMarks] using h)
    show jobDecoded (lanesGo s) ln = lanesGo s
    unfold jobDecoded
    split
    · rw [if_neg (by simp [hs])]
    · rfl
theorem laneParity_dead {dec : Bool} (h : (laneOf (parityBegun s ln dec) ln).dead = true) : laneParity s ln dec = parityBegun s ln dec := if_pos h
theorem laneParity_live {dec : Bool} (h : (laneOf (parityBegun s ln dec) ln).dead = false) :
    laneParity s ln dec = parityActed (parityBegun s ln dec) ln (parityAgain (parityBegun s ln dec) ln) :=
  if_neg (fun hd => Bool.false_ne_true (h.symm.trans hd))

variable (s ln)
theorem loomFrame_parityNoted (again : Bool) : loomFrame s (parityNoted s ln again) :=
  have h1 : laneFrame s (modLane (laneBusy s ln) ln (laneParted s.clk.now again)) := laneSteps.trans (laneFrame_laneBusy s ln) (laneFrame_modLane _ ln _)
  loomFrames.trans (loomFrames.trans (laneSteps.trans h1 (laneFrame_modLnc _ ln _)).loom (loomFrames.loop _ loomFrame_jobLose _)) (loomFrames.event _ _ _ _)
theorem lanes_parityNoted (again : Bool) : (parityNoted s ln again).lanes = (modLane (laneBusy s ln) ln (laneParted s.clk.now again)).lanes :=
  forEach_leaves State.lanes fun t j _ => (lanes_jobLose t j).1
theorem lnCnt_parityNoted (again : Bool) {k : Nat} (hk : k ≠ ln) : lncOf (parityNoted s ln again) k = lncOf s k := by
  have h (js : List Job) (v : State) : (forEach js jobLose v).lnCnt = v.lnCnt := forEach_leaves State.lnCnt fun t j _ => (lanes_jobLose t j).2
  rw [lncOf_of_lnCnt (t := parityNoted s ln again) (h _ _), lncOf_modLnc_other _ _ hk, lncOf_modLane, lncOf_of_lnCnt (lnCnt_laneBusy s ln)]
theorem laneOf_parityNoted (again : Bool) : laneOf (parityNoted s ln again) ln = laneParted s.clk.now again (laneOf (laneBusy s ln) ln) := by
  rw [laneOf_of_lanes (lanes_parityNoted s ln again), laneOf_modLane]
theorem laneOf_parityNoted_other (again : Bool) {k : Nat} (hk : k ≠ ln) : laneOf (parityNoted s ln again) k = laneOf s k := by
  rw [laneOf_of_lanes (lanes_parityNoted s ln again), laneOf_modLane_other _ _ hk, laneOf_laneBusy_other s hk]
end

/-- What stands of a lane whose microcode had an error. -/
structure Parted (now : Nat) (again : Bool) (l : Lane) : Prop where
  stopped : l.stopped = true
  dead : l.dead = again
  time : l.parityT = some now
  run : l.run = none
  pre : l.pre = none
  lists : lnAll l = []
theorem parted_laneParted (now : Nat) (again : Bool) (l : Lane) : Parted now again (laneParted now again l) := ⟨rfl, rfl, rfl, rfl, rfl, rfl⟩

theorem exec_laneParity (l : LaneNo) (dec : Bool) (s : State) : exec (.laneMicrocodeParityError ⟨l, dec⟩) s = finishD s (laneParity s l dec) := rfl
section
variable {s : State} {l : LaneNo} (dec : Bool)
theorem begun_now : (parityBegun s l dec).clk.now = s.clk.now := by rw [(loomFrame_parityBegun s l dec).clk]
theorem begun_dead : (laneOf (parityBegun s l dec) l).dead = (laneOf s l).dead := congrArg (fun m => m.2.1) (laneMarks_parityBegun s l dec l)
theorem begun_parityAgain : parityAgain (parityBegun s l dec) l = parityAgain s l := by
  have h : (laneOf (parityBegun s l dec) l).parityT = (laneOf s l).parityT := congrArg (fun m => m.2.2) (laneMarks_parityBegun s l dec l)
  unfold parityAgain
  rw [h, begun_now]
theorem laneParity_first (hd : (laneOf s l).dead = false) (ht : ∀ t0, (laneOf s l).parityT = some t0 → second ≤ s.clk.now - t0) :
    laneParity s l dec = parityNoted (parityBegun s l dec) l false := by
  have ha : parityAgain s l = false := by
    unfold parityAgain
    split
    next t0 h => exact decide_eq_false (Nat.not_lt.mpr (ht t0 h))
    next => rfl
  rw [laneParity_live (by rw [begun_dead, hd]), begun_parityAgain, ha]
  rfl
theorem laneParity_second {t0 : Nat} (hd : (laneOf s l).dead = false) (hp : (laneOf s l).parityT = some t0) (ht : s.clk.now - t0 < second) :
    laneParity s l dec = forEach (laneAxes (parityNoted (parityBegun s l dec) l true) l) (fun v a => takeFaults v a [(0x4104, 2)])
      (parityNoted (parityBegun s l dec) l true) := by
  have ha : parityAgain s l = true := by
    unfold parityAgain
    rw [hp]
    exact decide_eq_true ht
  rw [laneParity_live (by rw [begun_dead, hd]), begun_parityAgain, ha]
  rfl

/-- The first error of a lane, or the first for a second. -/
theorem parity_first (hd : (laneOf s l).dead = false) (ht : ∀ t0, (laneOf s l).parityT = some t0 → second ≤ s.clk.now - t0) :
    goes (.laneMicrocodeParityError ⟨l, dec⟩) s (fun t =>
      quiet { s with lanes := t.lanes, lnCnt := t.lnCnt, axes := t.axes, grps := t.grps, freeCtr := t.freeCtr } t ∧
      Parted s.clk.now false (laneOf t l) ∧
      (dec = false → ∀ k, k ≠ l.val → laneOf t k = laneOf (lanesGo s) k ∧ lncOf t k = lncOf s k) ∧ logged t 0x4104 l) := by
  have he := exec_laneParity l dec s
  rw [laneParity_first dec hd ht] at he
  have hq := (loomFrames.trans (loomFrame_parityBegun s l dec) (loomFrame_parityNoted _ l false)).1
  refine goes_quiet he hq ⟨hq, ?_, fun hn k hk => ?_, logged_raise _ _ _ _⟩
  · rw [laneOf_parityNoted, begun_now]
    exact parted_laneParted _ _ _
  · subst hn
    exact ⟨laneOf_parityNoted_other _ _ _ hk, lnCnt_parityNoted _ _ _ hk⟩

theorem axLane_of_warp {s t : State} (h : t.warp = s.warp) (a : Nat) : axLane t a = axLane s a := by
  unfold axLane plOf
  rw [h]
theorem lanes_takeFaults (s : State) (a : Nat) (fs : List (Nat × Nat)) : (takeFaults s a fs).lanes = s.lanes ∧ (takeFaults s a fs).lnCnt = s.lnCnt := by
  have h := axFrame_takeFaults s a fs
  unfold axFrame quiet at h
  rw [h]
  exact ⟨rfl, rfl⟩
/-- The second error of a lane within a second. -/
theorem parity_second {t0 : Nat} (hd : (laneOf s l).dead = false) (hp : (laneOf s l).parityT = some t0) (ht : s.clk.now - t0 < second) :
    goes (.laneMicrocodeParityError ⟨l, dec⟩) s (fun t => Parted s.clk.now true (laneOf t l) ∧
      ∀ a < 128, axLane s a = some l.val → (axOf s a).sm.st ∈ [AxSt.ready, .enabled, .moving, .hold] → isOff (axOf t a).sm) := by
  have he := exec_laneParity l dec s
  rw [laneParity_second dec hd hp ht] at he
  have hf := loomFrames.trans (loomFrame_parityBegun s l dec) (loomFrame_parityNoted (parityBegun s l dec) l true)
  have hl : Parted s.clk.now true (laneOf (parityNoted (parityBegun s l dec) l true) l) := by
    rw [laneOf_parityNoted, begun_now]
    exact parted_laneParted _ _ _
  generalize parityNoted (parityBegun s l dec) l true = u at *
  have hx : axFrame u (forEach (laneAxes u l) (fun v a => takeFaults v a [(0x4104, 2)]) u) := axFrames.loop _ (fun v a => axFrame_takeFaults v a _) u
  have hu : unitFrame s (forEach (laneAxes u l) (fun v a => takeFaults v a [(0x4104, 2)]) u) := unitFrames.trans hf.unit hx.unit
  refine goes_quiet he hu ⟨?_, fun a ha hal hst => ?_⟩
  · rw [laneOf_of_lanes (forEach_leaves State.lanes fun v a _ => (lanes_takeFaults v a _).1)]
    exact hl
  · refine isOff_loop (List.nodup_range.filter _) (List.mem_filter.mpr ⟨List.mem_range.mpr ha, ?_⟩) (.inl ?_) 0x4104
    · rw [axLane_of_warp hf.unit.warp, hal]
      exact decide_eq_true rfl
    · rw [hf.sm]
      exact hst
/-- A lane that is stopped for good. -/
theorem parity_dead (hd : (laneOf s l).dead = true) (h : dec = false ∨ (laneOf s l).stopped = true) :
    exec (.laneMicrocodeParityError ⟨l, dec⟩) s = .next (lanesGo s) := by
  rw [exec_laneParity, laneParity_dead (by rw [begun_dead, hd]), parityBegun_idle h]
  rfl
end

/-! ### Jobs that are stopped with their record (R181) -/

/-- The jobs of a lane. -/
def jobsOf (l : Lane) : List Job := l.run.toList ++ l.pre.toList ++ lnAll l
theorem jobsOf_lnSelect {l : Lane} {j : Job} (h : j ∈ jobsOf (lnSelect l)) : j ∈ jobsOf l := by
  unfold lnSelect at h
  split at h
  · exact h
  next hp =>
    split at h <;> simp_all [jobsOf, lnAll]
/-- The lane without the jobs that are stopped; where one of them was prefetched, the lane selects again. -/
def laneKilled (p : Job → Bool) (l : Lane) : Lane :=
  let keep := fun (js : List Job) => js.filter (fun j => !p j)
  let m : Lane := { l with list0 := keep l.list0, list1 := keep l.list1, list2 := keep l.list2, list3 := keep l.list3,
                           pre := l.pre.filter (fun j => !p j), run := l.run.filter (fun j => !p j) }
  if l.pre.any p && m.run.isSome && !l.stopped then lnSelect m else m
theorem jobsOf_laneKilled {p : Job → Bool} {l : Lane} {j : Job} (h : j ∈ jobsOf (laneKilled p l)) : p j = false := by
  unfold laneKilled at h
  extract_lets keep m at h
  have hm : j ∈ jobsOf m := by
    split at h
    · exact jobsOf_lnSelect h
    · exact h
  simp only [jobsOf, lnAll, m, keep, List.mem_append, Option.mem_toList, List.mem_filter, Option.filter_eq_some_iff, Bool.not_eq_true'] at hm
  tauto

section
variable (s : State) (p : Job → Bool)
/-- The running jobs that are stopped, charged to their lanes. -/
def killsCharged : State := forEach ((List.range 8).filter (fun l => (laneOf s l).run.any p)) laneBusy (lanesGo s)
theorem jobKill_eq : jobKill s p = { killsCharged s p with lanes := (killsCharged s p).lanes.map fun q => (q.1, laneKilled p q.2) } := rfl
theorem laneFrame_killsCharged : laneFrame s (killsCharged s p) := laneSteps.trans (t := lanesGo s) rfl (laneSteps.loop _ laneFrame_laneBusy _)
theorem lnCnt_killsCharged : (killsCharged s p).lnCnt = s.lnCnt := forEach_leaves State.lnCnt fun t l _ => lnCnt_laneBusy t l
theorem jobKill_frame : jobKill s p = { s with lanes := (jobKill s p).lanes, freeCtr := (jobKill s p).freeCtr } := by
  have h := laneFrame_killsCharged s p
  have hc := lnCnt_killsCharged s p
  rw [jobKill_eq]
  generalize killsCharged s p = u at *
  unfold laneFrame at h
  rw [h, hc]
theorem jobKill_kills {l : Nat} {j : Job} (h : j ∈ jobsOf (laneOf (jobKill s p) l)) : p j = false := by
  rw [jobKill_eq, laneOf_map _ _ _ rfl] at h
  exact jobsOf_laneKilled h
end

/-! ### Errors of a store (R181) -/

section
variable (s : State)
theorem exec_stateEcc_corrected (r : StoreRec) (dec : Bool) : exec (.stateEcc ⟨r, true, dec⟩) s = .next { s with storeCorr := s.storeCorr + 1 } := rfl
/-- The decode of a running axis job had ended before it is stopped. -/
def jobBegun (a : Nat) (dec : Bool) : State :=
  when dec (fun t => match laneRunning t 1 a with | some ln => jobDecoded t ln | none => t) (lanesGo s)
/-- The jobs of an axis that load its record. -/
def axisLoads (a : Nat) (j : Job) : Bool := j.kind != 2 && j.id = a
/-- The jobs that load the record of a group, and the profile jobs of its members (R295). -/
def groupLoads (g : Nat) (j : Job) : Bool := (j.kind = 2 && j.id = g) || (j.kind = 3 && (grpMembers s g).contains j.id)
theorem exec_stateEcc_axis (a : AxisNo) (dec : Bool) : exec (.stateEcc ⟨.axis a, false, dec⟩) s =
    finishD s (takeFaults (jobKill (jobBegun s a dec) (axisLoads a)) a [(0x4103, 2)]) := by
  unfold jobBegun axisLoads
  rfl
theorem exec_stateEcc_group (g : GroupNo) (dec : Bool) : exec (.stateEcc ⟨.group g, false, dec⟩) s =
    finishD s (forEach (grpMembers s g) (fun t a => takeFaults t a [(0x4103, 2)]) (jobKill s (groupLoads s g))) := rfl
theorem loomFrame_jobBegun (a : Nat) (dec : Bool) : loomFrame s (jobBegun s a dec) := by
  refine loomFrames.trans (loomFrame_lanesGo s) (loomFrames.cond dec (fun t => ?_) _)
  split
  · exact loomFrame_jobDecoded t _
  · exact loomFrames.refl t
theorem loomFrame_jobKill (p : Job → Bool) : loomFrame s (jobKill s p) := laneFrame.loom (by rw [laneFrame, jobKill_frame])

variable {s}
/-- An uncorrectable error in the record of an axis. -/
theorem ecc_axis {a : AxisNo} (dec : Bool) (h : (axOf s a).sm.st ∈ [AxSt.ready, .enabled, .moving, .hold]) :
    goes (.stateEcc ⟨.axis a, false, dec⟩) s (fun t =>
      quiet { s with axes := t.axes, grps := t.grps, kiln := t.kiln, lanes := t.lanes, lnCnt := t.lnCnt, freeCtr := t.freeCtr } t ∧
      (axOf t a).sm.st = .fault ∧ (axOf t a).sm.react = 2 ∧ (axOf t a).sm.fcode = 0x4103 ∧ logged t 0x4103 a ∧
      ∀ l, ∀ j ∈ jobsOf (laneOf t l), j.kind = 2 ∨ j.id ≠ a.val) := by
  have he := exec_stateEcc_axis s a dec
  have hf : loomFrame s (jobKill (jobBegun s a dec) (axisLoads a)) := loomFrames.trans (loomFrame_jobBegun s a dec) (loomFrame_jobKill _ _)
  have hk {l : Nat} {j : Job} (hj : j ∈ jobsOf (laneOf (jobKill (jobBegun s a dec) (axisLoads a)) l)) : j.kind = 2 ∨ j.id ≠ a.val := by
    simpa [axisLoads, Decidable.imp_iff_not_or] using jobKill_kills _ _ hj
  generalize jobKill (jobBegun s a dec) (axisLoads a) = u at *
  have hu : (axOf u a).sm.st ∈ [AxSt.ready, .enabled, .moving, .hold] := by
    rw [hf.sm]
    exact h
  obtain ⟨hst, hr, hc⟩ := takeFaults_off_sets hu 0x4103
  have hx := axFrame_takeFaults u a [(0x4103, 2)]
  have hl := (lanes_takeFaults u a [(0x4103, 2)]).1
  have hg : logged (takeFaults u a [(0x4103, 2)]) 0x4103 a := logged_takeFaults (fun hf => by simp [hf] at hu) (by decide)
  generalize takeFaults u a [(0x4103, 2)] = v at *
  have hq : quiet { s with axes := v.axes, grps := v.grps, kiln := v.kiln, lanes := v.lanes, lnCnt := v.lnCnt, freeCtr := v.freeCtr } v := by
    have hq := hf.1
    unfold axFrame quiet at *
    rw [hx, hq]
  refine goes_quiet he hq ⟨hq, hst, hr, hc, hg, fun l j hj => hk (l := l) ?_⟩
  rwa [laneOf_of_lanes hl] at hj
/-- An uncorrectable error in the record of a group. -/
theorem ecc_group {g : GroupNo} (dec : Bool) (h : ∀ a ∈ grpMembers s g, (axOf s a).sm.st ∈ [AxSt.ready, .enabled, .moving, .hold]) :
    goes (.stateEcc ⟨.group g, false, dec⟩) s (fun t =>
      quiet { s with axes := t.axes, grps := t.grps, kiln := t.kiln, lanes := t.lanes, freeCtr := t.freeCtr } t ∧
      ∀ a ∈ grpMembers s g, isOff (axOf t a).sm) := by
  have he := exec_stateEcc_group s g dec
  have hk := jobKill_frame s (groupLoads s g)
  generalize jobKill s (groupLoads s g) = u at *
  have hx : axFrame u (forEach (grpMembers s g) (fun t a => takeFaults t a [(0x4103, 2)]) u) := axFrames.loop _ (fun t a => axFrame_takeFaults t a _) u
  have ho (a : Nat) (ha : a ∈ grpMembers s g) : isOff (axOf (forEach (grpMembers s g) (fun t a => takeFaults t a [(0x4103, 2)]) u) a).sm := by
    refine isOff_loop (List.nodup_range.filter _) ha (.inl ?_) 0x4103
    rw [hk]
    exact h a ha
  generalize forEach (grpMembers s g) (fun t a => takeFaults t a [(0x4103, 2)]) u = v at *
  have hq : quiet { s with axes := v.axes, grps := v.grps, kiln := v.kiln, lanes := v.lanes, freeCtr := v.freeCtr } v := by
    unfold axFrame quiet at *
    rw [hx, hk]
  exact goes_quiet he hq ⟨hq, ho⟩

/-! ### Echo outputs (R265, R266) -/

theorem exec_echoStep (e : EchoNo) : exec (.echoStep e) s = finishD s (when (echoLive s e && !isStandby s) (fun t => modEc t e echoStep1) s) := rfl
theorem echoStep_steps {e : EchoNo} (hl : echoLive s e = true) (hs : isStandby s = false) : exec (.echoStep e) s = .next (modEc s e echoStep1) := by
  rw [exec_echoStep, hl, hs]
  rfl
theorem echoStep_idle {e : EchoNo} (h : echoLive s e = false ∨ isStandby s = true) : exec (.echoStep e) s = .next s := by
  have hc : (echoLive s e && !isStandby s) = false := by rcases h with h | h <;> simp [h]
  rw [exec_echoStep, hc]
  rfl
end

end Sys2Proof.Machine

/-- Settles O43: a parity error by whether its lane is dead, and whether it is the second within a second (`parity_first`, `parity_second`, `parity_dead`);
an error of a store by the record it stands in (`ecc_axis`, `ecc_group`), where OFF takes every axis that can fall (`isOff_loop`). -/
theorem laneStoreAndEchoRows : Obligations.LaneStoreAndEchoRows := by
  intro s
  refine ⟨⟨fun l dec hd ht => ?_, fun l dec t0 hd hp ht => ?_, fun l dec hd h => parity_dead dec hd h⟩, exec_stateEcc_corrected s, fun a dec h => ?_, fun g dec h => ?_,
    fun e => echoStep_steps, fun e => echoStep_idle⟩
  · obtain ⟨t, he, hq, hl, ho, hg⟩ := parity_first dec hd ht
    exact ⟨t, he, hq, hl.stopped, hl.dead, hl.time, hl.run, hl.pre, hl.lists, ho, hg⟩
  · obtain ⟨t, he, hl, ho⟩ := parity_second dec hd hp ht
    exact ⟨t, he, hl.dead, hl.stopped, hl.run, fun a ha hal hst => (ho a ha hal hst).1⟩
  · obtain ⟨t, he, hq, hst, hr, hc, hg, hj⟩ := ecc_axis dec h
    exact ⟨t, he, hq, hst, hr, hc, hg, fun l _ => hj l⟩
  · obtain ⟨t, he, hq, ho⟩ := ecc_group dec h
    exact ⟨t, he, hq, ho⟩
end

section
/-! The axis job (R169): what its decode, its way to ENABLED and its loops leave of the axis. -/
open Sys2Proof Sys2Proof.Machine
namespace Sys2Proof.Machine

/-! ### Behind the decode: homing, limits, rebase (R252, R303, R313 to R316) -/

section
variable (s : State) (a : Nat)
theorem idleFrame_limBoth : idleFrame s (limBoth s a) := idleFrames.trans (idleFrame_modAx s a _) (idleFrames.cond _ (fun t => idleFrames.event t _ _ _) _)
theorem idleFrame_hmTrip : idleFrame s (hmTrip s a) := by
  unfold hmTrip
  extract_lets h t
  have ht : idleFrame s t := idleFrame_modHm s a _
  clear_value t
  have hf (c : Nat) : idleFrame s (hmFail t a c) := idleFrames.trans ht (idleFrame_modHm t a _)
  exact idleFrames.ite (hf _) (idleFrames.ite (hf _) (idleFrames.ite (hf _) (idleFrames.ite (hf _) (idleFrames.trans ht (idleFrame_modHm t a _)))))
theorem idleFrame_hmIndex (ci : Int) : idleFrame s (hmIndex s a ci) := by
  unfold hmIndex
  extract_lets h t
  have ht : idleFrame s t := idleFrame_modHm s a _
  clear_value t
  exact idleFrames.ite (idleFrames.trans ht (idleFrame_modHm t a _)) (idleFrames.ite (idleFrames.trans ht (idleFrame_modHm t a _)) ht)
theorem idleFrame_hmDecode : idleFrame s (hmDecode s a) :=
  idleFrames.ite (idleFrames.refl s) (idleFrames.ite (idleFrame_modHm s a _) (idleFrames.ite (idleFrame_modHm s a _)
    (idleFrames.ite (idleFrame_hmTrip s a) (idleFrames.ite (idleFrame_hmTrip s a) (idleFrames.refl s)))))
theorem idleFrame_turnRebase (k : Int) : idleFrame s (turnRebase s a k) := by
  unfold turnRebase
  split
  · exact idleFrames.refl s
  · extract_lets dc s0 s1 s2
    have h0 : idleFrame s s0 := idleFrame_modAx s a _
    have h1 : idleFrame s s1 := idleFrames.trans h0 (idleFrames.cond _ (fun t => idleFrame_modHm t a _) _)
    clear_value s1
    exact idleFrames.trans (idleFrames.ite (idleFrames.trans (idleFrames.trans h1 (idleFrame_modGrp s1 _ _)) (idleFrame_grpItem _ _)) h1) (idleFrames.item s2 _)
theorem jobFrame_echoShift (d : Int) : jobFrame s (echoShift s a d) := ⟨rfl, fun _ => rfl⟩
theorem jobFrame_decEvents (evs : List (Nat × Bytes)) : jobFrame s (decEvents a evs s) :=
  jobFrames.loop evs (fun t _ => jobFrames.ite
    (jobFrames.ite (jobFrames.refl t) (jobFrames.trans (jobFrame_once t a 0x8104 id (fun _ => rfl)) (jobFrames.event _ _ _ _)))
    (jobFrames.event t _ _ _)) s

/-! ### The decode task (R247) -/

/-- What the decode of an axis answers. -/
def axDecode : DecOut := fbRun s a (idxCheck (axOf s a)) (axOf s a).sm.raw
/-- The record of an axis with its decode. -/
def decodeTaken : State := modAx s a (fun y => { y with fb := (axDecode s a).fb, sm := { y.sm with
  decoded := (axDecode s a).done, last := if (axDecode s a).done then (axOf s a).sm.raw else y.sm.last } })
theorem jobFrame_inSample (u : State) (first : Bool) (inp : BitVec 16) :
    jobFrame s (limBoth (modAx s a (fun y => { y with inp := inSample u a first y.fb.cExt inp y.inp })) a) :=
  (idleFrames.trans (idleFrame_modAx s a _) (idleFrame_limBoth _ a)).job
theorem jobDecode_faults : (jobDecode s a).2 = (axDecode s a).faults := by
  unfold jobDecode
  simp only []
  split <;> rfl
theorem jobFrame_jobDecode : jobFrame (decodeTaken s a) (jobDecode s a).1 := by
  unfold jobDecode
  extract_lets x raw d s1 s2 s5 s6 s7
  have h2 : jobFrame (decodeTaken s a) s2 := jobFrames.trans (jobFrame_decEvents (decodeTaken s a) a d.evs) (jobFrames.cond _ (fun t => jobFrames.item t _) _)
  clear_value s2
  split
  · exact jobFrames.trans h2 (jobFrames.cond _ (fun t => jobFrame_inSample t a t false raw.inp) s2)
  · have h5 : jobFrame s2 s5 := jobFrames.trans (idleFrame_turnRebase s2 a d.turns).job (jobFrame_echoShift _ a _)
    clear_value s5
    have h6 : jobFrame s5 s6 := jobFrame_inSample s5 a s5 d.first raw.inp
    clear_value s6
    have h7 : jobFrame s6 s7 := by
      refine jobFrames.ite (jobFrames.trans ?_ (idleFrame_hmDecode _ a).job) (jobFrames.refl s6)
      split
      · exact (idleFrame_hmIndex s6 a _).job
      · exact jobFrames.refl s6
    exact jobFrames.trans (jobFrames.trans (jobFrames.trans h2 h5) h6) h7

/-! ### On to READY and ENABLED (R205) -/

theorem jobFrame_enterEnabled : jobFrame s (enterEnabled s a) :=
  jobFrames.trans (jobFrames.trans (jobFrames.trans (jobFrames.trans (jobFrame_modAx s a _) (idleFrame_enableReset _ a).job) (jobFrame_modAx _ a _))
    (jobFrame_setSt _ a _)) (jobFrames.waits _ _ _ _)
theorem jobFrame_jobReady : jobFrame s (jobReady s a) := by
  unfold jobReady
  extract_lets x s1
  have h1 : jobFrame s s1 := jobFrame_setSt s a .ready
  clear_value s1
  have hw (st : Nat) : jobFrame s (completeWaits (modSm s1 a (fun m => { m with enaDue := false })) (fun w => w = .enable a) st []) :=
    jobFrames.trans (jobFrames.trans h1 (jobFrame_modAx s1 a _)) (jobFrames.waits _ _ _ _)
  exact jobFrames.ite (jobFrames.ite (jobFrames.ite (hw _) (jobFrames.ite (jobFrames.trans h1 (jobFrame_enterEnabled s1 a)) (hw _))) h1) (jobFrames.refl s)
/-- The state in which the loops of an axis job run. -/
def loopsFrom : State := jobReady (jobDecode s a).1 a
theorem jobFrame_loopsFrom : jobFrame (decodeTaken s a) (loopsFrom s a) := jobFrames.trans (jobFrame_jobDecode s a) (jobFrame_jobReady _ a)
theorem fb_loopsFrom : (axOf (loopsFrom s a) a).fb = (axDecode s a).fb := by
  rw [(jobFrame_loopsFrom s a).fb, decodeTaken, axOf_modAx]
theorem decoded_loopsFrom : (axOf (loopsFrom s a) a).sm.decoded = (axDecode s a).done := by
  have h : (axOf (loopsFrom s a) a).sm.decoded = (axOf (decodeTaken s a) a).sm.decoded := congrArg (fun m => m.2.1) ((jobFrame_loopsFrom s a).2 a)
  rw [h, decodeTaken, axOf_modAx]
theorem unitFrame_loopsFrom : unitFrame s (loopsFrom s a) := unitFrames.trans (t := decodeTaken s a) rfl (jobFrame_loopsFrom s a).unit

/-! ### The loops (R188 to R201) -/

/-- The loops of an axis change its loop record and its references alone. -/
theorem loopsRun_keeps (i : Nat) (raw : RawIn) (x : Axis) :
    (loopsRun s a i raw x).1 = { x with lp := (loopsRun s a i raw x).1.lp, prof := (loopsRun s a i raw x).1.prof } := by
  unfold loopsRun
  extract_lets c r1s r1 x1 y x2 r3
  have h2 : x2 = { x with lp := x2.lp, prof := x2.prof } := by
    unfold x2 y
    split
    · split <;> rfl
    · rfl
  clear_value r3 x2
  split
  · split <;> rfl
  · split
    · rfl
    · rw [h2]

section
variable {s a} {i : Nat} {raw : RawIn} {x : Axis}
theorem loopsRun_pos (hc : axClass s a = 1) (hp : loopDue s a 2 i = true) (hv : loopDue s a 1 i = false) (hi : loopDue s a 0 i = false) :
    (loopsRun s a i raw x).1.lp = (posLoop s a x).1 := by
  simp [loopsRun, hc, hp, hv, hi]
theorem loopsRun_spd (hc : axClass s a = 1) (hl : axLoop s a 2 = true) (hp : loopDue s a 2 i = false) (hv : loopDue s a 1 i = true) (hi : loopDue s a 0 i = false) :
    (loopsRun s a i raw x).1.lp = spdLoop s a (axRate s a 1) x := by
  simp [loopsRun, hc, hl, hp, hv, hi]
theorem loopsRun_cur (hc : axClass s a = 1) (hp : loopDue s a 2 i = false) (hv : loopDue s a 1 i = false) (hi : loopDue s a 0 i = true) :
    (loopsRun s a i raw x).1.lp = (focLoop s a (axRate s a 0) x raw).1 := by
  simp [loopsRun, hc, hp, hv, hi]
theorem loopsRun_stp (hc : axClass s a = 3) (hi : loopDue s a 0 i = true) : (loopsRun s a i raw x).1.lp = (stpLoop s a x).1 := by
  simp [loopsRun, hc, hi]
end

/-! ### The record is written back (R166, R169) -/

/-- What the loops of an axis answer behind its decode: its record, and the faults. Where the loops are open, those of a pick in which they
opened still find faults (R211). -/
def jobLoops : Axis × List (Nat × Nat) :=
  let x := axOf s a
  let q := if axClosed x ∨ x.sm.offPs = some (ps s) then loopsRun s a (psPick (ps s)) x.sm.raw x else (x, [])
  if axClosed x then q else (x, q.2)
/-- The last measurements of a record, for the traces (R328). -/
def measNoted (w : RawIn) (l : AxLoop) : AxLoop :=
  let m := fun (o : Int) (q : Samp) => if isMeas q then q.v else o
  { l with meas := [m (l.meas.getD 0 0) w.ia, m (l.meas.getD 1 0) w.ib, m (l.meas.getD 2 0) w.ic, m (l.meas.getD 3 0) w.idc,
                    m (l.meas.getD 4 0) w.ubus] }
/-- The record of an axis that its job writes back, from the record `y` of its loops. -/
def jobRecord (y : Axis) : Axis :=
  let x := axOf s a
  { y with hm := if loopDue s a 1 (psPick (ps s)) = true ∧ axClosed x = true then hmStall s a y else y.hm,
           sm := { y.sm with jobDone := true, jobSince := true },
           md := { y.md with body := if axClosed x then bodyOf s a y else y.md.body },
           lp := measNoted x.sm.raw y.lp }
/-- The record of an axis, written back. -/
def jobStored : State := modLp (modAx s a (fun _ => { jobRecord s a (jobLoops s a).1 with lp := (jobLoops s a).1.lp })) a (measNoted (axOf s a).sm.raw)
theorem axisJob_eq : axisJob s a = jobRest (takeFaults (jobStored (loopsFrom s a) a) a ((jobDecode s a).2 ++ (jobLoops (loopsFrom s a) a).2)) a := rfl
theorem axOf_jobStored : axOf (jobStored s a) a = jobRecord s a (jobLoops s a).1 := by
  rw [jobStored, modLp, axOf_modAx, axOf_modAx]
  rfl
theorem unitFrame_jobStored : unitFrame s (jobStored s a) :=
  unitFrames.trans (axFrame_modAx s a _).unit (axFrame_modAx _ a _).unit
theorem jobFrame_jobRest : jobFrame s (jobRest s a) := jobFrame_modAx s a _ (fun x => by dsimp only; split <;> rfl)
theorem jobLoops_keeps : (jobLoops s a).1 = { axOf s a with lp := (jobLoops s a).1.lp, prof := (jobLoops s a).1.prof } := by
  unfold jobLoops
  extract_lets x q
  have hq : q.1 = { x with lp := q.1.lp, prof := q.1.prof } := by
    unfold q
    split
    · exact loopsRun_keeps s a _ _ x
    · rfl
  clear_value q
  split
  · exact hq
  · rfl
variable {s a} in
theorem jobLoops_closed (h : axClosed (axOf s a) = true) : jobLoops s a = loopsRun s a (psPick (ps s)) (axOf s a).sm.raw (axOf s a) := by
  simp [jobLoops, h]

/-- What an axis job leaves of its axis, faults or none. -/
theorem axisJob_marks : jobMarks (axOf (axisJob s a) a) = ((axDecode s a).fb, (axDecode s a).done, true) := by
  have h := (jobFrames.trans (jobFrame_takeFaults (jobStored (loopsFrom s a) a) a ((jobDecode s a).2 ++ (jobLoops (loopsFrom s a) a).2)) (jobFrame_jobRest _ a)).2 a
  rw [axisJob_eq, h, axOf_jobStored, jobLoops_keeps]
  show ((axOf (loopsFrom s a) a).fb, (axOf (loopsFrom s a) a).sm.decoded, true) = _
  rw [fb_loopsFrom, decoded_loopsFrom]
theorem unitFrame_axisJob : unitFrame s (axisJob s a) := by
  rw [axisJob_eq]
  refine unitFrames.trans (unitFrame_loopsFrom s a) (unitFrames.trans (unitFrame_jobStored _ a) ?_)
  exact (jobFrames.trans (jobFrame_takeFaults _ a _) (jobFrame_jobRest _ a)).unit
theorem jobRest_keeps : axOf (jobRest s a) a = { axOf s a with sm := (axOf (jobRest s a) a).sm } := by
  rw [jobRest, modSm, axOf_modAx]
variable {s a} in
/-- What an axis job without a fault leaves of its axis, but for its state machine. -/
theorem axisJob_fine (hf : (axDecode s a).faults = []) (hl : (jobLoops (loopsFrom s a) a).2 = []) :
    axOf (axisJob s a) a = { jobRecord (loopsFrom s a) a (jobLoops (loopsFrom s a) a).1 with sm := (axOf (axisJob s a) a).sm } := by
  have h := jobRest_keeps (jobStored (loopsFrom s a) a) a
  have e : axisJob s a = jobRest (jobStored (loopsFrom s a) a) a := by
    rw [axisJob_eq, jobDecode_faults, hf, hl]
    rfl
  rw [e, h, axOf_jobStored]
end

end Sys2Proof.Machine
end

section
/-! The rows that end a job of a lane (R166, R169, R170): what the end of a job leaves, and the effects of the axis job and of the interpolation
job. -/
open Sys2Proof Sys2Proof.Machine
namespace Sys2Proof.Machine

/-! ### The end of a job on its lane -/

section
variable (s : State) (l t : Nat)
theorem laneFrame_laneDone : laneFrame s (laneDone s l t) := laneSteps.trans (laneFrame_laneBusy s l) (t := laneBusy s l) rfl
theorem run_laneDone : (laneOf (laneDone s l t) l).run = none := by
  unfold laneDone
  rw [laneOf_modLane]
theorem jobsRun_laneDone : (lncOf (laneDone s l t) l).jobsRun = satInc 32 (lncOf s l).jobsRun := by
  have h : lncOf (laneBusy s l) l = lncOf s l := lncOf_of_lnCnt (lnCnt_laneBusy s l) l
  unfold laneDone
  rw [lncOf_modLane, lncOf_modLnc, h]
theorem axes_laneDone : (laneDone s l t).axes = s.axes := by
  rw [laneFrame_laneDone s l t]
theorem grps_laneDone : (laneDone s l t).grps = s.grps := by
  rw [laneFrame_laneDone s l t]
theorem axOf_loomTo (k : Nat) : axOf (loomTo s t) k = axOf s k := by
  rw [loomTo_frame]
  rfl
theorem grpOf_loomTo (g : Nat) : grpOf (loomTo s t) g = grpOf s g := by
  rw [loomTo_frame]
  rfl
theorem par_loomTo : (loomTo s t).par = s.par := by
  rw [loomTo_frame]
theorem warp_loomTo : (loomTo s t).warp = s.warp := by
  rw [loomTo_frame]
theorem ps_loomTo : ps (loomTo s t) = ps s := by
  unfold loomTo
  extract_lets k
  split <;> rfl
end
theorem unitFrame.par {s t : State} (h : unitFrame s t) : t.par = s.par := h.eff.par
theorem unitFrame.ps {s t : State} (h : unitFrame s t) : ps t = ps s := congrArg Clk.pstamp h.eff.clk
/-- A row whose job changes units alone answers its effect. -/
theorem goes_unit {i : Instr} {s t : State} {tt : Nat} {P : State → Prop} (hi : exec i s = finishD s t) (h : unitFrame (loomTo s tt) t) (hP : P t) :
    goes i s P :=
  goes_quiet hi h hP (by rw [loomTo_frame]) (by rw [loomTo_frame]) (by rw [loomTo_frame])
theorem unitFrame.kept {s t : State} {tt : Nat} (h : unitFrame (loomTo s tt) t) : t.pending = s.pending ∧ t.ddr = s.ddr ∧ t.dmp = s.dmp ∧ t.par = s.par := by
  rw [loomTo_frame] at h
  unfold unitFrame quiet at h
  rw [h]
  exact ⟨rfl, rfl, rfl, rfl⟩

/-! ### What the loops read of the values and the placement -/

section
variable {s t : State} (hp : t.par = s.par)
include hp
theorem pget_of_par (n i : Nat) : pget t n i = pget s n i := by
  unfold pget
  rw [hp]
theorem pnat_of_par (n i : Nat) : pnat t n i = pnat s n i := congrArg Int.toNat (pget_of_par hp n i)
theorem axLoop_of_par (a k : Nat) : axLoop t a k = axLoop s a k := congrArg (nbit · k) (pnat_of_par hp _ a)
theorem axRate_of_par (a k : Nat) : axRate t a k = axRate s a k := congrArg (· / 16 ^ k % 8) (pnat_of_par hp _ a)
theorem loopDue_of_par (hw : t.warp = s.warp) (a k i : Nat) : loopDue t a k i = loopDue s a k i := by
  unfold loopDue plOf
  rw [hw, axClass_of_par hp, axLoop_of_par hp, axRate_of_par hp, axRate_of_par hp]
end

/-! ### The axis job (R169) -/

section
variable (s : State) (a td : Nat)
theorem unitFrame_interpCreate : unitFrame s (interpCreate s a td) := (loomFrame_interpCreate s a td).unit
theorem axes_interpCreate : (interpCreate s a td).axes = s.axes := by
  unfold interpCreate
  split
  · extract_lets g s1 j s2
    split
    · split
      · split <;> rfl
      · rfl
    · rfl
  · rfl
theorem jobsRun_jobPush (j : Job) (k : Nat) : (lncOf (jobPush s a j) k).jobsRun = (lncOf s k).jobsRun := by
  unfold jobPush
  extract_lets s1 n
  by_cases hk : k = a
  · subst hk
    rw [lncOf_modLnc]
    rfl
  · rw [lncOf_modLnc_other _ _ hk]
    rfl
theorem jobsRun_interpCreate (k : Nat) : (lncOf (interpCreate s a td) k).jobsRun = (lncOf s k).jobsRun := by
  unfold interpCreate
  split
  · extract_lets g s1 j s2
    split
    · split
      · split
        · exact jobsRun_jobPush s2 _ _ k
        · rfl
      · rfl
    · rfl
  · rfl
theorem jobFrame.lnCnt {s t : State} (h : jobFrame s t) : t.lnCnt = s.lnCnt := by
  have hq := h.1
  unfold quiet at hq
  rw [hq]
theorem lnCnt_jobStored : (jobStored s a).lnCnt = s.lnCnt := rfl
theorem lnCnt_decodeTaken : (decodeTaken s a).lnCnt = s.lnCnt := rfl
theorem lnCnt_axisJob : (axisJob s a).lnCnt = s.lnCnt := by
  rw [axisJob_eq, (jobFrame_jobRest _ a).lnCnt, (jobFrame_takeFaults _ a _).lnCnt, lnCnt_jobStored, (jobFrame_loopsFrom s a).lnCnt, lnCnt_decodeTaken]
/-- The row with its job: what the lanes and the axis hold behind it. -/
def axisJobEnded (l tt : Nat) : State := laneDone (axisJobRun s a td) l tt
theorem unitFrame_axisJobEnded (l tt : Nat) : unitFrame s (axisJobEnded s a td l tt) :=
  unitFrames.trans (unitFrames.trans (unitFrame_axisJob s a) (unitFrame_interpCreate _ a td)) (laneFrame_laneDone _ l tt).loom.unit
theorem axOf_axisJobEnded (l tt : Nat) : axOf (axisJobEnded s a td l tt) a = axOf (axisJob s a) a :=
  axOf_of_axes ((axes_laneDone _ l tt).trans (axes_interpCreate _ a td)) a
theorem jobsRun_axisJobEnded (l tt : Nat) : (lncOf (axisJobEnded s a td l tt) l).jobsRun = satInc 32 (lncOf s l).jobsRun := by
  rw [axisJobEnded, jobsRun_laneDone, axisJobRun, jobsRun_interpCreate, lncOf_of_lnCnt (lnCnt_axisJob s a)]
end

section
variable {s : State} {a : Nat} (hf : (axDecode s a).faults = []) (hc : axClosed (axOf (loopsFrom s a) a) = true)
/-- What the loops of an axis answer in its job. -/
def loopsTaken (s : State) (a : Nat) : Axis × List (Nat × Nat) :=
  loopsRun (loopsFrom s a) a (psPick (ps s)) (axOf (loopsFrom s a) a).sm.raw (axOf (loopsFrom s a) a)
include hf hc
theorem axisJob_closed (hl : (loopsTaken s a).2 = []) :
    (axOf (axisJob s a) a).fb = (axOf (loopsFrom s a) a).fb ∧ (axOf (axisJob s a) a).prof = (loopsTaken s a).1.prof ∧
    (axOf (axisJob s a) a).md.body = bodyOf (loopsFrom s a) a (loopsTaken s a).1 ∧
    (axOf (axisJob s a) a).lp = { (loopsTaken s a).1.lp with meas := (axOf (axisJob s a) a).lp.meas } := by
  have hj : jobLoops (loopsFrom s a) a = loopsTaken s a := by
    rw [jobLoops_closed hc, (unitFrame_loopsFrom s a).ps, loopsTaken]
  have hk := axisJob_fine hf (by rw [hj, hl])
  have hx : (loopsTaken s a).1.fb = (axOf (loopsFrom s a) a).fb := by rw [loopsTaken, loopsRun_keeps]
  rw [hj] at hk
  rw [hk, ← hx]
  exact ⟨rfl, rfl, by simp [jobRecord, hc], rfl⟩
end

/-! ### The interpolation job (R296) -/

section
variable (s : State) (g : Nat)
theorem interpJob_keeps : idleFrame s (interpJob s g) ∧ (interpJob s g).lnCnt = s.lnCnt ∧ (interpJob s g).axes = s.axes := by
  unfold interpJob
  extract_lets c tol r st hold s1 s2
  have h1 : idleFrame s s1 := idleFrame_modGrp s g _
  have h2 : idleFrame s s2 := idleFrames.trans h1 (idleFrames.cond _ (fun t => idleFrames.item t _) _)
  have e2 : s2.lnCnt = s.lnCnt ∧ s2.axes = s.axes := by
    unfold s2 when
    split <;> exact ⟨rfl, rfl⟩
  clear_value s2
  split
  · exact ⟨idleFrames.trans h2 (idleFrames.event s2 _ _ _), e2⟩
  · exact ⟨h2, e2⟩
/-- The path hold behind an interpolation job. -/
def holdNext (tol c : Nat) (was : Bool) : Bool :=
  if tol ≠ 0 && decide (tol < c) && !was then true else if c ≤ tol / 2 then false else was
theorem grpOf_interpJob : grpOf (interpJob s g) g = { grpOf s g with c := grpLag s g, hold := holdNext (pnat s 0x0610 g) (grpLag s g) (grpOf s g).hold } := by
  unfold interpJob
  extract_lets c tol r st hold s1 s2
  have h2 : grpOf s2 g = grpOf s1 g := by
    unfold s2 when
    split <;> rfl
  have h1 : grpOf s1 g = { r with c := c, hold := hold } := grpOf_modGrp s g _
  clear_value s2 s1
  split
  · exact h2.trans h1
  · exact h2.trans h1
theorem holdNext_eq (tol c : Nat) (was : Bool) : holdNext tol c was = if tol ≠ 0 ∧ tol < c then true else if c ≤ tol / 2 then false else was := by
  unfold holdNext
  by_cases h : tol ≠ 0 ∧ tol < c
  · have : ¬ c ≤ tol / 2 := by omega
    cases was <;> simp [h, this]
  · simp [h]
/-- The row with its job. -/
def interpEnded (l tt : Nat) : State := laneDone (modGrp (interpJob s g) g (fun x => { x with jobOpen := false })) l tt
theorem unitFrame_interpEnded (l tt : Nat) : unitFrame s (interpEnded s g l tt) :=
  unitFrames.trans (idleFrames.trans (interpJob_keeps s g).1 (idleFrame_modGrp _ g _)).job.unit (laneFrame_laneDone _ l tt).loom.unit
theorem axes_interpEnded (l tt : Nat) : (interpEnded s g l tt).axes = s.axes := (axes_laneDone _ l tt).trans (interpJob_keeps s g).2.2
theorem jobsRun_interpEnded (l tt : Nat) : (lncOf (interpEnded s g l tt) l).jobsRun = satInc 32 (lncOf s l).jobsRun := by
  rw [interpEnded, jobsRun_laneDone]
  exact congrArg (fun c => satInc 32 c.jobsRun) (lncOf_of_lnCnt (interpJob_keeps s g).2.1 l)
theorem grpOf_interpEnded (l tt : Nat) : grpOf (interpEnded s g l tt) g = { grpOf (interpJob s g) g with jobOpen := false } := by
  rw [← grpOf_modGrp (interpJob s g) g fun x => { x with jobOpen := false }]
  unfold grpOf
  rw [interpEnded, grps_laneDone]
end
section
variable {s t : State} (hk : ∀ k, axOf t k = axOf s k) {g : Nat} (hg : grpOf t g = grpOf s g)
include hk hg
theorem grpLag_of_axes : grpLag t g = grpLag s g := by
  simp only [grpLag, hg, hk]
end

/-! ### The rows -/

section
variable (s : State) (tt : Nat)
theorem exec_axisJobComplete (a : AxisNo) (td : Nat) {l : Nat} (h : laneRunning (loomTo s tt) 1 a = some l) :
    exec (.axisJobComplete a ⟨td, tt⟩) s = finishD s (axisJobEnded (loomTo s tt) a (min td tt) l tt) := by
  show finishD s (match laneRunning (loomTo s tt) 1 a with | some ln => _ | none => s) = _
  rw [h]
  rfl
theorem axisJob_idle (a : AxisNo) (td : Nat) (h : laneRunning (loomTo s tt) 1 a = none) : exec (.axisJobComplete a ⟨td, tt⟩) s = .next s := by
  show finishD s (match laneRunning (loomTo s tt) 1 a with | some ln => _ | none => s) = _
  rw [h]
  rfl
theorem exec_interpolationJobComplete (g : GroupNo) {l : Nat} (h : laneRunning (loomTo s tt) 2 g = some l) :
    exec (.interpolationJobComplete g tt) s = finishD s (interpEnded (loomTo s tt) g l tt) := by
  show finishD s (match laneRunning (loomTo s tt) 2 g with | some ln => _ | none => s) = _
  rw [h]
  rfl
theorem interpolationJob_idle (g : GroupNo) (h : laneRunning (loomTo s tt) 2 g = none) : exec (.interpolationJobComplete g tt) s = .next s := by
  show finishD s (match laneRunning (loomTo s tt) 2 g with | some ln => _ | none => s) = _
  rw [h]
  rfl

/-- AXIS_JOB_COMPLETE with its job running (R169, R183, R188 to R201). -/
theorem axisJob_row (a : AxisNo) (td : Nat) {ln : Nat} (hr : laneRunning (loomTo s tt) 1 a = some ln) :
    goes (.axisJobComplete a ⟨td, tt⟩) s (fun t =>
      t.pending = s.pending ∧ t.ddr = s.ddr ∧ t.dmp = s.dmp ∧ t.par = s.par ∧ (lncOf t ln).jobsRun = satInc 32 (lncOf s ln).jobsRun ∧
      (laneOf t ln).run = none ∧ (axOf t a).sm.jobDone = true ∧
      (let f := fbRun (loomTo s tt) a (idxCheck (axOf s a)) (axOf s a).sm.raw
       let d := jobDecode (loomTo s tt) a
       let v := jobReady d.1 a
       let x := axOf v a
       let i := psPick (ps s)
       let r := loopsRun v a i x.sm.raw x
       d.2 = f.faults ∧ (f.done = true → f.turns = 0 → homing (axOf s a) = false → x.fb = f.fb) ∧ (axOf t a).sm.decoded = f.done ∧
       (f.faults = [] → r.2 = [] → axClosed x = true →
         (axOf t a).fb = x.fb ∧ (axOf t a).prof = r.1.prof ∧ (axOf t a).md.body = bodyOf v a r.1 ∧ (axOf t a).lp = { r.1.lp with meas := (axOf t a).lp.meas } ∧
         (axClass s a = 1 → loopDue s a 2 i = true → loopDue s a 1 i = false → loopDue s a 0 i = false →
           (axOf t a).lp.vFb = sat32 (rshr (sat32 (posRefUsed v a x.prof.posRef - x.fb.pos) * pget s 0x0300 a) 24)) ∧
         (axClass s a = 1 → axLoop s a 2 = true → loopDue s a 2 i = false → loopDue s a 1 i = true → loopDue s a 0 i = false →
           (axOf t a).lp = { spdLoop v a (axRate s a 1) x with meas := (axOf t a).lp.meas }) ∧
         (axClass s a = 1 → loopDue s a 2 i = false → loopDue s a 1 i = false → loopDue s a 0 i = true →
           (axOf t a).lp = { (focLoop v a (axRate s a 0) x x.sm.raw).1 with meas := (axOf t a).lp.meas }) ∧
         (axClass s a = 3 → loopDue s a 0 i = true → (axOf t a).lp = { (stpLoop v a x).1 with meas := (axOf t a).lp.meas })))) := by
  have hd : axDecode (loomTo s tt) a = fbRun (loomTo s tt) a (idxCheck (axOf s a)) (axOf s a).sm.raw := by rw [axDecode, axOf_loomTo]
  have hu := unitFrame_axisJobEnded (loomTo s tt) a (min td tt) ln tt
  refine goes_unit (exec_axisJobComplete s tt a td hr) hu ?_
  obtain ⟨hm1, hm2, hm3, hm4⟩ := hu.kept
  have hm := axisJob_marks (loomTo s tt) a
  have hv := unitFrame_loopsFrom (loomTo s tt) a
  have hp : (loopsFrom (loomTo s tt) a).par = s.par := hv.par.trans (par_loomTo s tt)
  have hw : (loopsFrom (loomTo s tt) a).warp = s.warp := hv.warp.trans (warp_loomTo s tt)
  have hfb := fb_loopsFrom (loomTo s tt) a
  have hx := axisJob_closed (s := loomTo s tt) (a := a)
  rw [hd] at hm hfb hx
  rw [axOf_axisJobEnded, jobsRun_axisJobEnded, lncOf_loomTo]
  refine ⟨hm1, hm2, hm3, hm4, rfl, run_laneDone _ ln tt, congrArg (fun m => m.2.2) hm, ?_⟩
  intro f d v x i r
  refine ⟨(jobDecode_faults (loomTo s tt) a).trans (congrArg DecOut.faults hd), fun _ _ _ => hfb, congrArg (fun m => m.2.1) hm, fun hf hr hc => ?_⟩
  have e : loopsTaken (loomTo s tt) a = r := by
    rw [loopsTaken, ps_loomTo]
    rfl
  rw [e] at hx
  obtain ⟨x1, x2, x3, x4⟩ := hx hf hc hr
  have hD (k : Nat) : loopDue v a k i = loopDue s a k i := loopDue_of_par hp hw a k i
  have hC : axClass v a = axClass s a := axClass_of_par hp a
  refine ⟨x1, x2, x3, x4, fun c h2 h1 h0 => ?_, fun c hl h2 h1 h0 => ?_, fun c h2 h1 h0 => ?_, fun c h0 => ?_⟩
  · rw [x4, show r.1.lp = (posLoop v a x).1 from loopsRun_pos (hC.trans c) ((hD 2).trans h2) ((hD 1).trans h1) ((hD 0).trans h0), ← pget_of_par hp]
    rfl
  · have e1 := loopsRun_spd (s := v) (raw := x.sm.raw) (x := x) (hC.trans c) ((axLoop_of_par hp a 2).trans hl) ((hD 2).trans h2) ((hD 1).trans h1) ((hD 0).trans h0)
    rw [show axRate v a _ = axRate s a _ from axRate_of_par hp a _] at e1
    exact x4.trans (by rw [← e1])
  · have e1 := loopsRun_cur (s := v) (raw := x.sm.raw) (x := x) (hC.trans c) ((hD 2).trans h2) ((hD 1).trans h1) ((hD 0).trans h0)
    rw [show axRate v a _ = axRate s a _ from axRate_of_par hp a _] at e1
    exact x4.trans (by rw [← e1])
  · have e1 := loopsRun_stp (raw := x.sm.raw) (x := x) (hC.trans c) ((hD 0).trans h0)
    exact x4.trans (by rw [← e1])

/-- INTERPOLATION_JOB_COMPLETE with its job running (R170, R296). -/
theorem interpolationJob_row (g : GroupNo) {ln : Nat} (hr : laneRunning (loomTo s tt) 2 g = some ln) :
    goes (.interpolationJobComplete g tt) s (fun t =>
      t.pending = s.pending ∧ t.ddr = s.ddr ∧ t.dmp = s.dmp ∧ t.par = s.par ∧ (lncOf t ln).jobsRun = satInc 32 (lncOf s ln).jobsRun ∧
      (laneOf t ln).run = none ∧ t.axes = s.axes ∧
      (let c := grpLag s g
       let tol := pnat s 0x0610 g
       (grpOf t g).c = c ∧ (grpOf t g).jobOpen = false ∧
       (grpOf t g).hold = (if tol ≠ 0 ∧ tol < c then true else if c ≤ tol / 2 then false else (grpOf s g).hold))) := by
  have hu := unitFrame_interpEnded (loomTo s tt) g ln tt
  refine goes_unit (exec_interpolationJobComplete s tt g hr) hu ?_
  obtain ⟨hm1, hm2, hm3, hm4⟩ := hu.kept
  have hg : grpOf (interpEnded (loomTo s tt) g ln tt) g =
      { grpOf s g with c := grpLag s g, hold := holdNext (pnat s 0x0610 g) (grpLag s g) (grpOf s g).hold, jobOpen := false } := by
    rw [grpOf_interpEnded, grpOf_interpJob, grpLag_of_axes (axOf_loomTo s tt) (grpOf_loomTo s tt g), grpOf_loomTo, pnat_of_par (par_loomTo s tt)]
  refine ⟨hm1, hm2, hm3, hm4, ?_, run_laneDone _ ln tt, (axes_interpEnded _ _ ln tt).trans (by rw [loomTo_frame]), ?_⟩
  · rw [jobsRun_interpEnded, lncOf_loomTo]
  · intro c tol
    rw [hg]
    exact ⟨rfl, rfl, holdNext_eq _ _ _⟩
end

end Sys2Proof.Machine
end

section
/-! The profile job (R271 to R291): what it leaves outside axes and groups, and the step of an axis with at most one entry in its queue. -/
open Sys2Proof Sys2Proof.Machine
namespace Sys2Proof.Machine

/-! ### A profile job changes axes and groups alone -/

section
variable (s : State) (a : Nat)
theorem axFrame_modGrp (g : Nat) (f : Grp → Grp) : axFrame s (modGrp s g f) := rfl
theorem axFrame_modHm (f : AxHome → AxHome) : axFrame s (modHm s a f) := (axLocal_modHm s a f).1
theorem axFrame_homeEnd (r : Nat) : axFrame s (homeEnd s a r) := (axLocal_homeEnd s a r).1
theorem axFrame_grpItem (g : Nat) : axFrame s (grpItem s g) := axFrames.item s _
theorem axFrame_queueItem : axFrame s (queueItem s a) := axFrames.item s _
theorem axFrame_moveDone (tag : Nat) (turn tgt : Int) : axFrame s (moveDone s a tag turn tgt) :=
  axFrames.trans (axFrames.event s _ _ _) (axFrames.cond _ (fun t => axFrames.event t _ _ _) _)
theorem axFrame_profState : axFrame s (profState s a) := by
  unfold profState
  extract_lets x rest
  split
  · exact axFrames.ite (axFrame_setSt s a _) (.refl s)
  · exact axFrames.ite (axFrame_setSt s a _) (.refl s)
  · exact .refl s
theorem axFrame_entryDone : axFrame s (entryDone s a) := by
  unfold entryDone
  extract_lets p
  split
  · exact .refl s
  · exact axFrames.trans (axFrames.trans (axFrame_moveDone s a _ _ _) (axFrame_modAx _ a _)) (axFrame_queueItem _ a)
theorem axFrame_entryActivate : axFrame s (entryActivate s a) := axFrames.trans (axFrame_modAx s a _) (axFrame_queueItem _ a)
theorem axFrame_entriesNext (n : Nat) : axFrame s (entriesNext a n s) := by
  induction n generalizing s with
  | zero => exact .refl s
  | succ n ih =>
    unfold entriesNext
    extract_lets p s1
    have h1 : axFrame s s1 := axFrame_entryActivate s a
    clear_value s1
    refine axFrames.ite (.refl s) ?_
    split
    · exact axFrames.ite (axFrames.trans (axFrames.trans h1 (axFrame_entryDone s1 a)) (ih _)) h1
    · exact h1
theorem axFrame_entriesStart (n : Nat) : axFrame s (entriesStart a n s) := by
  induction n generalizing s with
  | zero => exact .refl s
  | succ n ih =>
    unfold entriesStart
    extract_lets s1 p
    have h1 : axFrame s s1 := axFrame_entriesNext s a 33
    clear_value s1
    split
    · exact axFrames.ite (axFrames.trans (axFrames.trans h1 (axFrame_entryDone s1 a)) (ih _)) h1
    · exact h1

/-- The step of an axis whose entries are active already (R277, R279). -/
def entryMoved (r : Int) : State :=
  let p := (axOf s a).prof
  let h := shapeOf s a
  match p.act, p.queue with
  | true, e :: es =>
    if e.kind = 3 then
      let st := velEntry s a h r p e
      let t := modProf s a (profOut h.amax r st.1)
      if st.2 then entryDone (raise t 0x9103 a []) a
      else if e.target = 0 ∧ st.1.v = 0 then entryDone t a else t
    else
      let j := joint s a h e es
      let st := posStep h r p.q p.v e.target (entVm h e) j.1 j.2
      let t := modProf s a (fun x => ovsTrack e.target (profOut h.amax r st x))
      if st.done then entryDone t a else t
  | _, _ => modProf s a (profOut h.amax r (if p.v = 0 then { q := p.q, v := 0, un := 0, done := false, away := false } else velStep h r p.q p.v 0))
/-- The end of a step: the next entry becomes active, and the state follows (R205, R282). -/
def entryEnded (act : Bool) : State :=
  let t := entriesNext a 33 s
  profState (if act then moveSeen t a else t) a
theorem entryStep_eq (r : Int) : entryStep s a r = entryEnded (entryMoved (entriesStart a 33 s) a r) a (axOf (entriesStart a 33 s) a).prof.act := rfl
theorem axFrame_entryMoved (r : Int) : axFrame s (entryMoved s a r) := by
  unfold entryMoved
  extract_lets p h
  split
  · refine axFrames.ite ?_ ?_
    · extract_lets st t
      have ht : axFrame s t := axFrame_modAx s a _
      clear_value t
      exact axFrames.ite (axFrames.trans (axFrames.trans ht (axFrames.event t _ _ _)) (axFrame_entryDone _ a)) (axFrames.ite (axFrames.trans ht (axFrame_entryDone t a)) ht)
    · extract_lets j st t
      have ht : axFrame s t := axFrame_modAx s a _
      clear_value t
      exact axFrames.ite (axFrames.trans ht (axFrame_entryDone t a)) ht
  · exact axFrame_modAx s a _
theorem axFrame_entryEnded (act : Bool) : axFrame s (entryEnded s a act) := by
  have h := axFrame_entriesNext s a 33
  unfold entryEnded
  extract_lets t
  refine axFrames.trans (axFrames.ite (axFrames.trans h ?_) h) (axFrame_profState _ a)
  exact axFrames.ite (axFrame_setSt t a _) (.refl t)
theorem axFrame_entryStep (r : Int) : axFrame s (entryStep s a r) := by
  rw [entryStep_eq]
  exact axFrames.trans (axFrames.trans (axFrame_entriesStart s a 33) (axFrame_entryMoved _ a r)) (axFrame_entryEnded _ a _)
theorem axFrame_haltStep (r : Int) : axFrame s (haltStep s a r) := by
  unfold haltStep
  extract_lets x h d s1
  have h1 : axFrame s s1 := axFrame_modAx s a _
  clear_value s1
  exact axFrames.ite (axFrames.trans (axFrames.trans (axFrames.trans h1 (axFrame_modAx s1 a _)) (axFrames.cond _ (fun t => axFrame_queueItem t a) _)) (axFrame_profState _ a)) h1
theorem axFrame_hmStep (r : Int) : axFrame s (hmStep s a r) := by
  have hf (t : State) : axFrame t (hmFinish t a) := axFrames.trans (axFrames.trans (axFrame_modAx t a _) (axFrames.item _ _)) (axFrame_homeEnd _ a _)
  have hr (t : State) : axFrame t (hmRest t a) := axFrames.ite (axFrames.trans (hf t) (axFrame_profState _ a))
    (axFrames.ite (axFrames.trans (axFrame_homeEnd t a _) (axFrame_profState _ a)) (axFrames.ite (axFrame_modHm t a _) (axFrames.ite (axFrame_modHm t a _) (.refl t))))
  unfold hmStep
  extract_lets x sh vt st s1
  have h1 : axFrame s s1 := axFrame_modAx s a _
  clear_value s1
  exact axFrames.ite (axFrames.trans h1 (hr s1)) h1

/-! ### The path of a group (R292 to R298) -/

theorem axFrame_grpActivate (g : Nat) (rs : List (Nat × Int × Int × Int)) : axFrame s (grpActivate s g rs) := by
  unfold grpActivate
  split
  · exact .refl s
  · refine axFrames.ite (axFrames.trans (axFrame_modGrp s g _) (axFrame_grpItem _ g)) ?_
    extract_lets p lead sh vmax
    exact axFrames.trans (axFrames.trans (axFrame_modGrp s g _) (axFrame_grpItem _ g)) (axFrames.loop _ (fun t b => axFrames.ite (axFrame_setSt t b _) (.refl t)) _)
theorem axFrame_grpDone (g : Nat) : axFrame s (grpDone s g) := by
  unfold grpDone
  split
  · exact .refl s
  · exact axFrames.trans (axFrames.trans (axFrame_moveDone s g _ _ _) (axFrame_modGrp _ g _)) (axFrame_grpItem _ g)
theorem axFrame_grpNext (g : Nat) (rs : List (Nat × Int × Int × Int)) (n : Nat) : axFrame s (grpNext g rs n s) := by
  induction n generalizing s with
  | zero => exact .refl s
  | succ n ih =>
    unfold grpNext
    extract_lets r s1 r1
    have h1 : axFrame s s1 := axFrame_grpActivate s g rs
    clear_value s1
    refine axFrames.ite (.refl s) ?_
    split
    · exact axFrames.ite (axFrames.trans (axFrames.trans h1 (axFrame_grpDone s1 g)) (ih _)) h1
    · exact h1
theorem axFrame_grpMove (g : Nat) (r : Int) : axFrame s (grpMove s g r).1 := by
  unfold grpMove
  extract_lets x h
  split
  · exact axFrames.trans (axFrame_modGrp s g _) (axFrames.cond _ (fun t => axFrame_grpItem t g) _)
  · split
    · split
      · exact axFrame_modGrp s g _
      · split
        · exact axFrame_modGrp s g _
        · exact axFrame_modGrp s g _
    · split
      · exact axFrame_modGrp s g _
      · exact axFrame_modGrp s g _
theorem axFrame_grpRest (g : Nat) : axFrame s (grpRest s g) :=
  axFrames.ite (axFrames.loop _ (fun t b => axFrames.ite (axFrame_setSt t b _) (.refl t)) s) (.refl s)
theorem axFrame_grpStep (g : Nat) (r : Int) : axFrame s (grpStep s g r) := by
  unfold grpStep
  extract_lets p rs t
  have ht : axFrame s t := axFrames.trans (axFrames.trans (axFrame_grpNext s g [] 33) (axFrame_grpMove _ g r)) (axFrame_modGrp _ g _)
  clear_value t
  exact axFrames.trans (axFrames.ite (axFrames.trans (axFrames.trans ht (axFrame_grpDone t g)) (axFrame_grpNext _ g rs 33)) ht) (axFrame_grpRest _ g)
theorem axFrame_grpAdvance (g rate : Nat) : axFrame s (grpAdvance s g rate) :=
  axFrames.ite (.refl s) (axFrames.trans (axFrame_modGrp s g _) (axFrame_grpStep _ g _))
theorem axFrame_grpTake (g : Nat) : axFrame s (grpTake s a g) := by
  unfold grpTake
  split
  · exact axFrame_modAx s a _
  · exact axFrame_modAx s a _

/-- An axis that begins its step: when it had speed is noted, and a takeover is made up for (R201, R271). -/
def profBegun : State :=
  let s0 := if (axOf s a).prof.vRef ≠ 0 then modLp s a (fun l => { l with vNzPs := some (ps s) }) else s
  modProf s0 a (fun p => { p with catchUp := none })
theorem axFrame_profBegun : axFrame s (profBegun s a) := axFrames.trans (axFrames.ite (axFrame_modAx s a _) (.refl s)) (axFrame_modAx _ a _)
theorem axFrame_profStep : axFrame s (profStep s a) := by
  unfold profStep
  extract_lets x r s0 s1 s2
  have h1 : axFrame s s1 := axFrame_profBegun s a
  clear_value s1
  have h2 : axFrame s s2 := axFrames.trans h1 (axFrame_grpAdvance s1 _ _)
  clear_value s2
  refine axFrames.ite (.refl s) (axFrames.ite (axFrames.trans h1 (axFrame_hmStep s1 a _)) (axFrames.ite ?_ ?_))
  · exact axFrames.ite (axFrames.trans h2 (axFrame_grpTake s2 a _)) (axFrames.ite (axFrames.trans h2 (axFrame_haltStep s2 a _)) (axFrames.trans h2 (axFrame_entryStep s2 a _)))
  · exact axFrames.ite (axFrames.trans h1 (axFrame_haltStep s1 a _)) (axFrames.trans h1 (axFrame_entryStep s1 a _))
end

/-! ### What the step of an axis leaves of its references -/

/-- A profile stands where a step has brought it (R275). -/
def standsAt (x : AxProf) (st : PStep) : Prop := x.q = st.q ∧ x.v = st.v ∧ x.posRef = asr st.q 1

section
variable {s : State} {a : Nat}
/-- A change of state leaves the references of an axis without an output override. -/
theorem setSt_keeps (st : AxSt) (ho : (axOf s a).md.ovr = none) :
    (axOf (setSt s a st) a).prof = (axOf s a).prof ∧ (axOf (setSt s a st) a).md = (axOf s a).md := by
  have hm : axOf (modSm s a (fun m => onceAdd 0x610E { m with st := st, changed := true })) a =
      { axOf s a with sm := onceAdd 0x610E { (axOf s a).sm with st := st, changed := true } } := axOf_modAx s a _
  have hv : ovrStop (modSm s a (fun m => onceAdd 0x610E { m with st := st, changed := true })) a (st = .moving || st = .hold) =
      modSm s a (fun m => onceAdd 0x610E { m with st := st, changed := true }) := by
    unfold ovrStop
    rw [hm, ho]
  unfold setSt
  split
  · exact ⟨rfl, rfl⟩
  · have hi (t : State) : axOf (axItem t a) a = axOf t a := rfl
    rw [hv, hi, hm]
    exact ⟨rfl, rfl⟩
theorem prof_profState (ho : (axOf s a).md.ovr = none) : (axOf (profState s a) a).prof = (axOf s a).prof := by
  unfold profState
  extract_lets x rest
  split
  · split
    · exact (setSt_keeps _ ho).1
    · rfl
  · split
    · exact (setSt_keeps _ ho).1
    · rfl
  · rfl
theorem moveSeen_keeps (ho : (axOf s a).md.ovr = none) : (axOf (moveSeen s a) a).prof = (axOf s a).prof ∧ (axOf (moveSeen s a) a).md = (axOf s a).md := by
  unfold moveSeen
  split
  · exact setSt_keeps _ ho
  · exact ⟨rfl, rfl⟩
theorem entriesNext_same (n : Nat) (h : (axOf s a).prof.act = true ∨ (axOf s a).prof.queue = []) : entriesNext a n s = s := by
  cases n with
  | zero => rfl
  | succ n => exact if_pos h
theorem entriesStart_same (n : Nat) (h : (axOf s a).prof.act = true ∨ (axOf s a).prof.queue = []) (hl : (axOf s a).prof.queue.length ≤ 1) :
    entriesStart a n s = s := by
  cases n with
  | zero => rfl
  | succ n =>
    unfold entriesStart
    rw [entriesNext_same 33 h]
    dsimp only
    split
    · rename_i heq
      rw [heq] at hl
      simp at hl
    · rfl
/-- At the end of a step that leaves no waiting entry the references stay. -/
theorem prof_entryEnded (act : Bool) (ho : (axOf s a).md.ovr = none) (h : (axOf s a).prof.act = true ∨ (axOf s a).prof.queue = []) :
    (axOf (entryEnded s a act) a).prof = (axOf s a).prof := by
  unfold entryEnded
  rw [entriesNext_same 33 h]
  cases act with
  | false => exact prof_profState ho
  | true =>
    obtain ⟨hp, hm⟩ := moveSeen_keeps ho
    exact (prof_profState (s := moveSeen s a) (by rw [hm, ho])).trans hp
theorem axOf_entryDone {e : MoveEntry} {es : List MoveEntry} (h : (axOf s a).prof.queue = e :: es) :
    axOf (entryDone s a) a = { axOf s a with prof := { (axOf s a).prof with queue := es, act := false, ovsTurn := 0, ovsTgt := 0 } } := by
  have hm : axOf (moveDone s a e.tag (axOf s a).prof.ovsTurn (axOf s a).prof.ovsTgt) a = axOf s a := axOf_raiseIf _ _ _ _ _ a
  have hi (t : State) : axOf (queueItem t a) a = axOf t a := rfl
  unfold entryDone
  simp only [h]
  rw [hi, modProf, axOf_modAx, hm]

/-! ### The step with at most one entry (R277, R279) -/

variable {r : Int}
theorem entryStep_idle (ho : (axOf s a).md.ovr = none) (hq : (axOf s a).prof.queue = []) (ha : (axOf s a).prof.act = false) (hv : (axOf s a).prof.v ≠ 0) :
    standsAt (axOf (entryStep s a r) a).prof (velStep (shapeOf s a) r (axOf s a).prof.q (axOf s a).prof.v 0) := by
  have hm : axOf (entryMoved s a r) a = { axOf s a with 
      prof := profOut (shapeOf s a).amax r (velStep (shapeOf s a) r (axOf s a).prof.q (axOf s a).prof.v 0) (axOf s a).prof } := by
    unfold entryMoved
    simp only [hq, ha, if_neg hv]
    rw [modProf, axOf_modAx]
  rw [entryStep_eq, entriesStart_same 33 (.inr hq) (by simp [hq]), prof_entryEnded _ (by rw [hm, ho]) (by rw [hm]; exact .inr hq), hm]
  exact ⟨rfl, rfl, rfl⟩
theorem entryStep_positional {e : MoveEntry} (ho : (axOf s a).md.ovr = none) (hq : (axOf s a).prof.queue = [e]) (ha : (axOf s a).prof.act = true) (hk : e.kind ≠ 3) :
    let st := posStep (shapeOf s a) r (axOf s a).prof.q (axOf s a).prof.v e.target (entVm (shapeOf s a) e) (shapeOf s a).vstop false
    standsAt (axOf (entryStep s a r) a).prof st ∧ (axOf (entryStep s a r) a).prof.queue = if st.done then [] else [e] := by
  intro st
  have ht : axOf (modProf s a fun x => ovsTrack e.target (profOut (shapeOf s a).amax r st x)) a =
      { axOf s a with prof := ovsTrack e.target (profOut (shapeOf s a).amax r st (axOf s a).prof) } := axOf_modAx s a _
  have hj : joint s a (shapeOf s a) e [] = ((shapeOf s a).vstop, false) := rfl
  have hm : entryMoved s a r = if st.done = true then entryDone (modProf s a fun x => ovsTrack e.target (profOut (shapeOf s a).amax r st x)) a
      else modProf s a fun x => ovsTrack e.target (profOut (shapeOf s a).amax r st x) := by
    unfold entryMoved
    simp only [hq, ha, if_neg hk]
    rfl
  rw [entryStep_eq, entriesStart_same 33 (.inl ha) (by simp [hq]), hm]
  split
  · have hd := axOf_entryDone (a := a) (es := []) (by rw [ht]; exact hq)
    rw [prof_entryEnded _ (by rw [hd, ht]; exact ho) (by rw [hd]; exact .inr rfl), hd, ht]
    exact ⟨⟨rfl, rfl, rfl⟩, rfl⟩
  · rw [prof_entryEnded _ (by rw [ht]; exact ho) (by rw [ht]; exact .inl ha), ht]
    exact ⟨⟨rfl, rfl, rfl⟩, hq⟩
theorem entryStep_velocity {e : MoveEntry} (ho : (axOf s a).md.ovr = none) (hq : (axOf s a).prof.queue = [e]) (ha : (axOf s a).prof.act = true) (hk : e.kind = 3)
    (hs : softAhead s a (if (axOf s a).prof.v ≠ 0 then sgn (axOf s a).prof.v else sgn e.target) = none) :
    standsAt (axOf (entryStep s a r) a).prof (velStep (shapeOf s a) r (axOf s a).prof.q (axOf s a).prof.v e.target) := by
  have hv : velEntry s a (shapeOf s a) r (axOf s a).prof e = (velStep (shapeOf s a) r (axOf s a).prof.q (axOf s a).prof.v e.target, false) := by
    unfold velEntry
    simp only [hs]
  generalize velStep (shapeOf s a) r (axOf s a).prof.q (axOf s a).prof.v e.target = st at *
  have ht : axOf (modProf s a (profOut (shapeOf s a).amax r st)) a = { axOf s a with prof := profOut (shapeOf s a).amax r st (axOf s a).prof } := axOf_modAx s a _
  have hm : entryMoved s a r = if e.target = 0 ∧ st.v = 0 then entryDone (modProf s a (profOut (shapeOf s a).amax r st)) a
      else modProf s a (profOut (shapeOf s a).amax r st) := by
    unfold entryMoved
    simp only [hq, ha, hk, hv]
    rfl
  rw [entryStep_eq, entriesStart_same 33 (.inl ha) (by simp [hq]), hm]
  split
  · have hd := axOf_entryDone (a := a) (es := []) (by rw [ht]; exact hq)
    rw [prof_entryEnded _ (by rw [hd, ht]; exact ho) (by rw [hd]; exact .inr rfl), hd, ht]
    exact ⟨rfl, rfl, rfl⟩
  · rw [prof_entryEnded _ (by rw [ht]; exact ho) (by rw [ht]; exact .inl ha), ht]
    exact ⟨rfl, rfl, rfl⟩
end

/-! ### The row -/

section
variable {s : State} {a : Nat}
theorem profStep_idle (hl : (axOf s a).prof.live = false) : profStep s a = s := if_pos hl
theorem axOf_profBegun : (axOf (profBegun s a) a).md = (axOf s a).md ∧ (axOf (profBegun s a) a).prof = { (axOf s a).prof with catchUp := none } := by
  unfold profBegun
  extract_lets s0
  have h0 : (axOf s0 a).md = (axOf s a).md ∧ (axOf s0 a).prof = (axOf s a).prof := by
    unfold s0
    split
    · rw [modLp, axOf_modAx]
      exact ⟨rfl, rfl⟩
    · exact ⟨rfl, rfl⟩
  clear_value s0
  rw [modProf, axOf_modAx]
  exact ⟨h0.1, congrArg (fun p : AxProf => { p with catchUp := none }) h0.2⟩
theorem par_profBegun : (profBegun s a).par = s.par := (axFrame_profBegun s a).unit.par
theorem shapeOf_of_par {t : State} (h : t.par = s.par) : shapeOf t a = shapeOf s a := by
  unfold shapeOf shapeList
  simp only [pget_of_par h]
theorem softAhead_of_par {t : State} (h : t.par = s.par) (sg : Int) : softAhead t a sg = softAhead s a sg := by
  unfold softAhead
  rw [pget_of_par h, pget_of_par h, pnat_of_par h]
theorem profRate_of_par {t : State} (h : t.par = s.par) : profRate t a = profRate s a := by
  unfold profRate
  simp only [axClass_of_par h, axRate_of_par h]
/-- The step of a live profile that no homing, group, fault or limit stop commands. -/
theorem profStep_own (hl : (axOf s a).prof.live = true) (hc : (axOf s a).prof.catchUp = none) (hh : homing (axOf s a) = false) (hg : inGroup s a = false)
    (hf : (axOf s a).sm.st ≠ .fault) (hs : (axOf s a).prof.limStop = false) : profStep s a = entryStep (profBegun s a) a (2 ^ profRate s a : Nat) := by
  unfold profStep profBegun stepPicks
  simp [hl, hc, hh, hg, hf, hs]
/-- The row with its job. -/
def profEnded (s : State) (a l tt : Nat) : State := laneDone (modSm (profStep s a) a (fun m => { m with profDone := true })) l tt
theorem axOf_profEnded (l tt : Nat) : axOf (profEnded s a l tt) a =
    { axOf (profStep s a) a with sm := { (axOf (profStep s a) a).sm with profDone := true } } :=
  (axOf_of_axes (axes_laneDone _ l tt) a).trans (axOf_modAx _ a _)
theorem unitFrame_profEnded (l tt : Nat) : unitFrame s (profEnded s a l tt) :=
  unitFrames.trans (axFrames.trans (axFrame_profStep s a) (axFrame_modSm _ a _)).unit (laneFrame_laneDone _ l tt).loom.unit
theorem jobsRun_profEnded (l tt : Nat) : (lncOf (profEnded s a l tt) l).jobsRun = satInc 32 (lncOf s l).jobsRun := by
  have h : (profStep s a).lnCnt = s.lnCnt := by
    have hq := axFrame_profStep s a
    unfold axFrame quiet at hq
    rw [hq]
  rw [profEnded, jobsRun_laneDone]
  exact congrArg (fun c => satInc 32 c.jobsRun) (lncOf_of_lnCnt h l)
end

section
variable (s : State) (tt : Nat)
theorem exec_profileJobComplete (a : AxisNo) {l : Nat} (h : laneRunning (loomTo s tt) 3 a = some l) :
    exec (.profileJobComplete a tt) s = finishD s (profEnded (loomTo s tt) a l tt) := by
  show finishD s (match laneRunning (loomTo s tt) 3 a with | some ln => _ | none => s) = _
  rw [h]
  rfl
theorem profileJob_idle (a : AxisNo) (h : laneRunning (loomTo s tt) 3 a = none) : exec (.profileJobComplete a tt) s = .next s := by
  show finishD s (match laneRunning (loomTo s tt) 3 a with | some ln => _ | none => s) = _
  rw [h]
  rfl
/-- PROFILE_JOB_COMPLETE with its job running (R271 to R291). -/
theorem profileJob_row (a : AxisNo) {ln : Nat} (hr : laneRunning (loomTo s tt) 3 a = some ln) :
    goes (.profileJobComplete a tt) s (fun t =>
      t.pending = s.pending ∧ t.ddr = s.ddr ∧ t.dmp = s.dmp ∧ t.par = s.par ∧ (lncOf t ln).jobsRun = satInc 32 (lncOf s ln).jobsRun ∧
      (laneOf t ln).run = none ∧ (axOf t a).sm.profDone = true ∧
      (let p := (axOf s a).prof
       let h := shapeOf s a
       let k : Int := (2 ^ profRate s a : Nat)
       let stands := fun (st : PStep) => (axOf t a).prof.q = st.q ∧ (axOf t a).prof.v = st.v ∧ (axOf t a).prof.posRef = asr st.q 1
       (p.live = false → (axOf t a).prof = p) ∧
       (p.live = true → p.catchUp = none → homing (axOf s a) = false → inGroup s a = false → (axOf s a).sm.st ≠ .fault → p.limStop = false →
         (axOf s a).md.ovr = none →
         (p.queue = [] → p.act = false → p.v ≠ 0 → stands (velStep h k p.q p.v 0)) ∧
         (∀ e, p.queue = [e] → p.act = true → e.kind ≠ 3 →
           let st := posStep h k p.q p.v e.target (entVm h e) h.vstop false
           stands st ∧ (axOf t a).prof.queue = if st.done then [] else [e]) ∧
         (∀ e, p.queue = [e] → p.act = true → e.kind = 3 → softAhead s a (if p.v ≠ 0 then sgn p.v else sgn e.target) = none →
           stands (velStep h k p.q p.v e.target))))) := by
  have hu := unitFrame_profEnded (s := loomTo s tt) (a := a) ln tt
  have hx := axOf_loomTo s tt a
  have hpar := par_loomTo s tt
  refine goes_unit (exec_profileJobComplete s tt a hr) hu ?_
  obtain ⟨hm1, hm2, hm3, hm4⟩ := hu.kept
  refine ⟨hm1, hm2, hm3, hm4, ?_, run_laneDone _ ln tt, ?_, ?_⟩
  · rw [jobsRun_profEnded, lncOf_loomTo]
  · rw [axOf_profEnded]
  · rw [axOf_profEnded]
    intro p h k stands
    refine ⟨fun hl => ?_, fun hl hc hh hg hf hs ho => ?_⟩
    · rw [profStep_idle (by rw [hx]; exact hl), hx]
    · have hb : (profBegun (loomTo s tt) a).par = s.par := par_profBegun.trans hpar
      have hp : (axOf (profBegun (loomTo s tt) a) a).prof = p := by
        rw [axOf_profBegun.2, hx, ← hc]
      have hv : (axOf (profBegun (loomTo s tt) a) a).md.ovr = none := by rw [axOf_profBegun.1, hx, ho]
      have he : profStep (loomTo s tt) a = entryStep (profBegun (loomTo s tt) a) a k := by
        rw [profStep_own (by rw [hx]; exact hl) (by rw [hx]; exact hc) (by rw [hx]; exact hh) ((inGroup_of_par hpar a).trans hg) (by rw [hx]; exact hf)
          (by rw [hx]; exact hs), profRate_of_par hpar]
      have hsh : shapeOf (profBegun (loomTo s tt) a) a = h := shapeOf_of_par hb
      have hsa (sg : Int) : softAhead (profBegun (loomTo s tt) a) a sg = softAhead s a sg := softAhead_of_par hb sg
      clear_value h p k
      generalize profBegun (loomTo s tt) a = w at he hv hp hsh hsa
      refine ⟨fun hq ha h0 => ?_, fun e hq ha hk => ?_, fun e hq ha hk hs => ?_⟩
      · have e0 := entryStep_idle (r := k) hv (by rw [hp]; exact hq) (by rw [hp]; exact ha) (by rw [hp]; exact h0)
        rw [hp, hsh, ← he] at e0
        exact e0
      · have e0 := entryStep_positional (r := k) hv (by rw [hp]; exact hq) (by rw [hp]; exact ha) hk
        rw [hp, hsh, ← he] at e0
        exact e0
      · have e0 := entryStep_velocity (r := k) hv (by rw [hp]; exact hq) (by rw [hp]; exact ha) hk (by rw [hp, hsa]; exact hs)
        rw [hp, hsh, ← he] at e0
        exact e0
end

end Sys2Proof.Machine
end

section
/-! The build deadline (R176, R177): what its parts change outside axes and lanes. -/
open Sys2Proof Sys2Proof.Machine
namespace Sys2Proof.Machine

/-! ### What the records rest on -/

/-- Of a branch, what it has yet to send, and whether it is cut. -/
def sendMarks (b : Branch) : Option Xfer × List Xfer × Bool := (b.retry, b.xfers, b.cut)
/-- A node is muted, or lost. -/
def nodeMarks (n : Node) : Bool × Bool := (n.muted, n.lost)
/-- Outside units nothing has changed, no node, and of the branches nothing that they have yet to send. -/
def recFrame (s t : State) : Prop :=
  unitFrame s t ∧ t.kiln.trigLvl = s.kiln.trigLvl ∧ t.nodes = s.nodes ∧ ∀ b, sendMarks (brOf t b) = sendMarks (brOf s b)
/-- Outside units nothing has changed, and no node has been muted or lost and no branch cut. -/
def buildFrame (s t : State) : Prop :=
  unitFrame s t ∧ t.kiln.trigLvl = s.kiln.trigLvl ∧ (∀ n, nodeMarks (ndOf t n) = nodeMarks (ndOf s n)) ∧ ∀ b, (brOf t b).cut = (brOf s b).cut
/-- Outside acquisition, the free values and the carriers nothing has changed, and no trigger level. -/
def kilnFrame (s t : State) : Prop := quiet { s with kiln := t.kiln, freeCtr := t.freeCtr } t ∧ t.kiln.trigLvl = s.kiln.trigLvl

/-- What a row leaves that changes carriers alone. -/
theorem parts_of_quiet {s t : State} (h : quiet s t) : t.kiln = s.kiln ∧ t.nodes = s.nodes ∧ t.brs = s.brs := by
  unfold quiet at h
  rw [h]
  exact ⟨rfl, rfl, rfl⟩
theorem recFrames : Frame recFrame where
  carriers h := by
    obtain ⟨hk, hn, hb⟩ := parts_of_quiet h.1
    exact ⟨unitFrame_of_quiet h.1, by rw [hk], hn, fun b => by rw [brOf_of_brs hb]⟩
  trans := fun ⟨h, hk, hn, hb⟩ ⟨k, kk, kn, kb⟩ => ⟨unitFrames.trans h k, kk.trans hk, kn.trans hn, fun b => (kb b).trans (hb b)⟩
theorem buildFrames : Frame buildFrame where
  carriers h := by
    obtain ⟨hk, hn, hb⟩ := parts_of_quiet h.1
    exact ⟨unitFrame_of_quiet h.1, by rw [hk], fun n => by rw [ndOf_of_nodes hn], fun b => by rw [brOf_of_brs hb]⟩
  trans := fun ⟨h, hk, hn, hb⟩ ⟨k, kk, kn, kb⟩ =>
    ⟨unitFrames.trans h k, kk.trans hk, fun n => (kn n).trans (hn n), fun b => (kb b).trans (hb b)⟩
theorem kilnFrames : Frame kilnFrame where
  carriers h := by
    have hq := h.1
    refine ⟨?_, by rw [(parts_of_quiet hq).1]⟩
    unfold quiet at *
    rw [hq]
  trans := fun ⟨h, hk⟩ ⟨k, kk⟩ => by
    refine ⟨?_, kk.trans hk⟩
    unfold quiet at *
    rw [k, h]
theorem recFrame.build {s t : State} (h : recFrame s t) : buildFrame s t := by
  obtain ⟨hu, hk, hn, hb⟩ := h
  exact ⟨hu, hk, fun n => by rw [ndOf_of_nodes hn], fun b => congrArg (fun m => m.2.2) (hb b)⟩
theorem recFrame_of_parts {s t : State} (h : unitFrame s t) (hk : t.kiln.trigLvl = s.kiln.trigLvl) (hn : t.nodes = s.nodes) (hb : t.brs = s.brs) : recFrame s t :=
  ⟨h, hk, hn, fun b => by rw [brOf_of_brs hb]⟩
theorem jobFrame.record {s t : State} (h : jobFrame s t) : recFrame s t := by
  have hq := h.1
  unfold quiet at hq
  exact recFrame_of_parts h.unit (by rw [hq]) (by rw [hq]) (by rw [hq])
theorem loomFrame.record {s t : State} (h : loomFrame s t) : recFrame s t := by
  have hq := h.1
  unfold quiet at hq
  exact recFrame_of_parts h.unit (by rw [hq]) (by rw [hq]) (by rw [hq])
theorem kilnFrame.record {s t : State} (h : kilnFrame s t) : recFrame s t := by
  obtain ⟨hq, hk⟩ := h
  unfold quiet at hq
  refine recFrame_of_parts ?_ hk (by rw [hq]) (by rw [hq])
  unfold unitFrame quiet
  rw [hq]
theorem kilnFrame.axes {s t : State} (h : kilnFrame s t) : t.axes = s.axes := by
  have hq := h.1
  unfold quiet at hq
  rw [hq]
theorem kilnFrame.brs {s t : State} (h : kilnFrame s t) : t.brs = s.brs := by
  have hq := h.1
  unfold quiet at hq
  rw [hq]

/-- What a change of one node leaves of it, it leaves of every node. -/
theorem ndPart_modNd {β : Type} (p : Node → β) (s : State) (n : Nat) {f : Node → Node} (hf : ∀ x, p (f x) = p x) (k : Nat) :
    p (ndOf (modNd s n f) k) = p (ndOf s k) := by
  by_cases hk : k = n
  · subst hk
    rw [ndOf_modNd, hf]
  · rw [ndOf_modNd_other _ _ hk]
/-- What a change of one branch leaves of it, it leaves of every branch. -/
theorem brPart_modBr {β : Type} (p : Branch → β) (s : State) (b : Nat) {f : Branch → Branch} (hf : ∀ x, p (f x) = p x) (k : Nat) :
    p (brOf (modBr s b f) k) = p (brOf s k) := by
  by_cases hk : k = b
  · subst hk
    rw [brOf_modBr, hf]
  · rw [brOf_modBr_other _ _ hk]

section
variable (s : State) (a : Nat)
theorem recFrame_modAx (f : Axis → Axis) : recFrame s (modAx s a f) := ⟨rfl, rfl, rfl, fun _ => rfl⟩
theorem recFrame_modBr (f : Branch → Branch) (hf : ∀ x, sendMarks (f x) = sendMarks x := by exact fun _ => rfl) : recFrame s (modBr s a f) :=
  ⟨rfl, rfl, rfl, brPart_modBr sendMarks s a hf⟩
theorem buildFrame_modNd (f : Node → Node) (hf : ∀ x, nodeMarks (f x) = nodeMarks x) : buildFrame s (modNd s a f) :=
  ⟨rfl, rfl, ndPart_modNd nodeMarks s a hf, fun _ => rfl⟩

/-! ### The Loom's cut (R175, R176, R180) -/

theorem nodeMarks_notAccepted (p : BitVec 32) (n : Node) : nodeMarks (notAccepted p n) = nodeMarks n := by
  unfold notAccepted
  split <;> rfl
theorem buildFrame_parserDiscard : buildFrame s (parserDiscard s a) :=
  buildFrames.trans (recFrame_modBr s a _).build (buildFrames.loop _ (fun t (f : RxFrame) => buildFrame_modNd t f.node _ (nodeMarks_notAccepted (ps t))) _)
theorem laneFrame_laneCut : laneFrame s (laneCut s a) :=
  laneSteps.trans (laneFrame_laneBusy s a) (t := laneBusy s a) rfl
theorem idleFrame_interpMissing : idleFrame s (interpMissing s a) :=
  idleFrames.ite (idleFrames.trans (idleFrame_modGrp s a _) (idleFrames.loop _ (fun t k => idleFrame_overrun t k 5 _) _)) (idleFrames.refl s)
theorem recFrame_axMissing : recFrame s (axMissing s a) := by
  unfold axMissing
  extract_lets m nd s1
  have h1 : recFrame s s1 := (idleFrame_overrun s a _ _).job.record
  clear_value s1
  exact recFrames.ite (recFrames.ite (recFrames.trans h1 (recFrame_modAx s1 a _)) h1) (recFrames.refl s)
theorem recFrame_fbLostTake : recFrame s (fbLostTake s a) :=
  recFrames.cond _ (fun t => recFrames.trans (recFrame_modAx t a _) (jobFrame_takeFaults _ a _).record) s
theorem buildFrame_loomDeadline (ds : List Nat) : buildFrame s (loomDeadline s ds) := by
  unfold loomDeadline
  extract_lets s0 s1 s2
  have h0 : buildFrame s s0 := buildFrames.loop _ (fun t k => (loomFrame_interpCreate t k _).record.build) s
  clear_value s0
  have h1 : buildFrame s s1 := buildFrames.trans h0 (buildFrames.loop _ buildFrame_parserDiscard s0)
  clear_value s1
  have h2 : buildFrame s s2 := buildFrames.trans h1 (buildFrames.trans (buildFrames.loop _ (fun t l => (laneFrame_laneCut t l).loom.record.build) s1)
    (buildFrames.loop _ (fun t g => (idleFrame_interpMissing t g).job.record.build) _))
  clear_value s2
  exact buildFrames.trans h2 (buildFrames.loop _ (fun t k => (recFrame_axMissing t k).build) s2)

/-! ### The records and the profile jobs (R168, R177) -/

/-- As `jobFrame`, and of the axes only one may have changed. -/
def ownFrame (a : Nat) (s t : State) : Prop := jobFrame s t ∧ axesBut s t a
theorem ownFrames (a : Nat) : Frame (ownFrame a) where
  carriers h := ⟨jobFrames.carriers h, fun k _ => axOf_of_quiet h.1 k⟩
  trans := fun ⟨h, hk⟩ ⟨k, kk⟩ => ⟨jobFrames.trans h k, hk.trans kk⟩
theorem ownFrame_modAx (f : Axis → Axis) (hf : ∀ x, jobMarks (f x) = jobMarks x := by exact fun _ => rfl) : ownFrame a s (modAx s a f) :=
  ⟨jobFrame_modAx s a f hf, (axLocal_modAx s a f).2⟩
theorem ownFrame_setSt (st : AxSt) : ownFrame a s (setSt s a st) := ⟨jobFrame_setSt s a st, (axLocal_setSt s a st).2⟩
theorem ownFrame_recPlain (pen hold : Bool) : ownFrame a s (recPlain s a pen hold) := ownFrame_modAx s a _
theorem ownFrame_ovrTick : ownFrame a s (ovrTick s a) := by
  unfold ovrTick
  split
  · exact (ownFrames a).trans (ownFrame_modAx s a _) ((ownFrames a).waits _ _ _ _)
  · exact (ownFrames a).refl s
theorem ownFrame_ovrFinish : ownFrame a s (ovrFinish s a) := by
  unfold ovrFinish
  split
  · exact (ownFrames a).trans (ownFrame_modAx s a _) ⟨(idleFrame_enableReset _ a).job, (axLocal_enableReset _ a).2⟩
  · exact (ownFrames a).refl s
theorem ownFrame_recState (pen hold : Bool) : ownFrame a s (recState s a pen hold) := by
  unfold recState
  split
  · exact (ownFrames a).ite (ownFrame_setSt s a _) ((ownFrames a).refl s)
  · exact (ownFrames a).ite (ownFrame_setSt s a _) ((ownFrames a).refl s)
  · exact (ownFrames a).ite (ownFrame_setSt s a _) ((ownFrames a).refl s)
  · exact (ownFrames a).refl s
theorem ownFrame_recBody (b : Body) : ownFrame a s (recBody s a b) := by
  unfold recBody
  extract_lets m k i fmt k2 s1 s2 s3
  have h2 : ownFrame a s s2 := (ownFrames a).trans (ownFrame_modAx s a _) ((ownFrames a).cond _ (fun t => ownFrame_modAx t a _) _)
  clear_value s2
  have h3 : ownFrame a s s3 := (ownFrames a).trans h2 (ownFrame_modAx s2 a _)
  clear_value s3
  have hs : ownFrame a s3 (modSm s3 a (onceAdd 0x7107)) := ⟨jobFrame_once s3 a 0x7107 id (fun _ => rfl), (axLocal_modSm s3 a _).2⟩
  exact (ownFrames a).ite h2 ((ownFrames a).ite h3 ((ownFrames a).trans ((ownFrames a).trans h3 hs) ((ownFrames a).event _ _ _ _)))
theorem ownFrame_recBuild : ownFrame a s (recBuild s a) := by
  unfold recBuild
  extract_lets s0 w s1 x
  have h1 : ownFrame a s s1 := (ownFrames a).trans (ownFrame_ovrFinish s a) (ownFrame_recState _ a _ _)
  clear_value s1
  refine (ownFrames a).ite ((ownFrames a).trans h1 (ownFrame_recPlain s1 a _ _)) ?_
  split
  · exact (ownFrames a).trans h1 ((ownFrames a).trans (ownFrame_ovrTick s1 a) (ownFrame_recBody _ a _))
  · exact (ownFrames a).trans h1 (ownFrame_recBody s1 a _)
theorem recFrame_downBuild : recFrame s (downBuild s) :=
  recFrames.loop _ (fun t b => recFrames.trans (recFrames.loop _ (fun u k => (ownFrame_recBuild u k).1.record) t) (recFrame_modBr _ b _)) s
theorem recFrame_downHold : recFrame s (downHold s) :=
  recFrames.loop _ (fun t b => recFrames.trans (recFrames.loop _ (fun u k => (ownFrame_recPlain u k _ true).1.record) t) (recFrame_modBr _ b _)) s
theorem recFrame_profJobs : recFrame s (profJobs s) := recFrames.loop _ (fun t k => by
  split
  · exact recFrames.trans (recFrame_modAx t k _) (loomFrame_jobPush _ _ _).record
  · exact recFrames.refl t) s
/-- The state in which the records of a pick are built (R176, R210). -/
def cutTaken (ds : List Nat) : State := forEach ((List.range 128).filter (fun a => axClass (loomTo s (tDl s.clk.plen)) a != 0)) fbLostTake (loomDeadline (loomTo s (tDl s.clk.plen)) ds)
theorem deadlineActive_swap (ds : List Nat) (h : s.pair.swapSt = 2) : deadlineActive s ds = downHold (loomTo s (tDl s.clk.plen)) :=
  if_pos (by rw [loomTo_frame]; exact h)
theorem deadlineActive_builds (ds : List Nat) (h : s.pair.swapSt ≠ 2) : deadlineActive s ds = profJobs (downBuild (cutTaken s ds)) :=
  if_neg (by rw [loomTo_frame]; exact h)
theorem buildFrame_cutTaken (ds : List Nat) : buildFrame (loomTo s (tDl s.clk.plen)) (cutTaken s ds) :=
  buildFrames.trans (buildFrame_loomDeadline _ ds) (buildFrames.loop _ (fun t k => (recFrame_fbLostTake t k).build) _)

/-! ### The Kiln at the deadline (R326) -/

theorem kilnFrame_modUn (f : AcqU → AcqU) : kilnFrame s (modUn s a f) := ⟨rfl, rfl⟩
theorem kilnFrame_modHi (f : Hist → Hist) : kilnFrame s (modHi s a f) := ⟨rfl, rfl⟩
theorem kilnFrame_unFlush : kilnFrame s (unFlush s a) := ⟨rfl, rfl⟩
theorem kilnFrame_hiFlush : kilnFrame s (hiFlush s a) := ⟨rfl, rfl⟩
theorem kilnFrame_chStore (c : Nat) : kilnFrame s (chStore a s c) := ⟨rfl, rfl⟩
theorem kilnFrame_hiStore (v : Nat × Nat) : kilnFrame s (hiStore a s v) := ⟨rfl, rfl⟩
theorem kilnFrame_unClosing (last : Nat) : kilnFrame s (unClosing s a last) := kilnFrames.trans (kilnFrame_unFlush s a) (kilnFrame_modUn _ a _)
theorem kilnFrame_unDrop : kilnFrame s (unDrop s a) :=
  kilnFrames.ite (kilnFrame_modUn s a _) (kilnFrames.trans (kilnFrame_modUn s a _) (kilnFrames.event _ _ _ _))
theorem kilnFrame_hiDrop : kilnFrame s (hiDrop s a) :=
  have h := kilnFrames.trans (kilnFrame_hiFlush s a) (kilnFrame_modHi _ a _)
  kilnFrames.ite h (kilnFrames.trans h (kilnFrames.event _ _ _ _))
theorem kilnFrame_unSample : kilnFrame s (unSample s a) := by
  unfold unSample
  extract_lets x s1
  have h1 : kilnFrame s s1 := kilnFrames.loop _ (fun t c => kilnFrame_chStore t a c) s
  clear_value s1
  refine kilnFrames.ite (kilnFrames.ite (kilnFrames.trans (kilnFrame_unFlush s a) (kilnFrame_unDrop _ a)) ?_) (kilnFrames.refl s)
  exact kilnFrames.ite (kilnFrame_unClosing s a _) (kilnFrames.trans h1 (kilnFrames.ite (kilnFrame_unFlush s1 a) (kilnFrames.refl s1)))
theorem kilnFrame_unSettle : kilnFrame s (unSettle s a) := by
  unfold unSettle
  extract_lets x
  split
  · extract_lets post s1
    have h1 : kilnFrame s s1 := kilnFrame_modUn s a _
    clear_value s1
    split
    · exact kilnFrames.trans h1 (kilnFrame_unClosing s1 a _)
    · exact h1
  · exact kilnFrames.refl s
theorem kilnFrame_unEval (new : List LogRec) : kilnFrame s (unEval new s a) := by
  unfold unEval
  extract_lets x ts live l src mine l1 s1 ok
  have h1 : kilnFrame s s1 := kilnFrame_modUn s a _
  clear_value s1
  refine kilnFrames.ite (kilnFrame_modUn s a _) (kilnFrames.ite ?_ (kilnFrames.trans h1 (kilnFrame_modUn s1 a _)))
  split
  · exact kilnFrames.trans (kilnFrames.trans h1 (kilnFrame_modUn s1 a _)) (kilnFrame_unSettle _ a)
  · exact h1
theorem kilnFrame_hiSample : kilnFrame s (hiSample s a) := by
  unfold hiSample
  extract_lets s1 h s2 s3
  have h1 : kilnFrame s s1 := kilnFrames.ite (kilnFrames.refl s) (kilnFrame_modHi s a _)
  clear_value s1
  have h2 : kilnFrame s s2 := kilnFrames.trans h1 (kilnFrame_modHi s1 a _)
  clear_value s2
  have h3 : kilnFrame s s3 := kilnFrames.trans (kilnFrames.trans h2 (kilnFrames.ite (kilnFrame_hiFlush s2 a) (kilnFrames.refl s2)))
    (kilnFrames.loop _ (fun t v => kilnFrame_hiStore t a v) _)
  clear_value s3
  exact kilnFrames.ite (kilnFrames.refl s) (kilnFrames.ite h1 (kilnFrames.ite (kilnFrames.trans h2 (kilnFrame_hiDrop s2 a))
    (kilnFrames.ite (kilnFrames.trans h3 (kilnFrame_hiFlush s3 a)) h3)))
theorem kilnFrame_traceNote : kilnFrame s (traceNote s) := ⟨rfl, rfl⟩
theorem kilnFrame_kilnDeadline : kilnFrame s (kilnDeadline s) := by
  unfold kilnDeadline
  extract_lets s1 s2 s3
  have h1 : kilnFrame s s1 := kilnFrame_traceNote s
  clear_value s1
  have h2 : kilnFrame s s2 := kilnFrames.trans h1 (kilnFrames.loop _ (fun t u => kilnFrames.trans (kilnFrames.trans (kilnFrame_unSample t u) (kilnFrame_unSettle _ u)) (kilnFrame_unEval _ u _)) s1)
  clear_value s2
  have h3 : kilnFrame s s3 := kilnFrames.trans h2 (kilnFrames.loop _ kilnFrame_hiSample s2)
  clear_value s3
  exact kilnFrames.trans h3 ⟨rfl, rfl⟩
end

end Sys2Proof.Machine
end

section
/-! The records of the axes at the build deadline (R115, R177, R206, R218, R225): what one record holds, and the down frames that carry them. -/
open Sys2Proof Sys2Proof.Machine
namespace Sys2Proof.Machine

/-! ### What a record rests on -/

/-- Values in force, placement, pick, and the marks of nodes and branches are the same. -/
structure SameWork (s t : State) : Prop where
  par : t.par = s.par
  warp : t.warp = s.warp
  pick : ps t = ps s
  plen : t.clk.plen = s.clk.plen
  nodes : ∀ n, nodeMarks (ndOf t n) = nodeMarks (ndOf s n)
  cut : ∀ b, (brOf t b).cut = (brOf s b).cut
theorem SameWork.trans {s t u : State} (h : SameWork s t) (k : SameWork t u) : SameWork s u :=
  ⟨k.par.trans h.par, k.warp.trans h.warp, k.pick.trans h.pick, k.plen.trans h.plen, fun n => (k.nodes n).trans (h.nodes n), fun b => (k.cut b).trans (h.cut b)⟩
theorem buildFrame.work {s t : State} (h : buildFrame s t) : SameWork s t :=
  ⟨h.1.par, h.1.warp, h.1.ps, congrArg Clk.plen h.1.eff.clk, h.2.2.1, h.2.2.2⟩
theorem recFrame.work {s t : State} (h : recFrame s t) : SameWork s t := h.build.work

section
variable {s t : State}
theorem axNode_same (h : t.par = s.par) (a : Nat) : axNode t a = axNode s a := pnat_of_par h _ a
theorem axLax_same (h : t.par = s.par) (a : Nat) : axLax t a = axLax s a := pnat_of_par h _ a
theorem axFmt_same (h : t.par = s.par) (a : Nat) : axFmt t a = axFmt s a := pnat_of_par h _ a
theorem boostOn_same (h : ps t = ps s) (m : AxMod) : boostOn t m = boostOn s m := by
  unfold boostOn
  rw [h]
theorem tPwm_same (h : SameWork s t) (n : Nat) : tPwm t n = tPwm s n := by
  unfold tPwm tPick
  rw [pnat_of_par h.par, h.plen]
theorem periods_same (h : SameWork s t) (a : Nat) : periods t a = periods s a := by
  unfold periods
  rw [axNode_same h.par, pnat_of_par h.par, h.pick]
theorem tEff_same (h : SameWork s t) {a : Nat} (hx : axOf t a = axOf s a) : tEff t a = tEff s a := by
  unfold tEff
  rw [hx, boostOn_same h.pick, pnat_of_par h.par]
theorem nEff_same (h : SameWork s t) {a : Nat} (hx : axOf t a = axOf s a) : nEff t a = nEff s a := by
  unfold nEff
  rw [hx, boostOn_same h.pick, pnat_of_par h.par]
theorem kindle_same (h : SameWork s t) {a : Nat} (hx : axOf t a = axOf s a) (b : Body) (m : AxMod) : kindle t a b m = kindle s a b m := by
  unfold kindle
  rw [periods_same h, tEff_same h hx, nEff_same h hx, axNode_same h.par, tPwm_same h, pnat_of_par h.par]
theorem muted_same (h : SameWork s t) (n : Nat) : (ndOf t n).muted = (ndOf s n).muted := congrArg Prod.fst (h.nodes n)
/-- KREQ of a record rests on the nodes and on what the branches have yet to send (R128, R160). -/
theorem kreqOf_same (h : recFrame s t) (a : Nat) : kreqOf t a = kreqOf s a := by
  obtain ⟨hu, _, hn, hb⟩ := h
  have hnd (n : Nat) : ndOf t n = ndOf s n := ndOf_of_nodes hn n
  have hr (b : Nat) : (brOf t b).retry = (brOf s b).retry := congrArg Prod.fst (hb b)
  have hx (b : Nat) : (brOf t b).xfers = (brOf s b).xfers := congrArg (fun m => m.2.1) (hb b)
  have hq (n : Nat) : asgUnsent t n = asgUnsent s n := by
    unfold asgUnsent
    simp only [hr, hx]
  have hB (g : Nat) : boltReached t g = boltReached s g := by
    unfold boltReached
    rw [hu.ps]
  have ha (n : Nat) : asgOf t n = asgOf s n := by
    unfold asgOf
    simp only [hnd, hq, hB]
  simp only [kreqOf, axNode_same hu.par, axLax_same hu.par, ha, hnd]
/-- FB_LOST rests, for an axis whose job of the pick has run, on what `SameWork` keeps (R210). -/
theorem fbLostHolds_same (h : SameWork s t) {a : Nat} (hx : axOf t a = axOf s a) (hd : (axOf s a).sm.jobDone = true) : fbLostHolds t a = fbLostHolds s a := by
  have hl (n : Nat) : (ndOf t n).lost = (ndOf s n).lost := congrArg Prod.snd (h.nodes n)
  simp [fbLostHolds, hx, hd, placed, plOf, h.warp, axNode_same h.par, pnat_of_par h.par, muted_same h, hl, h.cut]
end

/-! ### The record of one axis (R177, R206) -/

section
variable (s : State) (a : Nat)
/-- The header of the record of an axis (R115). -/
def headOf (hold pen : Bool) : Bytes := recHeader (axNode s a) (axLax s a) (axFmt s a) hold pen
/-- The record of an axis without power (R218). -/
def bareRecord (kreq : Nat) : Bytes := headOf s a false false ++ bodyBytes (axFmt s a) kreq false .none
/-- The record of an axis whose body goes through kindling and interlock (R225 to R229). -/
def bodyRecord (kreq : Nat) (b : Body) : Bytes :=
  headOf s a false true ++ bodyBytes (axFmt s a) kreq (boostOn s (axOf s a).md)
    (interlock (tPwm s (axNode s a)) (pnat s 0x0401 a) (kindle s a (demanded b) (axOf s a).md).1).1
/-- An axis whose record shows the body of its loops: closed, on its own, its job run, and nothing in the way. -/
structure Shown : Prop where
  state : (axOf s a).sm.st = .enabled ∨ (axOf s a).sm.st = .moving
  alone : inGroup s a = false
  done : (axOf s a).sm.jobDone = true
  heard : (ndOf s (axNode s a)).muted = false
  found : fbLostHolds s a = false
  free : (axOf s a).md.ovr = none
  body : (axOf s a).md.body ≠ .none
/-- An axis without power (R206). -/
def unpowered (m : AxSm) : Prop := m.st = .disabled ∨ m.st = .safeOff
/-- What the record of an axis holds, from the state before the deadline. -/
structure RecordOf (kreq : Nat) (bs : Bytes) : Prop where
  bare : unpowered (axOf s a).sm → bs = bareRecord s a kreq
  shown : Shown s a → bs = bodyRecord s a kreq (axOf s a).md.body

theorem recB_recPlain (pen hold : Bool) : (axOf (recPlain s a pen hold) a).md.recB = headOf s a hold pen ++ bodyBytes (axFmt s a) (kreqOf s a) false .none := by
  rw [recPlain, modMd, axOf_modAx]
  rfl
theorem recB_recBody (b : Body) : (axOf (recBody s a b) a).md.recB = bodyRecord s a (kreqOf s a) b := by
  unfold recBody
  extract_lets m k i fmt k2 s1 s2 s3
  have h1 : (axOf s1 a).md.recB = bodyRecord s a (kreqOf s a) b := by
    unfold s1
    rw [modMd, axOf_modAx]
    rfl
  clear_value s1
  have h2 : (axOf s2 a).md = (axOf s1 a).md := by
    unfold s2 when
    split
    · exact axPart_modAx Axis.md s1 a (f := fun x => { x with cnt := { x.cnt with cap := satInc 32 x.cnt.cap } }) (fun _ => rfl) a
    · rfl
  clear_value s2
  have h3 : (axOf s3 a).md = (axOf s2 a).md := by
    unfold s3
    rw [modCnt, axOf_modAx]
  clear_value s3
  have h4 (t : State) : axOf (raise t 0x7107 a []) a = axOf t a := rfl
  split
  · rw [h2, h1]
  · split
    · rw [h3, h2, h1]
    · rw [h4, modSm, axOf_modAx]
      exact (congrArg AxMod.recB (h3.trans h2)).trans h1
variable {s a}
theorem sm_ovrFinish : (axOf (ovrFinish s a) a).sm = (axOf s a).sm := by
  unfold ovrFinish
  split
  · rw [(idleFrame_enableReset _ a).sm, modMd, axOf_modAx]
  · rfl
/-- An axis without power sends PEN = 0 (R206, R218). -/
theorem recBuild_unpowered (h : unpowered (axOf s a).sm) : (axOf (recBuild s a) a).md.recB = bareRecord s a (kreqOf s a) := by
  have hs : unpowered (axOf (ovrFinish s a) a).sm := by rw [sm_ovrFinish]; exact h
  have hw : recWant (ovrFinish s a) a = (false, false) := by
    unfold recWant axClosed
    rcases hs with hs | hs <;> simp [hs]
  have hr : recState (ovrFinish s a) a false false = ovrFinish s a := by
    unfold recState
    rcases hs with hs | hs <;> simp [hs]
  have hb : recBuild s a = recPlain (ovrFinish s a) a false false := by
    unfold recBuild
    simp only [hw, hr]
    rfl
  have hf := (ownFrame_ovrFinish s a).1.record
  rw [hb, recB_recPlain, kreqOf_same hf, bareRecord, headOf, headOf, axNode_same hf.1.par, axLax_same hf.1.par, axFmt_same hf.1.par]
/-- An axis on its own whose loops have run sends their body. -/
theorem recBuild_body (hs : (axOf s a).sm.st = .enabled ∨ (axOf s a).sm.st = .moving) (hd : (axOf s a).sm.jobDone = true) (hm : (ndOf s (axNode s a)).muted = false)
    (ho : (axOf s a).md.ovr = none) (hb : (axOf s a).md.body ≠ .none) : (axOf (recBuild s a) a).md.recB = bodyRecord s a (kreqOf s a) (axOf s a).md.body := by
  have hf : ovrFinish s a = s := by
    unfold ovrFinish
    rw [ho]
  have hw : recWant s a = (true, false) := by
    unfold recWant axClosed
    rcases hs with hs | hs <;> simp [hs, hd, hm]
  have hr : recState s a true false = s := by
    unfold recState
    rcases hs with hs | hs <;> simp [hs]
  have hl : lastBody s a (axOf s a) = (axOf s a).md.body := by
    unfold lastBody
    split
    · exact absurd ‹_› hb
    · rfl
  have he : recBuild s a = recBody s a (axOf s a).md.body := by
    unfold recBuild
    simp only [hf, hw, hr, ho, hl]
    rfl
  rw [he, recB_recBody]
/-- What the deadline has left of an axis before its record is built. -/
structure Ready (s w : State) (a : Nat) : Prop where
  work : SameWork s w
  bare : unpowered (axOf s a).sm → unpowered (axOf w a).sm
  shown : Shown s a → axOf w a = axOf s a
theorem recordOf_recBuild {w : State} (h : Ready s w a) : RecordOf s a (kreqOf w a) (axOf (recBuild w a) a).md.recB where
  bare hu := by
    have hp := h.work.par
    rw [recBuild_unpowered (h.bare hu), bareRecord, bareRecord, headOf, headOf, axNode_same hp, axLax_same hp, axFmt_same hp]
  shown hs := by
    have hp := h.work.par
    have hx := h.shown hs
    rw [recBuild_body (by rw [hx]; exact hs.state) (by rw [hx]; exact hs.done) (by rw [axNode_same hp, muted_same h.work]; exact hs.heard)
      (by rw [hx]; exact hs.free) (by rw [hx]; exact hs.body), bodyRecord, bodyRecord, headOf, headOf, axNode_same hp, axLax_same hp, axFmt_same hp, hx,
      kindle_same h.work hx, tPwm_same h.work, boostOn_same h.work.pick, pnat_of_par hp]
end

/-! ### The axes of a down frame (R115) -/

theorem perm_insertBy {α : Type} (lt : α → α → Bool) (x : α) (xs : List α) : (insertBy lt x xs).Perm (x :: xs) := by
  induction xs with
  | nil => exact .refl _
  | cons y ys ih =>
    unfold insertBy
    split
    · exact .refl _
    · exact (ih.cons y).trans (.swap x y ys)
theorem perm_sortBy {α : Type} (lt : α → α → Bool) (xs : List α) : (sortBy lt xs).Perm xs := by
  have go (xs acc : List α) : (xs.foldl (fun acc x => insertBy lt x acc) acc).Perm (xs ++ acc) := by
    induction xs generalizing acc with
    | nil => exact .refl _
    | cons x xs ih => exact (ih _).trans (((perm_insertBy lt x acc).append_left xs).trans List.perm_middle)
  exact (go xs []).trans (by rw [List.append_nil])

section
variable {s t : State}
/-- The placement records behind a down frame. -/
def downPlaces (s : State) (b : Nat) : List AxisPl :=
  s.warp.place.axes.filter (fun p => !p.unplaced && p.node / 4 = b && axClass s p.axis != 0 && axClass s p.axis != 4)
theorem downAxes_perm (b : Nat) : (downAxes s b).Perm ((downPlaces s b).map (·.axis)) := (perm_sortBy _ _).map _
theorem nodup_downAxes (h : (s.warp.place.axes.map (·.axis)).Nodup) (b : Nat) : (downAxes s b).Nodup :=
  (downAxes_perm b).nodup_iff.mpr (h.sublist (List.filter_sublist.map _))
theorem mem_downAxes {a b : Nat} (h : a ∈ downAxes s b) : ∃ p ∈ s.warp.place.axes, p.node / 4 = b ∧ p.axis = a := by
  obtain ⟨p, hp, ha⟩ := List.mem_map.mp ((downAxes_perm b).mem_iff.mp h)
  obtain ⟨hm, hc⟩ := List.mem_filter.mp hp
  simp only [Bool.and_eq_true, decide_eq_true_eq] at hc
  exact ⟨p, hm, hc.1.1.2, ha⟩
/-- No axis has records in the down frames of two branches. -/
theorem downAxes_disjoint (h : (s.warp.place.axes.map (·.axis)).Nodup) {a b c : Nat} (hb : a ∈ downAxes s b) (hc : a ∈ downAxes s c) : b = c := by
  obtain ⟨p, hp, hpb, hpa⟩ := mem_downAxes hb
  obtain ⟨q, hq, hqc, hqa⟩ := mem_downAxes hc
  have he : p = q := List.inj_on_of_nodup_map h hp hq (hpa.trans hqa.symm)
  rw [← hpb, ← hqc, he]
theorem downAxes_same (hp : t.par = s.par) (hw : t.warp = s.warp) (b : Nat) : downAxes t b = downAxes s b := by
  simp only [downAxes, axClass_of_par hp, hw]
theorem brList_same (hp : t.par = s.par) : brList t = brList s := by
  have he : brEnabled t = brEnabled s := funext fun b => congrArg (nbit · b) (pnat_of_par hp _ 0)
  rw [brList, brList, he]
theorem nodup_brList : (brList s).Nodup := List.nodup_range.filter _
end

/-! ### The down frames (R30, R177) -/

/-- The turn of a branch: its records, and its down frame. -/
def branchBuilt (t : State) (b : Nat) : State :=
  modBr (forEach (downAxes t b) recBuild t) b (fun r => { r with down := ((downAxes t b).map (fun a => (axOf (forEach (downAxes t b) recBuild t) a).md.recB)).flatten })
theorem downBuild_eq (s : State) : downBuild s = forEach (brList s) branchBuilt s := rfl
/-- The down frame of a branch is built. -/
structure DownBuilt (s f t : State) (b : Nat) : Prop where
  frame : recFrame f t
  down : (brOf t b).down = ((downAxes f b).map (fun a => (axOf t a).md.recB)).flatten
  records : ∀ a ∈ downAxes f b, RecordOf s a (kreqOf f a) (axOf t a).md.recB

section
variable {s f : State}
theorem recFrame_records (xs : List Nat) (t : State) : recFrame t (forEach xs recBuild t) := recFrames.loop xs (fun u k => (ownFrame_recBuild u k).1.record) t
theorem brs_records (xs : List Nat) (t : State) : (forEach xs recBuild t).brs = t.brs := forEach_leaves State.brs fun u k _ => by
  have hq := (ownFrame_recBuild u k).1.1
  unfold quiet at hq
  rw [hq]
theorem axOf_records {xs : List Nat} {k : Nat} (h : k ∉ xs) (t : State) : axOf (forEach xs recBuild t) k = axOf t k :=
  forEach_leaves (axOf · k) fun u j hj => (ownFrame_recBuild u j).2 k fun he => h (he ▸ hj)
theorem recFrame_branchBuilt (t : State) (b : Nat) : recFrame t (branchBuilt t b) := recFrames.trans (recFrame_records _ t) (recFrame_modBr _ b _)
theorem downBuilt_branchBuilt (hn : (f.warp.place.axes.map (·.axis)).Nodup) {t : State} {b : Nat} (hr : ∀ a ∈ downAxes f b, Ready s f a) (hf : recFrame f t)
    (hx : ∀ a ∈ downAxes f b, axOf t a = axOf f a) : DownBuilt s f (branchBuilt t b) b := by
  have hd : downAxes t b = downAxes f b := downAxes_same hf.1.par hf.1.warp b
  refine ⟨recFrames.trans hf (recFrame_branchBuilt t b), ?_, fun a ha => ?_⟩
  · unfold branchBuilt
    rw [brOf_modBr, hd]
    rfl
  · show RecordOf s a (kreqOf f a) (axOf (forEach (downAxes t b) recBuild t) a).md.recB
    rw [hd]
    refine forEach_turn (P := fun u => recFrame f u ∧ axOf u a = axOf f a) (Q := fun u => RecordOf s a (kreqOf f a) (axOf u a).md.recB)
      (nodup_downAxes hn b) ha (fun u ⟨hu, he⟩ => ?_) (fun u k hk ⟨hu, he⟩ => ?_) (fun u k hk hq => ?_) ⟨hf, hx a ha⟩
    · have hR := hr a ha
      have hw : Ready s u a := ⟨hR.work.trans hu.work, fun h => by rw [he]; exact hR.bare h, fun h => he.trans (hR.shown h)⟩
      rw [← kreqOf_same hu]
      exact recordOf_recBuild hw
    · exact ⟨recFrames.trans hu (ownFrame_recBuild u k).1.record, ((ownFrame_recBuild u k).2 a (Ne.symm hk)).trans he⟩
    · rw [(ownFrame_recBuild u k).2 a (Ne.symm hk)]
      exact hq
/-- The turn of another branch leaves the axes and the down frame of a branch. -/
theorem branchBuilt_leaves (hn : (f.warp.place.axes.map (·.axis)).Nodup) {t : State} {b c : Nat} (hc : c ≠ b) (hf : recFrame f t) :
    (∀ a ∈ downAxes f b, axOf (branchBuilt t c) a = axOf t a) ∧ brOf (branchBuilt t c) b = brOf t b := by
  have hd : downAxes t c = downAxes f c := downAxes_same hf.1.par hf.1.warp c
  refine ⟨fun a ha => ?_, ?_⟩
  · show axOf (forEach (downAxes t c) recBuild t) a = axOf t a
    exact axOf_records (fun h => hc (downAxes_disjoint hn (hd ▸ h) ha)) t
  · unfold branchBuilt
    rw [brOf_modBr_other _ _ (Ne.symm hc), brOf_of_brs (brs_records _ t)]
theorem downBuilt_downBuild (hn : (f.warp.place.axes.map (·.axis)).Nodup) {b : Nat} (hb : b ∈ brList f) (hr : ∀ a ∈ downAxes f b, Ready s f a) :
    DownBuilt s f (downBuild f) b := by
  rw [downBuild_eq]
  refine forEach_turn (P := fun u => recFrame f u ∧ ∀ a ∈ downAxes f b, axOf u a = axOf f a) (Q := fun u => DownBuilt s f u b)
    nodup_brList hb (fun u ⟨hu, he⟩ => downBuilt_branchBuilt hn hr hu he) (fun u c hc ⟨hu, he⟩ => ?_) (fun u c hc hq => ?_) ⟨recFrames.refl f, fun _ _ => rfl⟩
  · exact ⟨recFrames.trans hu (recFrame_branchBuilt u c), fun a ha => ((branchBuilt_leaves hn hc hu).1 a ha).trans (he a ha)⟩
  · obtain ⟨hx, hbr⟩ := branchBuilt_leaves hn hc hq.frame
    refine ⟨recFrames.trans hq.frame (recFrame_branchBuilt u c), ?_, fun a ha => ?_⟩
    · rw [hbr, hq.down]
      exact congrArg List.flatten (List.map_congr_left fun a ha => by rw [hx a ha])
    · rw [hx a ha]
      exact hq.records a ha
/-- What leaves the outputs of the axes and the branches leaves the down frames. -/
theorem DownBuilt.of_same {t u : State} {b : Nat} (h : DownBuilt s f t b) (hu : recFrame t u) (hm : ∀ k, (axOf u k).md = (axOf t k).md) (hb : u.brs = t.brs) :
    DownBuilt s f u b := by
  refine ⟨recFrames.trans h.frame hu, ?_, fun a ha => ?_⟩
  · rw [brOf_of_brs hb, h.down]
    exact congrArg List.flatten (List.map_congr_left fun a _ => by rw [hm])
  · rw [hm]
    exact h.records a ha
theorem profJobs_leaves (t : State) : (∀ k, (axOf (profJobs t) k).md = (axOf t k).md) ∧ (profJobs t).brs = t.brs := by
  refine ⟨fun k => forEach_leaves (fun u => (axOf u k).md) fun u a _ => ?_, forEach_leaves State.brs fun u a _ => ?_⟩
  · split
    · exact axPart_modAx Axis.md u a (f := fun x => { x with sm := { x.sm with profDone := false } }) (fun _ => rfl) k
    · rfl
  · split <;> rfl
end

end Sys2Proof.Machine
end

section
/-! What the cut of the build deadline leaves of an axis (R176, R180, R210), and the row. -/
open Sys2Proof Sys2Proof.Machine
namespace Sys2Proof.Machine

/-! ### The states of the axes through the cut (R180, R210) -/

section
variable (s : State) (a : Nat)
theorem faultsOnly_axMissing : faultsOnly s (axMissing s a) := by
  unfold axMissing
  extract_lets m nd s1
  have h1 : faultsOnly s s1 := (idleFrame_overrun s a _ _).faults
  clear_value s1
  exact faultsFrames.ite (faultsFrames.ite (faultsFrames.trans h1 (faultsOnly_modSm s1 a _ fun _ => faultWay_of_eq rfl rfl)) h1) (faultsFrames.refl s)
theorem faultsOnly_fbLostTake : faultsOnly s (fbLostTake s a) := by
  have hm (t : State) : faultsOnly t (modAx t a (fun x => { x with sm := { x.sm with jobSince := false }, fb := { x.fb with rebase := x.fb.valid } })) :=
    faultsOnly_of_local (axLocal_modAx t a _) (by rw [axOf_modAx]; exact faultWay_of_eq rfl rfl)
  exact faultsFrames.cond _ (fun t => faultsFrames.trans (hm t) (faultsOnly_off _ a _)) s
theorem axes_parserDiscard : (parserDiscard s a).axes = s.axes := forEach_leaves State.axes fun _ _ _ => rfl
theorem faultsOnly_loomDeadline (ds : List Nat) : faultsOnly s (loomDeadline s ds) := by
  have hl {u v : State} (h : loomFrame u v) : faultsOnly u v := fun k => faultWay_of_eq (by rw [h.sm]) (by rw [h.sm])
  unfold loomDeadline
  extract_lets s0 s1 s2
  have h0 : faultsOnly s s0 := faultsFrames.loop _ (fun t k => hl (loomFrame_interpCreate t k _)) s
  clear_value s0
  have h1 : faultsOnly s s1 := faultsFrames.trans h0 (faultsFrames.loop _ (fun t b => faultsOnly_of_axes (axes_parserDiscard t b)) s0)
  clear_value s1
  have h2 : faultsOnly s s2 := faultsFrames.trans h1 (faultsFrames.trans (faultsFrames.loop _ (fun t l => hl (laneFrame_laneCut t l).loom) s1)
    (faultsFrames.loop _ (fun t g => (idleFrame_interpMissing t g).faults) _))
  clear_value s2
  exact faultsFrames.trans h2 (faultsFrames.loop _ faultsOnly_axMissing s2)
theorem faultsOnly_cutTaken (ds : List Nat) : faultsOnly (loomTo s (tDl s.clk.plen)) (cutTaken s ds) :=
  faultsFrames.trans (faultsOnly_loomDeadline _ ds) (faultsFrames.loop _ faultsOnly_fbLostTake _)

/-! ### An axis whose job has run is left alone -/

theorem axOf_overrun_other {j k : Nat} (h : k ≠ j) (cause : Nat) (p : BitVec 32) : axOf (overrun s j cause p) k = axOf s k := by
  have hm (f : AxCnt → AxCnt) : axOf (modCnt s j f) k = axOf s k := axOf_modAx_other s _ h
  have hr (t : State) (c i : Nat) (pl : Bytes) : axOf (raiseAt t c i pl p) k = axOf t k := rfl
  unfold overrun
  extract_lets was s1
  split
  · exact hm _
  · exact (hr s1 _ _ _).trans (hm _)
end

/-- Of an axis on its own whose job has run, the cut leaves everything. -/
structure Untouched (s t : State) (a : Nat) : Prop where
  work : SameWork s t
  same : axOf t a = axOf s a
section
variable {s t : State} {a : Nat} (h : Untouched s t a)
include h
theorem Untouched.step {u : State} (hu : buildFrame t u) (hx : axOf u a = axOf t a) : Untouched s u a := ⟨h.work.trans hu.work, hx.trans h.same⟩
theorem Untouched.interpMissing (hg : inGroup s a = false) {g : Nat} (hl : g < 16) : Untouched s (interpMissing t g) a := by
  refine h.step (idleFrame_interpMissing t g).job.record.build ?_
  have hm : a ∉ grpMembers t g := fun hm => by
    rw [grpMembers_of_par h.work.par] at hm
    obtain ⟨_, hc⟩ := List.mem_filter.mp hm
    simp only [Bool.and_eq_true, beq_iff_eq] at hc
    simp [inGroup, hc.2, hl] at hg
  unfold Machine.interpMissing
  split
  · exact forEach_leaves (axOf · a) fun u j hj => axOf_overrun_other u (fun he : a = j => hm (by rw [he]; exact hj)) 5 _
  · rfl
theorem Untouched.axMissing (hd : (axOf s a).sm.jobDone = true) (j : Nat) : Untouched s (axMissing t j) a := by
  refine h.step (recFrame_axMissing t j).build ?_
  by_cases hj : a = j
  · subst hj
    exact congrArg (axOf · a) (if_neg fun hc => by rw [h.same, hd] at hc; exact absurd hc.2.1 (by decide))
  · have ho (c : Nat) (p : BitVec 32) := axOf_overrun_other t hj c p
    unfold Machine.axMissing
    extract_lets m nd s1
    split
    · split
      · exact (axOf_modAx_other _ _ hj).trans (ho _ _)
      · exact ho _ _
    · rfl
theorem Untouched.fbLostTake (hw : Shown s a) (j : Nat) : Untouched s (fbLostTake t j) a := by
  refine h.step (recFrame_fbLostTake t j).build ?_
  unfold Machine.fbLostTake when
  by_cases hj : a = j
  · subst hj
    rw [fbLostHolds_same h.work h.same hw.done, hw.found]
    rfl
  · split
    · show axOf (takeFaults (modAx t j _) j _) a = axOf t a
      refine (axOf_takeFaults_other (s := modAx t j _) _ hj ?_).trans (axOf_modAx_other t _ hj)
      exact (inGroup_of_par (t := modAx t j _) h.work.par a).trans hw.alone
    · rfl
end
theorem untouched_cutTaken {s : State} {a : Nat} (h : Shown s a) (ds : List Nat) {u : State} (hu : Untouched s (loomTo u (tDl u.clk.plen)) a) :
    Untouched s (cutTaken u ds) a := by
  unfold cutTaken loomDeadline
  extract_lets s0 s1 s2
  have h0 : Untouched s s0 a := forEach_stays (P := (Untouched s · a))
    (fun t k _ ht => ht.step (loomFrame_interpCreate t k _).record.build (axOf_of_axes (axes_interpCreate t k _) a)) hu
  clear_value s0
  have h1 : Untouched s s1 a := forEach_stays (P := (Untouched s · a))
    (fun t b _ ht => ht.step (buildFrame_parserDiscard t b) (axOf_of_axes (axes_parserDiscard t b) a)) h0
  clear_value s1
  have h2 : Untouched s s2 a := forEach_stays (P := (Untouched s · a)) (fun t g hg ht => ht.interpMissing h.alone (List.mem_range.mp hg))
    (forEach_stays (P := (Untouched s · a))
      (fun t l _ ht => ht.step (laneFrame_laneCut t l).loom.record.build (axOf_of_axes (laneFrame_laneCut t l).axes a)) h1)
  clear_value s2
  exact forEach_stays (P := (Untouched s · a)) (fun t j _ ht => ht.fbLostTake h j)
    (forEach_stays (P := (Untouched s · a)) (fun t j _ ht => ht.axMissing h.done j) h2)

/-! ### The row (R176, R177) -/

section
variable (s : State) (die : Int) (lv : BitVec 4) (ds : List Nat)
/-- What the deadline samples and notes first. -/
def deadlineSeen : State :=
  { s with clk := { s.clk with afterDl := true, now := max s.clk.now (s.clk.pickT0 + tDl s.clk.plen) },
           boot := { s.boot with dieTemp := die, tjHigh := s.boot.tjHigh && decide (145 * 256 ≤ die) }, kiln.trigLvl := lv }
/-- The Loom's part of the deadline, while the part sends. -/
def deadlineBuilt : State := if sending s then deadlineActive s ds else s
/-- The Kiln's part of the deadline. -/
def deadlineEnded : State := if isReady s = true ∧ isStandby s = false then kilnDeadline s else s
/-- The lanes have selected up to a time, or nothing has changed (log 60). -/
def selFrame (s u : State) : Prop := u = { s with lanes := u.lanes, clk := { s.clk with loomT := u.clk.loomT, now := u.clk.now } }
theorem exec_buildDeadline (ads : List AxisNo) (hl : s.clk.locked = true) (hs : s.clk.started = true) (ha : s.clk.afterDl = false) :
    exec (.buildDeadline die ⟨lv, ads⟩) s = finishD s (deadlineEnded (deadlineBuilt (deadlineSeen s die lv) (ads.map (·.val)))) :=
  congrArg (finishD s) (if_pos ⟨hl, hs, ha⟩)
theorem buildDeadline_idle (ads : List AxisNo) (h : s.clk.afterDl = true ∨ s.clk.locked = false ∨ s.clk.started = false) :
    exec (.buildDeadline die ⟨lv, ads⟩) s = .next s := by
  have hc : ¬(s.clk.locked = true ∧ s.clk.started = true ∧ s.clk.afterDl = false) := fun ⟨hl, hs, ha⟩ => by simp [hl, hs, ha] at h
  exact congrArg (finishD s) (if_neg hc)
theorem selFrame_loomTo (tt : Nat) : selFrame s (loomTo s tt) := by
  unfold selFrame loomTo
  extract_lets k
  split <;> rfl
theorem selFrame.work {s u : State} (h : selFrame s u) : SameWork s u := by
  unfold selFrame at h
  rw [h]
  exact ⟨rfl, rfl, rfl, rfl, fun _ => rfl, fun _ => rfl⟩
theorem kilnFrame_deadlineEnded : kilnFrame s (deadlineEnded s) := kilnFrames.ite (kilnFrame_kilnDeadline s) (kilnFrames.refl s)
theorem buildFrame_deadlineActive : buildFrame (loomTo s (tDl s.clk.plen)) (deadlineActive s ds) := by
  by_cases h : s.pair.swapSt = 2
  · rw [deadlineActive_swap s ds h]
    exact (recFrame_downHold _).build
  · rw [deadlineActive_builds s ds h]
    exact buildFrames.trans (buildFrame_cutTaken s ds) (recFrames.trans (recFrame_downBuild _) (recFrame_profJobs _)).build
/-- What the whole deadline changes. -/
theorem deadline_frame : ∃ u, selFrame s u ∧ buildFrame u (deadlineEnded (deadlineBuilt s ds)) := by
  have hk := (kilnFrame_deadlineEnded (deadlineBuilt s ds)).record.build
  by_cases h : sending s = true
  · have hb : deadlineBuilt s ds = deadlineActive s ds := if_pos h
    rw [hb] at hk ⊢
    exact ⟨_, selFrame_loomTo s _, buildFrames.trans (buildFrame_deadlineActive s ds) hk⟩
  · have hb : deadlineBuilt s ds = s := if_neg h
    rw [hb] at hk ⊢
    exact ⟨s, rfl, hk⟩

variable {s}
theorem sameWork_seen : SameWork s (loomTo (deadlineSeen s die lv) (tDl (deadlineSeen s die lv).clk.plen)) := by
  have h0 : SameWork s (deadlineSeen s die lv) := ⟨rfl, rfl, rfl, rfl, fun _ => rfl, fun _ => rfl⟩
  exact h0.trans (selFrame_loomTo _ _).work
theorem axOf_seen (k : Nat) : axOf (loomTo (deadlineSeen s die lv) (tDl (deadlineSeen s die lv).clk.plen)) k = axOf s k := axOf_loomTo _ _ k
theorem ready_cutTaken (a : Nat) : Ready s (cutTaken (deadlineSeen s die lv) ds) a where
  work := (sameWork_seen die lv).trans (buildFrame_cutTaken _ ds).work
  bare h := by
    have hr := (faultsOnly_cutTaken (deadlineSeen s die lv) ds a).rest
    rw [axOf_seen] at hr
    unfold unpowered
    rw [hr h]
    exact h
  shown h := (untouched_cutTaken h ds ⟨sameWork_seen die lv, axOf_seen die lv a⟩).same
/-- The down frames behind the deadline. -/
theorem downBuilt_deadline (hs : sending s = true) (hp : s.pair.swapSt ≠ 2) (hn : (s.warp.place.axes.map (·.axis)).Nodup) {b : Nat} (hb : b ∈ brList s) :
    DownBuilt s (cutTaken (deadlineSeen s die lv) ds) (deadlineEnded (deadlineBuilt (deadlineSeen s die lv) ds)) b := by
  have hw := (ready_cutTaken (s := s) die lv ds 0).work
  have hd := downBuilt_downBuild (s := s) (f := cutTaken (deadlineSeen s die lv) ds) (by rw [hw.warp]; exact hn) (by rw [brList_same hw.par]; exact hb)
    (fun a _ => ready_cutTaken die lv ds a)
  have he : deadlineBuilt (deadlineSeen s die lv) ds = profJobs (downBuild (cutTaken (deadlineSeen s die lv) ds)) :=
    (if_pos hs).trans (deadlineActive_builds _ ds hp)
  generalize cutTaken (deadlineSeen s die lv) ds = f at hd he ⊢
  rw [he]
  have hk := kilnFrame_deadlineEnded (profJobs (downBuild f))
  obtain ⟨hm, hq⟩ := profJobs_leaves (downBuild f)
  exact (hd.of_same (recFrame_profJobs _) hm hq).of_same hk.record (fun k => by rw [axOf_of_axes hk.axes]) hk.brs
end

theorem unitFrame.holds {s t : State} (h : unitFrame s t) :
    t.pending = s.pending ∧ t.ddr = s.ddr ∧ t.dmp = s.dmp ∧ t.par = s.par ∧ t.clk = s.clk ∧ t.boot = s.boot := by
  unfold unitFrame quiet at h
  rw [h]
  exact ⟨rfl, rfl, rfl, rfl, rfl, rfl⟩
/-- BUILD_DEADLINE, once in a pick (R176, R177). -/
theorem buildDeadline_row (s : State) (die : Int) (lv : BitVec 4) (dec : List AxisNo) (hl : s.clk.locked = true) (hs : s.clk.started = true) (ha : s.clk.afterDl = false) :
    goes (.buildDeadline die ⟨lv, dec⟩) s (fun t =>
      t.pending = s.pending ∧ t.ddr = s.ddr ∧ t.dmp = s.dmp ∧ t.par = s.par ∧ t.clk.afterDl = true ∧ t.clk.pstamp = s.clk.pstamp ∧
      t.boot.dieTemp = die ∧ t.kiln.trigLvl = lv ∧
      (sending s = true → s.pair.swapSt ≠ 2 → (s.warp.place.axes.map (·.axis)).Nodup → ∀ b ∈ brList s,
        (brOf t b).down = ((downAxes s b).map (fun a => (axOf t a).md.recB)).flatten ∧
        ∀ a ∈ downAxes s b, RecordOf s a (kreqOf t a) (axOf t a).md.recB)) := by
  have hd {b : Nat} := downBuilt_deadline (s := s) (b := b) die lv (dec.map (·.val))
  have hr := fun a => (ready_cutTaken (s := s) die lv (dec.map (·.val)) a).work
  obtain ⟨u, hu, hq, hk, _, _⟩ := deadline_frame (deadlineSeen s die lv) (dec.map (·.val))
  have hi := exec_buildDeadline s die lv dec hl hs ha
  generalize deadlineEnded (deadlineBuilt (deadlineSeen s die lv) (dec.map (·.val))) = t at hi hq hk hd
  obtain ⟨h1, h2, h3, h4, h5, h6⟩ := hq.holds
  unfold selFrame at hu
  refine goes_quiet hi hq ⟨?_, ?_, ?_, ?_, ?_, ?_, ?_, ?_, fun hb hp hn b hm => ?_⟩ (by rw [hu]; rfl) (by rw [hu]; rfl) (by rw [hu]; rfl)
  · rw [h1, hu]
    rfl
  · rw [h2, hu]
    rfl
  · rw [h3, hu]
    rfl
  · rw [h4, hu]
    rfl
  · rw [h5, hu]
    rfl
  · rw [h5, hu]
    rfl
  · rw [h6, hu]
    rfl
  · rw [hk, hu]
    rfl
  · obtain ⟨hf, hw, hR⟩ := hd hb hp hn hm
    have hs := hr 0
    rw [downAxes_same hs.par hs.warp] at hw hR
    refine ⟨hw, fun a ha => ?_⟩
    rw [kreqOf_same hf]
    exact hR a ha

end Sys2Proof.Machine

/-- Settles O39. The axis job: `axisJob_eq` splits it into its decode, its way to ENABLED, its loops and the faults, and each of them leaves
the feedback record and the marks of the job (`jobFrame`). The deadline: up to the records no axis without power changes its state and an axis on
its own whose job has run stays as it was (`Ready`), so that the turn of its branch builds its record from the state before the deadline, and
the turns of the other branches leave it. -/
theorem jobsAndDeadline : Obligations.JobsAndDeadline := by
  unfold Obligations.JobsAndDeadline
  intro s tt
  refine ⟨⟨fun a td ln h => axisJob_row s tt a td h, fun g ln h => interpolationJob_row s tt g h, fun a ln h => profileJob_row s tt a h,
    fun a => ⟨fun td h => axisJob_idle s tt a td h, fun h => profileJob_idle s tt a h⟩, fun g h => interpolationJob_idle s tt g h⟩,
    fun die lv dec hl hs ha => ?_, fun die lv dec h => buildDeadline_idle s die lv dec h⟩
  obtain ⟨t, ht, h1, h2, h3, h4, h5, h6, h7, h8, hd⟩ := buildDeadline_row s die lv dec hl hs ha
  refine ⟨t, ht, h1, h2, h3, h4, h5, h6, h7, h8, fun hb hp hn b hm => ?_⟩
  obtain ⟨hw, hR⟩ := hd hb hp hn b hm
  exact ⟨hw, fun a ha _ => ⟨(hR a ha).bare, fun q1 q2 q3 q4 q5 q6 q7 => (hR a ha).shown ⟨q1, q2, q3, q4, q5, q6, q7⟩⟩⟩
end

section
/-! What the operations on one axis leave outside it: other axes, groups but its own, and the commands in flight of every master. -/
open Sys2Proof Sys2Proof.Machine
namespace Sys2Proof.Machine

/-! ### One axis, and the path of its group -/

/-- Outside one axis and the carriers nothing has changed. -/
def axisFrame (a : Nat) (s t : State) : Prop := quiet { s with axes := t.axes } t ∧ axesBut s t a
/-- Groups other than that of one axis are as they were. -/
def pathsBut (s t : State) (a : Nat) : Prop := ∀ g, (inGroup s a = false ∨ g ≠ axGroup s a) → grpOf t g = grpOf s g
/-- Outside one axis, its group and the carriers nothing has changed. -/
def pathFrame (a : Nat) (s t : State) : Prop := quiet { s with axes := t.axes, grps := t.grps } t ∧ axesBut s t a ∧ pathsBut s t a

theorem grpOf_of_grps {s t : State} (h : t.grps = s.grps) (g : Nat) : grpOf t g = grpOf s g := by
  unfold grpOf
  rw [h]
theorem grps_of_quiet {s t : State} (h : quiet s t) : t.grps = s.grps := by
  unfold quiet at h
  rw [h]
theorem axGroup_of_par {s t : State} (h : t.par = s.par) (a : Nat) : axGroup t a = axGroup s a := pnat_of_par h _ a
theorem pathsBut_of_grps {s t : State} {a : Nat} (h : t.grps = s.grps) : pathsBut s t a := fun g _ => grpOf_of_grps h g

theorem axisFrames (a : Nat) : Frame (axisFrame a) where
  carriers h := by
    refine ⟨?_, fun k _ => axOf_of_quiet h.1 k⟩
    have hq := h.1
    unfold quiet at *
    rw [hq]
  trans := fun ⟨h, hk⟩ ⟨k, kk⟩ => by
    refine ⟨?_, hk.trans kk⟩
    unfold quiet at *
    rw [k, h]
theorem pathFrames (a : Nat) : Frame (pathFrame a) where
  carriers h := by
    refine ⟨?_, fun k _ => axOf_of_quiet h.1 k, pathsBut_of_grps (grps_of_quiet h.1)⟩
    have hq := h.1
    unfold quiet at *
    rw [hq]
  trans := fun {s t u} ⟨h, hk, hg⟩ ⟨k, kk, kg⟩ => by
    have hp : t.par = s.par := by
      unfold quiet at h
      rw [h]
    refine ⟨?_, hk.trans kk, fun g hn => (kg g ?_).trans (hg g hn)⟩
    · unfold quiet at *
      rw [k, h]
    · rw [inGroup_of_par hp, axGroup_of_par hp]
      exact hn

section
variable {a : Nat} {s t u : State}
theorem axisFrame.grps (h : axisFrame a s t) : t.grps = s.grps := by
  have hq := h.1
  unfold quiet at hq
  rw [hq]
theorem axisFrame.path (h : axisFrame a s t) : pathFrame a s t := by
  refine ⟨?_, h.2, pathsBut_of_grps h.grps⟩
  have hq := h.1
  unfold quiet at *
  rw [hq]
theorem pathFrame.clk (h : pathFrame a s t) : t.clk = s.clk := by
  have hq := h.1
  unfold quiet at hq
  rw [hq]
theorem pathFrame.par (h : pathFrame a s t) : t.par = s.par := by
  have hq := h.1
  unfold quiet at hq
  rw [hq]
/-- What an operation leaves outside its axis it leaves also where carriers alone change before and behind it. -/
theorem axisFrame.along (h : axisFrame a s t) (hs : quiet u s) {v : State} (hv : quiet t v) : axisFrame a u v := by
  refine ⟨?_, fun k hk => by rw [axOf_of_quiet hv, h.2 k hk, axOf_of_quiet hs]⟩
  have hq := h.1
  unfold quiet at *
  rw [hv, hq, hs]
theorem pathFrame.behind (h : pathFrame a s t) (hv : quiet t u) : pathFrame a s u := by
  refine ⟨?_, fun k hk => by rw [axOf_of_quiet hv, h.2.1 k hk], fun g hg => by rw [grpOf_of_grps (grps_of_quiet hv), h.2.2 g hg]⟩
  have hq := h.1
  unfold quiet at *
  rw [hv, hq]
theorem axisFrame_modAx (s : State) (a : Nat) (f : Axis → Axis) : axisFrame a s (modAx s a f) := ⟨rfl, (axLocal_modAx s a f).2⟩
end

/-! ### Commands in flight (R363) -/

/-- No command in flight waits for an output override to start or for an axis to enter ENABLED. -/
def nothingDue (s : State) : Prop := ∀ k < 12, ∀ f ∈ (mbOf s k).flights, ∀ a, f.wait ≠ some (.override a) ∧ f.wait ≠ some (.enable a)
/-- Where nothing is due, the commands in flight stay as they are. -/
def flightsKept (s t : State) : Prop := nothingDue s → ∀ k, (mbOf t k).flights = (mbOf s k).flights

theorem flightsSteps : Steps flightsKept where
  refl _ := fun _ _ => rfl
  trans h k hs j := (k (fun i hi f hf => hs i hi f (by rwa [← h hs i])) j).trans (h hs j)
theorem flightsKept_of_mbs {s t : State} (h : t.mbs = s.mbs) : flightsKept s t := fun _ k => by
  unfold mbOf
  rw [h]
theorem flights_mbEvent (m : Nat) (e : Ev) (mb : Mb) : (mbEvent m e mb).flights = mb.flights := by
  unfold mbEvent
  split
  · rfl
  · split
    · rfl
    · dsimp only
      split <;> rfl
theorem flights_tabMod {t : Tab Mb} {m : Nat} {f : Mb → Mb} (h : ∀ x, (f x).flights = x.flights) (k : Nat) :
    (tabGet {} (tabMod {} t m f) k).flights = (tabGet {} t k).flights := by
  by_cases hk : k = m
  · rw [hk, tabGet_tabMod_same, h]
  · rw [tabGet_tabMod_other _ _ _ hk]
/-- An event becomes pending for masters; their commands in flight stay. -/
theorem flightsKept_raise (s : State) (c i : Nat) (pl : Bytes) : flightsKept s (raise s c i pl) := fun _ k => by
  show (tabGet {} (mbsEvent s _) k).flights = _
  unfold mbsEvent mbOf
  generalize s.mbs = t
  induction List.range 12 generalizing t with
  | nil => rfl
  | cons m ms ih =>
    rw [List.foldl_cons, ih]
    split
    · exact flights_tabMod (flights_mbEvent m _) k
    · rfl
/-- Commands that wait for an output override or for ENABLED end where one waits. -/
theorem flightsKept_completeWaits (s : State) {p : Wait → Bool} (hp : ∀ w, p w = true → ∃ a, w = .override a ∨ w = .enable a) (st : Nat) (pl : Bytes) :
    flightsKept s (completeWaits s p st pl) := fun hs k => by
  rw [completeWaits, forEach_id]
  intro m hm
  refine forEach_id fun f hf => ?_
  obtain ⟨hf, hw⟩ := List.mem_filter.mp hf
  have hd := hs m (List.mem_range.mp hm) f hf
  split at hw
  next w hfw =>
    obtain ⟨b, rfl | rfl⟩ := hp w hw
    · exact absurd hfw (hd b).1
    · exact absurd hfw (hd b).2
  next => cases hw

/-! ### Operations on one axis (R205, R208, R238, R289, R318, R395) -/

/-- An operation on one axis: nothing outside it changes, and no command in flight. -/
def axisTurn (a : Nat) (s t : State) : Prop := axisFrame a s t ∧ flightsKept s t
/-- An operation on one axis that its group's path may follow. -/
def pathTurn (a : Nat) (s t : State) : Prop := pathFrame a s t ∧ flightsKept s t
theorem axisTurns (a : Nat) : Steps (axisTurn a) :=
  ⟨fun s => ⟨(axisFrames a).refl s, flightsSteps.refl s⟩, fun h k => ⟨(axisFrames a).trans h.1 k.1, flightsSteps.trans h.2 k.2⟩⟩
theorem pathTurns (a : Nat) : Steps (pathTurn a) :=
  ⟨fun s => ⟨(pathFrames a).refl s, flightsSteps.refl s⟩, fun h k => ⟨(pathFrames a).trans h.1 k.1, flightsSteps.trans h.2 k.2⟩⟩
theorem axisTurn.path {a : Nat} {s t : State} (h : axisTurn a s t) : pathTurn a s t := ⟨h.1.path, h.2⟩

section
variable (s : State) (a : Nat)
theorem axisTurn_modAx (f : Axis → Axis) : axisTurn a s (modAx s a f) := ⟨axisFrame_modAx s a f, flightsKept_of_mbs rfl⟩
theorem axisTurn_raise (c i : Nat) (pl : Bytes) : axisTurn a s (raise s c i pl) := ⟨(axisFrames a).event s c i pl, flightsKept_raise s c i pl⟩
theorem axisTurn_sendItem (b : ItemBody) : axisTurn a s (sendItem s b) := ⟨(axisFrames a).item s b, flightsKept_of_mbs rfl⟩
theorem axisTurn_axItem : axisTurn a s (axItem s a) := axisTurn_sendItem s a _
theorem axisTurn_overrideEnds (b st : Nat) (pl : Bytes) : axisTurn a s (completeWaits s (fun w => w = .override b) st pl) :=
  ⟨(axisFrames a).waits s _ _ _, flightsKept_completeWaits s (fun _ h => ⟨b, .inl (of_decide_eq_true h)⟩) st pl⟩
theorem axisTurn_enableEnds (b st : Nat) (pl : Bytes) : axisTurn a s (completeWaits s (fun w => w = .enable b) st pl) :=
  ⟨(axisFrames a).waits s _ _ _, flightsKept_completeWaits s (fun _ h => ⟨b, .inr (of_decide_eq_true h)⟩) st pl⟩
theorem axisTurn_boostStart : axisTurn a s (boostStart s a) := by
  unfold boostStart
  simp only []
  split
  · exact axisTurn_modAx s a _
  · exact (axisTurns a).trans ((axisTurns a).trans (axisTurn_modAx s a _) (axisTurn_modAx _ a _)) (axisTurn_raise _ a _ _ _)
theorem axisTurn_enableReset : axisTurn a s (enableReset s a) :=
  (axisTurns a).trans ((axisTurns a).trans (axisTurn_modAx s a _) (axisTurn_modAx _ a _)) (axisTurn_boostStart _ a)
theorem axisTurn_ovrStop (on : Bool) : axisTurn a s (ovrStop s a on) := by
  unfold ovrStop
  split
  · exact (axisTurns a).refl s
  · exact (axisTurns a).trans ((axisTurns a).trans (axisTurn_modAx s a _) (axisTurn_overrideEnds _ a a _ _))
      ((axisTurns a).ite (axisTurn_enableReset _ a) (axisTurn_modAx _ a _))
theorem axisTurn_setSt (st : AxSt) : axisTurn a s (setSt s a st) := by
  unfold setSt
  split
  · exact (axisTurns a).refl s
  · exact (axisTurns a).trans ((axisTurns a).trans (axisTurn_modAx s a _) (axisTurn_ovrStop _ a _)) (axisTurn_axItem _ a)
theorem axisTurn_queueDrop : axisTurn a s (queueDrop s a) := by
  unfold queueDrop
  simp only []
  split
  · exact (axisTurns a).refl s
  · exact (axisTurns a).trans ((axisTurns a).trans (axisTurn_modAx s a _) (axisTurn_raise _ a _ _ _)) (axisTurn_sendItem _ a _)
theorem axisTurn_modHm (f : AxHome → AxHome) : axisTurn a s (modHm s a f) :=
  (axisTurns a).trans (axisTurn_modAx s a _) ((axisTurns a).cond _ (fun t => axisTurn_sendItem t a _) _)
theorem axisTurn_homeEnd (r : Nat) : axisTurn a s (homeEnd s a r) := by
  unfold homeEnd
  simp only []
  split
  · exact (axisTurns a).refl s
  · exact (axisTurns a).trans (axisTurn_modHm s a _) (axisTurn_raise _ a _ _ _)

/-! ### The path of the group (R291, R297) -/

theorem axes_grpDrop (g : Nat) : (grpDrop s g).axes = s.axes := by
  unfold grpDrop
  simp only []
  split <;> rfl
theorem axes_grpLeave : (grpLeave s a).axes = s.axes := by
  unfold grpLeave when
  split
  · simp only []
    split
    · exact axes_grpDrop s _
    · exact axes_grpDrop s _
  · rfl
/-- A change of the group of a member is on its path. -/
theorem pathTurn_modGrp (h : inGroup s a = true) (f : Grp → Grp) : pathTurn a s (modGrp s (axGroup s a) f) := by
  refine ⟨⟨rfl, fun _ _ => rfl, fun g hg => grpOf_modGrp_other s f ?_⟩, flightsKept_of_mbs rfl⟩
  rw [h] at hg
  exact hg.resolve_left (by decide)
theorem pathTurn_grpDrop (h : inGroup s a = true) : pathTurn a s (grpDrop s (axGroup s a)) := by
  unfold grpDrop
  simp only []
  split
  · exact (pathTurns a).refl s
  · exact (pathTurns a).trans ((pathTurns a).trans (pathTurn_modGrp s a h _) (axisTurn_sendItem _ a _).path) (axisTurn_raise _ a _ _ _).path
theorem pathTurn_grpLeave : pathTurn a s (grpLeave s a) := by
  unfold grpLeave
  split
  next h =>
    have hd := pathTurn_grpDrop s a h
    have hm := pathTurn_modGrp (grpDrop s (axGroup s a)) a (by rw [inGroup_of_par hd.1.par, h])
    rw [axGroup_of_par hd.1.par] at hm
    unfold when
    simp only []
    split
    · exact (pathTurns a).trans ((pathTurns a).trans hd (hm _)) (axisTurn_sendItem _ a _).path
    · exact hd
  next => exact (pathTurns a).refl s
theorem pathTurn_profIdle : pathTurn a s (profIdle s a) :=
  (pathTurns a).trans ((pathTurns a).trans (axisTurn_queueDrop s a).path (pathTurn_grpLeave _ a)) (axisTurn_modAx _ a _).path
end

end Sys2Proof.Machine
end

section
/-! What the operations on one axis leave of its record: references and outputs set back, a changed state, an empty queue, homing over. -/
open Sys2Proof Sys2Proof.Machine
namespace Sys2Proof.Machine

section
variable (s : State) (a : Nat)

/-! ### Loops and profile set back (R208, R228, R238, R395) -/

/-- An axis whose outputs and integrators are at 0 and whose profile stands at its position (R208). -/
def loopAtRest (x : Axis) : Axis :=
  { x with lp := loopZero x.lp,
           prof := { x.prof with posRef := x.fb.pos, vRef := 0, aRef := 0, q := 2 * x.fb.pos, v := 0, live := true, limStop := false } }
theorem axOf_loopReset : axOf (loopReset s a) a = loopAtRest (axOf s a) := axOf_modAx s a loopAtRest
theorem axOf_modMd (f : AxMod → AxMod) : axOf (modMd s a f) a = { axOf s a with md := f (axOf s a).md } := axOf_modAx s a fun x => { x with md := f x.md }
theorem axOf_boostStart : axOf (boostStart s a) a =
    { axOf s a with md := { (axOf s a).md with boost := some (ps s) }, cnt := (axOf (boostStart s a) a).cnt } := by
  have hm := axOf_modMd s a fun m => { m with boost := some (ps s) }
  unfold boostStart
  simp only []
  split
  · rw [hm]
  · have hr (t : State) : axOf (raise t 0x7108 a []) a = axOf t a := rfl
    rw [hr, modCnt, axOf_modAx, hm]
theorem axOf_enableReset : axOf (enableReset s a) a =
    { loopAtRest (axOf s a) with md := { (axOf s a).md with cA := nEff s a, cB := nEff s a, cC := nEff s a, boost := some (ps s) },
                                 cnt := (axOf (enableReset s a) a).cnt } := by
  unfold enableReset
  rw [axOf_boostStart, axOf_modMd, axOf_loopReset]
  rfl
theorem axOf_overrideEnds (b st : Nat) (pl : Bytes) (k : Nat) : axOf (completeWaits s (fun w => w = .override b) st pl) k = axOf s k :=
  axOf_of_quiet (quiet_completeWaits s _ st pl) k
/-- The end of an override without outputs that stay on leaves the axis, or sets its loops back (R395). -/
theorem axOf_ovrStop_off : axOf (ovrStop s a false) a = axOf s a ∨
    axOf (ovrStop s a false) a = loopAtRest { axOf s a with md := { (axOf s a).md with ovr := none } } := by
  unfold ovrStop
  split
  · exact .inl rfl
  · refine .inr ?_
    rw [if_neg (by decide), axOf_loopReset, axOf_overrideEnds, axOf_modMd]
theorem hm_ovrStop (on : Bool) : (axOf (ovrStop s a on) a).hm = (axOf s a).hm := by
  unfold ovrStop
  split
  · rfl
  · simp only []
    split
    · rw [axOf_enableReset, axOf_overrideEnds, axOf_modMd]
      rfl
    · rw [axOf_loopReset, axOf_overrideEnds, axOf_modMd]
      rfl

/-! ### A change of state (R205, R207) -/

theorem sm_setSt {st : AxSt} (h : (axOf s a).sm.st ≠ st) : (axOf (setSt s a st) a).sm = onceAdd 0x610E { (axOf s a).sm with st := st, changed := true } := by
  have hi (t : State) (on : Bool) : (axOf (axItem (ovrStop t a on) a) a).sm = (axOf t a).sm :=
    (idleFrames.trans (idleFrame_ovrStop t a on) (idleFrames.item _ _)).sm a
  rw [setSt, if_neg h, hi, sm_modSm]
theorem onceAdd_commands (c : Nat) (m : AxSm) : (onceAdd c m).disCmd = m.disCmd ∧ (onceAdd c m).changed = m.changed := by
  unfold onceAdd
  split <;> exact ⟨rfl, rfl⟩
theorem fb_setSt (st : AxSt) : (axOf (setSt s a st) a).fb = (axOf s a).fb := (jobFrame_setSt s a st).fb a

/-! ### Queue, profile and homing (R289, R291, R318) -/

theorem axOf_modProf (f : AxProf → AxProf) : axOf (modProf s a f) a = { axOf s a with prof := f (axOf s a).prof } := axOf_modAx s a fun x => { x with prof := f x.prof }
theorem axOf_sendItem (b : ItemBody) (k : Nat) : axOf (sendItem s b) k = axOf s k := rfl
theorem axOf_raise (c i : Nat) (pl : Bytes) (k : Nat) : axOf (raise s c i pl) k = axOf s k := rfl
theorem queue_queueDrop : (axOf (queueDrop s a) a).prof.queue = [] := by
  unfold queueDrop
  simp only []
  split
  next h => exact h
  next => rw [axOf_sendItem, axOf_raise, axOf_modProf]
theorem hm_queueDrop : (axOf (queueDrop s a) a).hm = (axOf s a).hm := by
  unfold queueDrop
  simp only []
  split
  · rfl
  · rw [axOf_sendItem, axOf_raise, axOf_modProf]
theorem axOf_profIdle : axOf (profIdle s a) a = { axOf (queueDrop s a) a with
    prof := { (axOf (queueDrop s a) a).prof with live := false, limStop := false, vRef := 0, aRef := 0, v := 0 } } := by
  unfold profIdle modProf
  rw [axOf_modAx, axOf_of_axes (axes_grpLeave _ a)]
theorem axOf_modHm (f : AxHome → AxHome) : axOf (modHm s a f) a = { axOf s a with hm := f (axOf s a).hm } := by
  unfold modHm
  refine Eq.trans ?_ (axOf_modAx s a fun x => { x with hm := f x.hm })
  unfold when
  simp only []
  split <;> rfl
theorem phase_homeEnd (r : Nat) : (axOf (homeEnd s a r) a).hm.phase = 0 := by
  unfold homeEnd
  simp only []
  split
  next h => exact h
  next => rw [axOf_raise, axOf_modHm]

/-! ### DISABLED (R205) -/

/-- The references, the homing and the state with which an axis enters DISABLED, before its decode is set back. -/
def disabledIdle : State := profIdle (homeAbort (setSt s a .disabled) a) a
theorem senses_disabledIdle : senses (axOf (disabledIdle s a) a) = senses (axOf (setSt s a .disabled) a) :=
  (idleFrames.trans (idleFrame_homeEnd (setSt s a .disabled) a _) (idleFrame_profIdle _ a)).2 a
/-- What stands of an axis in DISABLED. -/
structure DisabledAxis (x y : Axis) : Prop where
  st : y.sm.st = .disabled
  disCmd : y.sm.disCmd = x.sm.disCmd
  fcode : y.sm.fcode = x.sm.fcode
  queue : y.prof.queue = []
  live : y.prof.live = false
  homing : y.hm.phase = 0
  pos : y.fb.pos = x.fb.pos
/-- An axis in DISABLED whose first decode takes a baseline unless a command holds it (R250). -/
def decodeBack (x : Axis) : Axis :=
  { x with sm := { x.sm with enaDue := false, react := 0 }, fb := { x.fb with valid := x.fb.valid && x.sm.disCmd, rebase := false } }
theorem axOf_enterDisabled : axOf (enterDisabled s a) a = decodeBack (axOf (disabledIdle s a) a) := by
  unfold enterDisabled axItem
  extract_lets s1 s2 s3
  have h1 : s1 = disabledIdle s a := rfl
  have h2 : axOf s2 a = decodeBack (axOf s1 a) := axOf_modAx s1 a decodeBack
  rw [axOf_sendItem, axOf_of_quiet (quiet_completeWaits s2 _ _ _), h2, h1]
variable {s a} in
theorem disabledAxis_enterDisabled (h : (axOf s a).sm.st ≠ .disabled) : DisabledAxis (axOf s a) (axOf (enterDisabled s a) a) := by
  obtain ⟨hsm, hfb⟩ := Prod.mk.inj (senses_disabledIdle s a)
  obtain ⟨hst, -, hcode⟩ := setSt_sets s a .disabled
  have hp := axOf_profIdle (homeAbort (setSt s a .disabled) a) a
  rw [axOf_enterDisabled]
  refine ⟨?_, ?_, ?_, ?_, ?_, ?_, ?_⟩ <;> dsimp only [decodeBack]
  · rw [hsm, hst]
  · rw [hsm, sm_setSt s a h, (onceAdd_commands _ _).1]
  · rw [hsm, hcode]
  · rw [disabledIdle, hp]
    exact queue_queueDrop _ a
  · rw [disabledIdle, hp]
  · rw [disabledIdle, hp]
    dsimp only
    rw [hm_queueDrop]
    exact phase_homeEnd _ a _
  · rw [hfb, fb_setSt]
theorem pathTurn_disabledIdle : pathTurn a s (disabledIdle s a) :=
  (pathTurns a).trans ((axisTurns a).trans (axisTurn_setSt s a .disabled) (axisTurn_homeEnd _ a _)).path (pathTurn_profIdle _ a)
theorem pathTurn_enterDisabled : pathTurn a s (enterDisabled s a) := by
  unfold enterDisabled
  extract_lets s1 s2
  have h1 : pathTurn a s s1 := pathTurn_disabledIdle s a
  have h2 : axisTurn a s1 s2 := axisTurn_modAx s1 a _
  clear_value s2
  exact (pathTurns a).trans h1 ((axisTurns a).trans ((axisTurns a).trans h2 (axisTurn_enableEnds s2 a a _ _)) (axisTurn_axItem _ a)).path
end

end Sys2Proof.Machine
end

section
/-! The axis commands (R205, R207, R394): each waits for the end of its pick, and where it is the only command in flight the end of the pick is its
effect and its answer. -/
open Sys2Proof Sys2Proof.Machine
namespace Sys2Proof.Machine

/-! ### The row of an axis command -/

section
variable {s : State} {m a : Nat} (ha : a < 128)
include ha
theorem word_axis : word (le 4 a) 0 = a := word_le4 a (by omega)
/-- A command with the number of an axis alone passes its checks where its master has the rights. -/
theorem checked_axis {rights : Nat} (hr : hasRights s m (axTarget a) rights = true) (r : State × CmdRes) : checked s (axisChecks s m (le 4 a) 4 0x7F rights) r = r := by
  have hw : onlyBits 0x7F a = true := onlyBits_low 7 a ha
  simp [checked, firstFail, axisChecks, word_axis ha, Nat.mod_eq_of_lt ha, hw, hr]
variable (hr : hasRights s m (axTarget a) rMOVE = true)
include hr
theorem axisEnableRun_eq : axisEnableRun s m (le 4 a) = (s, .wait (.axis 0x0601 a)) := by
  rw [axisEnableRun, checked_axis ha hr, word_axis ha, Nat.mod_eq_of_lt ha]
theorem axisDisableRun_eq : axisDisableRun s m (le 4 a) = (s, .wait (.axis 0x0602 a)) := by
  rw [axisDisableRun, checked_axis ha hr, word_axis ha, Nat.mod_eq_of_lt ha]
theorem faultResetRun_eq : faultResetRun s m (le 4 a) = (s, .wait (.axis 0x0603 a)) := by
  rw [faultResetRun, checked_axis ha hr, word_axis ha, Nat.mod_eq_of_lt ha]
end

/-- A command that has no effect before what it waits for leaves everything outside the carriers. -/
theorem completesLater_idle {i : Instr} {s : State} {e : CmdEntry} {op : Nat} {body : State → Nat → Bytes → State × CmdRes} {w : Wait}
    (hi : exec i s = finishD s (command s e op body)) (h : takesNow s e = true) (hb : body (taken s e op) e.master e.payload = (taken s e op, .wait w))
    (hop : opcodes.contains op = true := by decide) : completesLater i s e w (quiet s) :=
  completesLater_quiet hi h hb rfl (quiet_taken s e op) (fun _ ht => (quiet_taken s e op).trans ht) (hop := hop)

section
variable {s : State} {e : CmdEntry} {a : Nat} (h : takesNow s e = true) (hpl : e.payload = le 4 a) (ha : a < 128)
  (hr : hasRights s e.master (axTarget a) rMOVE = true)
include h hpl ha hr
theorem axisEnable_waits : completesLater (.axisEnable e) s e (.axis 0x0601 a) (quiet s) :=
  completesLater_idle rfl h (by rw [hpl]; exact axisEnableRun_eq ha (by simpa using hr))
theorem axisDisable_waits : completesLater (.axisDisable e) s e (.axis 0x0602 a) (quiet s) :=
  completesLater_idle rfl h (by rw [hpl]; exact axisDisableRun_eq ha (by simpa using hr))
theorem faultReset_waits : completesLater (.faultReset e) s e (.axis 0x0603 a) (quiet s) :=
  completesLater_idle rfl h (by rw [hpl]; exact faultResetRun_eq ha (by simpa using hr))
end

/-! ### What an axis command does at the end of its pick -/

section
variable (s : State) (a : Nat)
/-- An axis that an enable command brings from READY to ENABLED (R205, R208). -/
def enabledNow : State := modMd (setSt (enableReset s a) a .enabled) a (fun q => { q with body := .none })
theorem axisTurn_enabledNow : axisTurn a s (enabledNow s a) :=
  (axisTurns a).trans ((axisTurns a).trans (axisTurn_enableReset s a) (axisTurn_setSt _ a _)) (axisTurn_modAx _ a _)
/-- An axis that an enable command releases from DISABLED: its next decode takes a baseline (R205, R250). -/
def enableReleased (x : Axis) : Axis := { x with sm := { x.sm with disCmd := false, enaDue := true }, fb := { x.fb with valid := false, rebase := false } }
theorem axisTurn_released : axisTurn a s (axItem (modAx s a enableReleased) a) := (axisTurns a).trans (axisTurn_modAx s a _) (axisTurn_axItem _ a)
/-- An axis that a disable command brings to DISABLED. -/
def disabledNow : State := enterDisabled (modSm s a (fun q => { q with disCmd := true })) a
theorem pathTurn_disabledNow : pathTurn a s (disabledNow s a) := (pathTurns a).trans (axisTurn_modAx s a _).path (pathTurn_enterDisabled _ a)
/-- An axis whose fault code is cleared, with what its cause asks for beside (R550). -/
def codeCleared : State :=
  resetMore (modSm s a (fun q => { q with fcode := 0, react := if q.st = .fault then 0 else q.react })) a (axOf s a).sm.fcode
theorem axisTurn_resetMore (code : Nat) : axisTurn a s (resetMore s a code) := by
  unfold resetMore
  exact (axisTurns a).ite (axisTurn_modAx s a _) ((axisTurns a).ite (axisTurn_modAx s a _) ((axisTurns a).refl s))
theorem axisTurn_codeCleared : axisTurn a s (codeCleared s a) := (axisTurns a).trans (axisTurn_modAx s a _) (axisTurn_resetMore _ a _)
/-- An axis whose fault a reset command ends: READY behind FAULT (R205). -/
def faultCleared : State := axItem (if (axOf s a).sm.st = .fault then profIdle (setSt (codeCleared s a) a .ready) a else codeCleared s a) a
theorem pathTurn_faultCleared : pathTurn a s (faultCleared s a) := by
  have hc := axisTurn_codeCleared s a
  refine (pathTurns a).trans ((pathTurns a).ite ?_ hc.path) (axisTurn_axItem _ a).path
  exact (pathTurns a).trans ((axisTurns a).trans hc (axisTurn_setSt _ a _)).path (pathTurn_profIdle _ a)

variable {s a}
theorem axisEnableEnd_changed (h : (axOf s a).sm.changed = true) : axisEnableEnd s a = (s, .fin 0x6001 []) := by
  unfold axisEnableEnd
  simp only [h, if_true]
theorem axisEnableEnd_ready (hc : (axOf s a).sm.changed = false) (hw : wrOpen s a = false) (hs : (axOf s a).sm.st = .ready) (he : enaCond s a = true) :
    axisEnableEnd s a = (enabledNow s a, .fin 0 []) := by
  unfold axisEnableEnd
  simp only [hc, hs, he, hw, if_true, Bool.false_eq_true, if_false]
  rfl
theorem axisEnableEnd_disabled (hc : (axOf s a).sm.changed = false) (hw : wrOpen s a = false) (hs : (axOf s a).sm.st = .disabled) (hd : (axOf s a).sm.disCmd = true)
    (hp : placed s a = true) (hi : (ndOf s (axNode s a)).integrated = true) (he : axClass s a = 4 ∨ enaCond s a = true) :
    axisEnableEnd s a = (axItem (modAx s a enableReleased) a, .wait (.enable a)) := by
  unfold axisEnableEnd
  simp only [hc, hs, hd, hp, hi, he, hw, and_self, if_true, Bool.false_eq_true, if_false]
  rfl
theorem axisDisableEnd_changed (h : (axOf s a).sm.changed = true) : axisDisableEnd s a = (s, .fin 0x6001 []) := by
  unfold axisDisableEnd
  simp only [h, Bool.true_eq_false, false_and, if_false]
theorem axisDisableEnd_takes (hc : (axOf s a).sm.changed = false) (hs : (axOf s a).sm.st ∈ [AxSt.ready, .enabled, .fault, .safeOff]) :
    axisDisableEnd s a = (disabledNow s a, .fin 0 []) := by
  unfold axisDisableEnd
  simp only [List.mem_cons, List.not_mem_nil, or_false] at hs
  rcases hs with h | h | h | h <;> simp only [hc, h, and_self, if_true] <;> rfl
theorem faultResetEnd_changed (h : (axOf s a).sm.changed = true) : faultResetEnd s a = (s, .fin 0x6001 []) := by
  unfold faultResetEnd
  simp only [h, Bool.true_eq_false, false_and, if_false]
/-- A fault that a reset command takes away: OFF in FAULT, or a code that stands beside DISABLED or READY (R205). -/
def resettable (m : AxSm) : Prop := (m.st = .fault ∧ m.react = 2) ∨ (m.st = .disabled ∧ m.fcode ≠ 0) ∨ (m.st = .ready ∧ m.fcode ≠ 0)
theorem faultResetEnd_takes (hc : (axOf s a).sm.changed = false) (hg : causeGone s a (axOf s a).sm.fcode = true) (hs : resettable (axOf s a).sm) :
    faultResetEnd s a = (faultCleared s a, .fin 0 []) := by
  unfold faultResetEnd
  rcases hs with ⟨h, hr⟩ | ⟨h, hr⟩ | ⟨h, hr⟩ <;> simp [hc, hg, h, hr, faultCleared, codeCleared]
end

section
variable (s : State) (a : Nat)
theorem pathTurn_axisEnableEnd : pathTurn a s (axisEnableEnd s a).1 := by
  unfold axisEnableEnd
  simp only []
  split
  · exact (pathTurns a).refl s
  · split
    · split
      · split
        · exact (pathTurns a).refl s
        · exact (axisTurn_released s a).path
      · exact (pathTurns a).refl s
    · split
      · split
        · exact (pathTurns a).refl s
        · exact (axisTurn_enabledNow s a).path
      · exact (pathTurns a).refl s
    · exact (pathTurns a).refl s
theorem pathTurn_axisDisableEnd : pathTurn a s (axisDisableEnd s a).1 := by
  unfold axisDisableEnd
  extract_lets x ok
  by_cases h : x.sm.changed = false ∧ ok = true
  · rw [if_pos h]
    exact pathTurn_disabledNow s a
  · rw [if_neg h]
    exact (pathTurns a).refl s
theorem pathTurn_faultResetEnd : pathTurn a s (faultResetEnd s a).1 := by
  unfold faultResetEnd
  extract_lets x code ok s1
  split
  · exact pathTurn_faultCleared s a
  · exact (pathTurns a).refl s
theorem pathTurn_axisCmdEnd (op : Nat) : pathTurn a s (axisCmdEnd op a s).1 := by
  unfold axisCmdEnd
  split
  · exact pathTurn_axisEnableEnd s a
  · split
    · exact pathTurn_axisDisableEnd s a
    · exact pathTurn_faultResetEnd s a
end

/-! ### The end of the pick for one command (R207) -/

section
variable {s : State} {m op a : Nat} {f : Flight} (h : actsAtEnd s m op a f)
theorem mbOf_settle_other {j k : Nat} (hk : k ≠ j) (g : Flight) (n : BitVec 32) (r : State × CmdRes) : mbOf (settle j g n r) k = mbOf r.1 k := by
  unfold settle
  split
  · exact mbOf_produce_other _ _ _ _ hk
  · unfold when
    simp only []
    split
    · exact mbOf_modMb_other r.1 _ hk
    · exact mbOf_modMb_other r.1 _ hk
theorem flights_settle_wait {u : State} {j : Nat} {g : Flight} (hu : (mbOf u j).flights = [g]) (n : BitVec 32) (w : Wait) :
    (mbOf (settle j g n (u, .wait w)) j).flights = [{ g with wait := some w }] := by
  have hm : mbOf (settle j g n (u, .wait w)) j = mbOf (modMb u j (flightWait g.entry w)) j := by
    unfold settle when
    simp only []
    split <;> rfl
  rw [hm, mbOf_modMb]
  simp [flightWait, hu]

include h
theorem nothingDue_of_actsAtEnd : nothingDue s := by
  obtain ⟨-, hf, hw, ho⟩ := h
  intro k hk g hg b
  by_cases hkm : k = m
  · rw [hkm, hf, List.mem_singleton] at hg
    rw [hg, hw]
    exact ⟨by simp, by simp⟩
  · rw [ho k hk hkm] at hg
    cases hg
/-- Where one command waits to act on an axis, the end of the pick is its effect and its answer. -/
theorem axisCmds_only : axisCmds s = settle m f s.pair.iseqSent (axisCmdEnd op a s) := by
  have hk := (pathTurn_axisCmdEnd s a op).2 (nothingDue_of_actsAtEnd h)
  obtain ⟨hm, hf, hw, ho⟩ := h
  have hx : axisWait f = some (op, a) := by
    unfold axisWait
    rw [hw]
  refine forEach_only List.nodup_range (List.mem_range.mpr hm) ?_ (fun k hr hkm => ?_) (fun k hr hkm => ?_)
  · simp only [hf, List.filter_cons, hx, Option.isSome_some, if_true, List.filter_nil]
    simp only [forEach, List.foldl_cons, List.foldl_nil, hx]
  · simp only [ho k (List.mem_range.mp hr) hkm]
    rfl
  · simp only [mbOf_settle_other hkm, hk k, ho k (List.mem_range.mp hr) hkm]
    rfl

/-- What a command that ends with the pick leaves: its completion, and its effect. -/
structure EndsAs (s : State) (m : Nat) (f : Flight) (u : State) (st : Nat) (t : State) : Prop where
  cpl : ended s t m f st
  effect : quiet u t
theorem axisCmds_fin {u : State} {st : Nat} (hr : axisCmdEnd op a s = (u, .fin st [])) : EndsAs s m f u st (axisCmds s) := by
  have hp : ps u = ps s := by
    have hc := (pathTurn_axisCmdEnd s a op).1.clk
    rw [hr] at hc
    exact congrArg Clk.pstamp hc
  rw [axisCmds_only h, hr]
  refine ⟨?_, quiet_settle m f _ (u, .fin st [])⟩
  unfold ended
  have hj := journal_produce u m f st []
  unfold cplMake at *
  rw [← hp]
  exact hj
theorem axisCmds_wait {u : State} {w : Wait} (hr : axisCmdEnd op a s = (u, .wait w)) :
    (mbOf (axisCmds s) m).flights.any (fun g => g.entry == f.entry && g.wait == some w) = true ∧ quiet u (axisCmds s) := by
  have hu := (pathTurn_axisCmdEnd s a op).2 (nothingDue_of_actsAtEnd h) m
  rw [hr, h.2.1] at hu
  rw [axisCmds_only h, hr]
  refine ⟨?_, quiet_settle m f _ (u, .wait w)⟩
  rw [flights_settle_wait hu]
  simp
end

end Sys2Proof.Machine
end

section
/-! What an enable, a disable and a fault reset command leave of their axis at the end of its pick (R205, R208, R228, R238, R550). -/
open Sys2Proof Sys2Proof.Machine
namespace Sys2Proof.Machine

/-! ### ENABLED (R205, R208) -/

section
variable {s : State} {a : Nat}
/-- A change of state to one without outputs in motion leaves references and outputs, or sets them back where an override ends (R395). -/
theorem axOf_setSt_off {st : AxSt} (h : (axOf s a).sm.st ≠ st) (hm : st ≠ .moving) (hh : st ≠ .hold) :
    let y := { axOf s a with sm := onceAdd 0x610E { (axOf s a).sm with st := st, changed := true } }
    axOf (setSt s a st) a = y ∨ axOf (setSt s a st) a = loopAtRest { y with md := { y.md with ovr := none } } := by
  intro y
  have hy : axOf (modSm s a (fun m => onceAdd 0x610E { m with st := st, changed := true })) a = y := axOf_modAx s a _
  have ho := axOf_ovrStop_off (modSm s a (fun m => onceAdd 0x610E { m with st := st, changed := true })) a
  rw [hy] at ho
  rw [setSt, if_neg h, axItem, axOf_sendItem]
  simpa [hm, hh] using ho

/-- What stands of an axis that has entered ENABLED with the kindling counts at `n` and a boost from the pick `p` on. -/
structure EnabledAxis (x : Axis) (n : Nat) (p : BitVec 32) (y : Axis) : Prop where
  st : y.sm.st = .enabled
  changed : y.sm.changed = true
  fb : y.fb = x.fb
  posRef : y.prof.posRef = x.fb.pos
  vRef : y.prof.vRef = 0
  q : y.prof.q = 2 * x.fb.pos
  queue : y.prof.queue = x.prof.queue
  iqRef : y.lp.iqRef = 0
  cA : y.md.cA = n
  cB : y.md.cB = n
  cC : y.md.cC = n
  boost : y.md.boost = some p
theorem enabledAxis_enabledNow (h : (axOf s a).sm.st = .ready) : EnabledAxis (axOf s a) (nEff s a) (ps s) (axOf (enabledNow s a) a) := by
  have hr := axOf_enableReset s a
  have hst : (axOf (enableReset s a) a).sm.st ≠ .enabled := by
    rw [(idleFrame_enableReset s a).sm a, h]
    decide
  obtain ⟨honce, -⟩ := onceAdd_keeps 0x610E { (axOf (enableReset s a) a).sm with st := .enabled, changed := true }
  obtain ⟨-, hchanged⟩ := onceAdd_commands 0x610E { (axOf (enableReset s a) a).sm with st := .enabled, changed := true }
  rw [enabledNow, axOf_modMd]
  rcases axOf_setSt_off hst (by decide) (by decide) with hy | hy <;> rw [hy]
  · refine ⟨honce, hchanged, ?_, ?_, ?_, ?_, ?_, ?_, ?_, ?_, ?_, ?_⟩ <;> dsimp only <;> rw [hr] <;> rfl
  · refine ⟨honce, hchanged, ?_, ?_, rfl, ?_, ?_, rfl, ?_, ?_, ?_, ?_⟩ <;> dsimp only [loopAtRest] <;> rw [hr] <;> rfl

/-! ### DISABLED and the end of a fault (R205, R550) -/

theorem disabledAxis_disabledNow (h : (axOf s a).sm.st ≠ .disabled) :
    DisabledAxis { axOf s a with sm := { (axOf s a).sm with disCmd := true } } (axOf (disabledNow s a) a) := by
  have hm : axOf (modSm s a (fun q => { q with disCmd := true })) a = { axOf s a with sm := { (axOf s a).sm with disCmd := true } } := axOf_modAx s a _
  have hd := disabledAxis_enterDisabled (s := modSm s a (fun q => { q with disCmd := true })) (a := a) (by rw [hm]; exact h)
  rwa [hm] at hd

theorem resetMore_keeps (s : State) (a code : Nat) : (axOf (resetMore s a code) a).sm = (axOf s a).sm ∧ (axOf (resetMore s a code) a).fb.pos = (axOf s a).fb.pos := by
  unfold resetMore
  split
  · rw [axOf_modMd]
    exact ⟨rfl, rfl⟩
  · split
    · rw [modFb, axOf_modAx]
      exact ⟨rfl, rfl⟩
    · exact ⟨rfl, rfl⟩
theorem codeCleared_keeps (s : State) (a : Nat) : (axOf (codeCleared s a) a).sm.fcode = 0 ∧ (axOf (codeCleared s a) a).sm.st = (axOf s a).sm.st ∧
    (axOf (codeCleared s a) a).fb.pos = (axOf s a).fb.pos := by
  obtain ⟨hm, hp⟩ := resetMore_keeps (modSm s a (fun q => { q with fcode := 0, react := if q.st = .fault then 0 else q.react })) a (axOf s a).sm.fcode
  rw [codeCleared, hm, hp, modSm, axOf_modAx]
  exact ⟨rfl, rfl, rfl⟩
theorem faultCleared_keeps (s : State) (a : Nat) : (axOf (faultCleared s a) a).sm.fcode = 0 ∧ (axOf (faultCleared s a) a).fb.pos = (axOf s a).fb.pos ∧
    (axOf (faultCleared s a) a).sm.st = if (axOf s a).sm.st = .fault then .ready else (axOf s a).sm.st := by
  obtain ⟨hcode, hst, hpos⟩ := codeCleared_keeps s a
  rw [faultCleared, axItem, axOf_sendItem]
  split
  · obtain ⟨hsm, hfb⟩ := Prod.mk.inj ((idleFrame_profIdle (setSt (codeCleared s a) a .ready) a).2 a)
    obtain ⟨hs, -, hc⟩ := setSt_sets (codeCleared s a) a .ready
    rw [hsm, hfb, fb_setSt]
    exact ⟨hc.trans hcode, hpos, hs⟩
  · exact ⟨hcode, hpos, hst⟩
end

section
variable {s t : State} {a m : Nat} {f : Flight}
theorem quiet_released : quiet (modAx s a enableReleased) (axItem (modAx s a enableReleased) a) := quiet_sendItem _ _

/-- A disable command at the end of its pick. -/
theorem axisDisable_ends (h : actsAtEnd s m 0x0602 a f) (hc : (axOf s a).sm.changed = false) (hs : (axOf s a).sm.st ∈ [AxSt.ready, .enabled, .fault, .safeOff]) :
    ended s (axisCmds s) m f 0 ∧ pathFrame a s (axisCmds s) ∧
      DisabledAxis { axOf s a with sm := { (axOf s a).sm with disCmd := true } } (axOf (axisCmds s) a) := by
  have he := axisCmds_fin h (axisDisableEnd_takes hc hs)
  have hd : (axOf s a).sm.st ≠ .disabled := fun hd => by simp [hd] at hs
  refine ⟨he.cpl, (pathTurn_disabledNow s a).1.behind he.effect, ?_⟩
  rw [axOf_of_quiet he.effect]
  exact disabledAxis_disabledNow hd
/-- A fault reset command at the end of its pick. -/
theorem faultReset_ends (h : actsAtEnd s m 0x0603 a f) (hc : (axOf s a).sm.changed = false) (hg : causeGone s a (axOf s a).sm.fcode = true)
    (hs : resettable (axOf s a).sm) :
    ended s (axisCmds s) m f 0 ∧ pathFrame a s (axisCmds s) ∧ (axOf (axisCmds s) a).sm.fcode = 0 ∧ (axOf (axisCmds s) a).fb.pos = (axOf s a).fb.pos ∧
      (axOf (axisCmds s) a).sm.st = if (axOf s a).sm.st = .fault then .ready else (axOf s a).sm.st := by
  have he := axisCmds_fin h (faultResetEnd_takes hc hg hs)
  refine ⟨he.cpl, (pathTurn_faultCleared s a).1.behind he.effect, ?_⟩
  rw [axOf_of_quiet he.effect]
  exact faultCleared_keeps s a
/-- An enable command of an axis in READY at the end of its pick. -/
theorem axisEnable_ends (h : actsAtEnd s m 0x0601 a f) (hc : (axOf s a).sm.changed = false) (hw : wrOpen s a = false) (hs : (axOf s a).sm.st = .ready)
    (he : enaCond s a = true) :
    ended s (axisCmds s) m f 0 ∧ axisFrame a s (axisCmds s) ∧ EnabledAxis (axOf s a) (nEff s a) (ps s) (axOf (axisCmds s) a) := by
  have he := axisCmds_fin h (axisEnableEnd_ready hc hw hs he)
  refine ⟨he.cpl, (axisTurn_enabledNow s a).1.along (.refl s) he.effect, ?_⟩
  rw [axOf_of_quiet he.effect]
  exact enabledAxis_enabledNow hs
end

end Sys2Proof.Machine

/-- Settles O14: the row by the checks of its entry, and the end of the pick by the way of the command that waits there (`axisCmds_only`): refused,
from READY to ENABLED (`enabledAxis_enabledNow`), or released from DISABLED and waiting. -/
theorem axisEnableEnables : Obligations.AxisEnableEnables := by
  refine ⟨fun e s a h hpl ha hr => axisEnable_waits h hpl ha hr, fun s m a f h => ⟨fun hc => ?_, fun hc hw hs he => ?_, fun hc hw hs hd hp hi he => ?_⟩⟩
  · obtain ⟨hj, hq⟩ := axisCmds_fin h (axisEnableEnd_changed hc)
    exact ⟨hj, hq⟩
  · obtain ⟨hj, ⟨hq, ho⟩, hx⟩ := axisEnable_ends h hc hw hs he
    exact ⟨hj, hq, ho, hx.st, hx.changed, hx.fb, hx.posRef, hx.vRef, hx.q, hx.queue, hx.iqRef, hx.cA, hx.cB, hx.cC, hx.boost⟩
  · obtain ⟨hf, hq⟩ := axisCmds_wait h (axisEnableEnd_disabled hc hw hs hd hp hi he)
    exact ⟨hf, quiet_released.trans hq⟩

/-- Settles O15: the rows by the checks of their entries, and the end of the pick by the command that waits there (`axisCmds_only`): refused, to
DISABLED (`disabledAxis_enterDisabled`), or with its fault code cleared (`faultCleared_keeps`). -/
theorem axisDisableAndFaultReset : Obligations.AxisDisableAndFaultReset := by
  refine ⟨fun e s a h hpl ha hr => ⟨axisDisable_waits h hpl ha hr, faultReset_waits h hpl ha hr⟩, fun s m op a f h hop => ⟨fun hc => ?_, fun ho hc hs => ?_,
    fun ho hc hg hs => ?_⟩⟩
  · have hr : axisCmdEnd op a s = (s, .fin 0x6001 []) := by
      rcases hop with rfl | rfl
      · exact axisDisableEnd_changed hc
      · exact faultResetEnd_changed hc
    obtain ⟨hj, hq⟩ := axisCmds_fin h hr
    exact ⟨hj, hq⟩
  · subst ho
    obtain ⟨hj, hp, hx⟩ := axisDisable_ends h hc hs
    exact ⟨hj, hp, hx.st, hx.disCmd, hx.fcode, hx.queue, hx.live, hx.homing, hx.pos⟩
  · subst ho
    obtain ⟨hj, hp, hcode, hpos, hst⟩ := faultReset_ends h hc hg hs
    exact ⟨hj, hp, hcode, hpos, hst⟩
end

section
/-! The commands that stop a path (R289, R298, R320) and the one that overrides outputs (R394, R395). -/
open Sys2Proof Sys2Proof.Machine
namespace Sys2Proof.Machine

/-! ### Words with two fields -/

/-- A number of two fields has only the bits of two masks where each field has only those of its own. -/
theorem onlyBits_fields {k m x n y : Nat} (hm : m < 2 ^ k) (hx : x < 2 ^ k) (hl : onlyBits m x = true) (hh : onlyBits n y = true) :
    onlyBits (m + 2 ^ k * n) (x + 2 ^ k * y) = true := by
  have low {u v : Nat} (h : u < 2 ^ k) : (u + 2 ^ k * v) % 2 ^ k = u := by rw [Nat.add_mul_mod_self_left, Nat.mod_eq_of_lt h]
  have high {u v : Nat} (h : u < 2 ^ k) : (u + 2 ^ k * v) / 2 ^ k = v := by
    rw [Nat.add_mul_div_left _ _ (Nat.two_pow_pos k), Nat.div_eq_of_lt h, Nat.zero_add]
  simp only [onlyBits, beq_iff_eq] at *
  rw [← Nat.div_add_mod ((x + 2 ^ k * y) &&& (m + 2 ^ k * n)) (2 ^ k), Nat.and_div_two_pow, Nat.and_mod_two_pow, low hx, low hm, high hx, high hm, hl, hh, Nat.add_comm]

theorem quiet_modAx {s t : State} (h : quiet s t) (a : Nat) (f : Axis → Axis) : quiet (modAx s a f) (modAx t a f) := by
  unfold quiet at *
  rw [h]
  rfl

section
variable {s : State} {e : CmdEntry} (op : Nat)
@[simp] theorem axOf_taken (k : Nat) : axOf (taken s e op) k = axOf s k := axOf_of_quiet (quiet_taken s e op) k
@[simp] theorem grpOf_taken (g : Nat) : grpOf (taken s e op) g = grpOf s g := grpOf_of_grps (grps_of_quiet (quiet_taken s e op)) g
@[simp] theorem inGroup_taken (a : Nat) : inGroup (taken s e op) a = inGroup s a := inGroup_of_par (par_taken s e op) a
@[simp] theorem axGroup_taken (a : Nat) : axGroup (taken s e op) a = axGroup s a := axGroup_of_par (par_taken s e op) a
@[simp] theorem grpMembers_taken (g : Nat) : grpMembers (taken s e op) g = grpMembers s g := grpMembers_of_par (par_taken s e op) g
@[simp] theorem axFmt_taken (a : Nat) : axFmt (taken s e op) a = axFmt s a := axFmt_same (par_taken s e op) a
@[simp] theorem moveState_taken (a : Nat) : moveState (taken s e op) a = moveState s a := by
  unfold moveState
  rw [axOf_taken]
end

/-! ### OUTPUT_OVERRIDE (R394, R395) -/

section
variable {s : State} {m a n : Nat} {bs : Bytes} {b : Body}
/-- An axis whose outputs a body may override: ENABLED since an earlier pick, and without entries (R395). -/
structure CanOverride (s : State) (a : Nat) : Prop where
  changed : (axOf s a).sm.changed = false
  st : (axOf s a).sm.st = .enabled
  queue : (axOf s a).prof.queue = []
  path : inGroup s a = false ∨ (grpOf s (axGroup s a)).queue = []
theorem overrideRun_eq (ha : a < 128) (hn : 1 ≤ n) (hm : n ≤ 32000) (hb : bs.length = 12) (hp : parseBody (axFmt s a) bs = some b)
    (hr : hasRights s m (axTarget a) (rMOVE + rWRITE) = true) (hc : CanOverride s a) :
    overrideRun s m (le 4 (a + 65536 * n) ++ bs) = (modMd s a (fun q => { q with ovr := some (n, b) }), .wait (.override a)) := by
  have hw : word (le 4 (a + 65536 * n) ++ bs) 0 = a + 65536 * n := word_le4_append _ bs (by omega)
  have hlo : (a + 65536 * n) % 128 = a := by omega
  have hhi : (a + 65536 * n) / 65536 = n := by omega
  have hd : (le 4 (a + 65536 * n) ++ bs).drop 4 = bs := List.drop_left' (le_length 4 _)
  have hk : onlyBits 0xFFFF007F (a + 65536 * n) = true :=
    onlyBits_fields (k := 16) (m := 0x7F) (n := 0xFFFF) (by decide) (by omega) (onlyBits_low 7 a ha) (onlyBits_low 16 n (by omega))
  have hch : (axOf s a).sm.changed = false ∧ (axOf s a).sm.st = .enabled ∧ (axOf s a).prof.queue = [] ∧
      (inGroup s a = false ∨ (grpOf s (axGroup s a)).queue = []) := ⟨hc.changed, hc.st, hc.queue, hc.path⟩
  unfold overrideRun
  simp only [hw, hlo, hhi, hd, hp, hk, hr, checked, firstFail, Option.isSome_some, Bool.and_self, if_true, if_pos hch, Option.getD_some,
    decide_eq_true hn, decide_eq_true hm, List.length_append, le_length, hb, Nat.reduceAdd, decide_true]
theorem canOverride_taken (e : CmdEntry) (op : Nat) (h : CanOverride s a) : CanOverride (taken s e op) a :=
  ⟨by simpa using h.changed, by simpa using h.st, by simpa using h.queue, by simpa using h.path⟩
end

/-! ### HALT of an axis (R289, R320) -/

section
variable (s : State) (a : Nat)
theorem axisTurn_moveAdd (e : MoveEntry) : axisTurn a s (moveAdd s a e true) :=
  (axisTurns a).trans ((axisTurns a).trans (axisTurn_queueDrop s a) (axisTurn_modAx _ a _)) (axisTurn_sendItem _ a _)
theorem idleFrame_moveAdd (e : MoveEntry) : idleFrame s (moveAdd s a e true) :=
  idleFrames.trans (idleFrames.trans (idleFrame_queueDrop s a) (idleFrame_modAx _ a _)) (idleFrames.item _ _)
theorem axOf_moveAdd (e : MoveEntry) : (axOf (moveAdd s a e true) a).prof.queue = [e] ∧ (axOf (moveAdd s a e true) a).hm = (axOf s a).hm := by
  unfold moveAdd queueItem
  simp only [if_true]
  rw [axOf_sendItem, axOf_modProf]
  dsimp only
  rw [queue_queueDrop, hm_queueDrop]
  exact ⟨rfl, rfl⟩

/-- An axis that a halt stops: its homing or its output override ends, and the entry that stops its path is the only one. -/
def haltedAxis : State := moveAdd (if homing (axOf s a) then homeAbort s a else ovrLeave s a) a haltEntry true
theorem axisFrame_haltedAxis : axisFrame a s (haltedAxis s a) :=
  ((axisTurns a).trans ((axisTurns a).ite (axisTurn_homeEnd s a _) (axisTurn_ovrStop s a true)) (axisTurn_moveAdd _ a _)).1
/-- What stands of an axis that has been stopped by a halt. -/
structure HaltedAxis (x y : Axis) : Prop where
  queue : y.prof.queue = [haltEntry]
  homing : y.hm.phase = 0
  st : y.sm.st = x.sm.st
theorem haltedAxis_halted : HaltedAxis (axOf s a) (axOf (haltedAxis s a) a) := by
  have hi : idleFrame s (haltedAxis s a) :=
    idleFrames.trans (idleFrames.ite (idleFrame_homeEnd s a _) (idleFrame_ovrStop s a true)) (idleFrame_moveAdd _ a _)
  obtain ⟨hq, hh⟩ := axOf_moveAdd (if homing (axOf s a) then homeAbort s a else ovrLeave s a) a haltEntry
  refine ⟨hq, ?_, by rw [hi.sm a]⟩
  rw [haltedAxis, hh]
  split
  next => exact phase_homeEnd s a _
  next h =>
    rw [ovrLeave, hm_ovrStop]
    simpa [homing] using h
variable {s a}
theorem haltAxis_eq (hs : (axOf s a).sm.st ∈ [AxSt.enabled, .moving, .hold]) (hc : (axOf s a).sm.changed = false)
    (hp : homing (axOf s a) = true ∨ (inGroup s a = false ∧ hasProfile s a = true)) : haltAxis s a = (haltedAxis s a, .fin 0 []) := by
  unfold haltAxis haltedAxis
  extract_lets x ok
  have hok : ok = true := by
    simp only [List.mem_cons, List.not_mem_nil, or_false] at hs
    rcases hs with h | h | h <;> simp only [ok, x, h, hc] <;> rfl
  cases hh : homing (axOf s a) with
  | true => simp [hok]
  | false =>
    obtain ⟨hg, hpr⟩ := hp.resolve_left (by rw [hh]; decide)
    simp [hok, hg, hpr]
theorem haltRun_axis {m : Nat} (ha : a < 128) (hr : hasRights s m (axTarget a) rMOVE = true) : haltRun s m (le 4 a) = haltAxis s a := by
  have h8 : nbit a 8 = false := Nat.testBit_lt_two_pow (by omega)
  have hk : onlyBits 0x17F a = true := onlyBits_fields (k := 7) (m := 0x7F) (n := 2) (x := a) (y := 0) (by decide) ha (onlyBits_low 7 a ha) (by decide)
  simp [haltRun, checked, firstFail, word_axis ha, Nat.mod_eq_of_lt ha, h8, hk, hr]
end

/-! ### HALT of a group (R289, R298) -/

section
variable (s : State) (g : Nat)
theorem grpOf_grpDrop_other {k : Nat} (h : k ≠ g) : grpOf (grpDrop s g) k = grpOf s k := by
  unfold grpDrop
  simp only []
  split
  · rfl
  · have hi (t : State) (c : Nat) (pl : Bytes) : grpOf (raise (grpItem t g) c g pl) k = grpOf t k := rfl
    rw [hi, grpOf_modGrp_other s _ h]
/-- The members of a group without an output override. -/
def membersLeft : State := forEach (grpMembers s g) (fun t a => ovrLeave t a) s
/-- A group whose path a halt stops: its members' output overrides end, and the entry that stops the path is the only one. -/
def haltedGroup : State :=
  grpItem (modGrp (grpDrop (membersLeft s g) g) g (fun r => { r with queue := [{ vmax := 0, defer := false, tag := 0, mem := [] }] })) g
/-- What a halt of a group leaves. -/
structure HaltedGroup (s : State) (g : Nat) (t : State) : Prop where
  frame : idleFrame s t
  others : ∀ k, k ≠ g → grpOf t k = grpOf s k
  rest : ∀ a, a ∉ grpMembers s g → axOf t a = axOf s a
  queue : (grpOf t g).queue = [{ vmax := 0, defer := false, tag := 0, mem := [] }]
theorem haltedGroup_halted : HaltedGroup s g (haltedGroup s g) := by
  have hg (t : State) (k : Nat) : grpOf (grpItem t g) k = grpOf t k := rfl
  have hl : (membersLeft s g).grps = s.grps := forEach_leaves State.grps fun t a _ => (axisTurn_ovrStop t a true).1.grps
  refine ⟨?_, fun k hk => ?_, fun a ha => ?_, ?_⟩
  · exact idleFrames.trans (idleFrames.trans (idleFrames.trans (idleFrames.loop _ (fun t a => idleFrame_ovrStop t a true) s) (idleFrame_grpDrop _ g))
      (idleFrame_modGrp _ g _)) (idleFrame_grpItem _ g)
  · rw [haltedGroup, hg, grpOf_modGrp_other _ _ hk, grpOf_grpDrop_other _ g hk, grpOf_of_grps hl]
  · have hm : axOf (membersLeft s g) a = axOf s a :=
      forEach_leaves (fun t => axOf t a) fun t b hb => (axisTurn_ovrStop t b true).1.2 a fun he => ha (he ▸ hb)
    exact (axOf_of_axes (axes_grpDrop (membersLeft s g) g) a).trans hm
  · rw [haltedGroup, hg, grpOf_modGrp]
variable {s g}
/-- What a halt leaves it leaves also where carriers alone change before and behind it. -/
theorem HaltedGroup.along {u t v : State} (h : HaltedGroup u g t) (hu : quiet s u) (hv : quiet t v) : HaltedGroup s g v := by
  have hp : grpMembers u g = grpMembers s g := grpMembers_of_par (par_of_quiet hu) g
  obtain ⟨⟨hf, hs⟩, ho, hr, hq⟩ := h
  refine ⟨⟨?_, fun k => by rw [axOf_of_quiet hv, hs k, axOf_of_quiet hu]⟩, fun k hk => ?_, fun a ha => ?_, ?_⟩
  · unfold quiet at *
    rw [hv, hf, hu]
  · rw [grpOf_of_grps (grps_of_quiet hv), ho k hk, grpOf_of_grps (grps_of_quiet hu)]
  · rw [axOf_of_quiet hv, hr a (by rwa [hp]), axOf_of_quiet hu]
  · rw [grpOf_of_grps (grps_of_quiet hv), hq]
theorem haltGroup_eq (hm : grpMembers s g ≠ []) (hs : ∀ a ∈ grpMembers s g, moveState s a = true) : haltGroup s g = (haltedGroup s g, .fin 0 []) := by
  have ha : (grpMembers s g).any (fun a => !moveState s a) = false := by
    rw [List.any_eq_false]
    intro a h
    simp [hs a h]
  simp only [haltGroup, if_neg hm, ha, Bool.false_eq_true, if_false]
  rfl
theorem haltRun_group {m : Nat} (hg : g < 16) (hr : ∀ a ∈ grpMembers s g, hasRights s m (axTarget a) rMOVE = true) :
    haltRun s m (le 4 (g + 256)) = haltGroup s g := by
  have hw : word (le 4 (g + 256)) 0 = g + 256 := word_le4 _ (by omega)
  have hlo : (g + 256) % 128 = g := by omega
  have h8 : nbit (g + 256) 8 = true := by
    rw [nbit, Nat.testBit_eq_decide_div_mod_eq]
    exact decide_eq_true (by omega)
  have hk : onlyBits 0x17F (g + 256) = true :=
    onlyBits_fields (k := 8) (m := 0x7F) (n := 1) (x := g) (y := 1) (by decide) (by omega) (onlyBits_low 7 g (by omega)) (by decide)
  have ha : (grpMembers s g).all (fun a => hasRights s m (axTarget a) rMOVE) = true := List.all_eq_true.mpr hr
  simp only [haltRun, checked, firstFail, hw, hlo, h8, hk, ha, le_length, if_true, decide_true, decide_eq_true hg, Bool.not_true, Bool.false_or]
end

section
variable {s : State} {e : CmdEntry} (h : takesNow s e = true)
include h
theorem haltAxis_completes {a : Nat} (ha : a < 128) (hpl : e.payload = le 4 a) (hr : hasRights s e.master (axTarget a) rMOVE = true)
    (hs : (axOf s a).sm.st ∈ [AxSt.enabled, .moving, .hold]) (hc : (axOf s a).sm.changed = false)
    (hp : homing (axOf s a) = true ∨ (inGroup s a = false ∧ hasProfile s a = true)) :
    completes (.halt e) s e 0x0703 [] (fun t => axisFrame a s t ∧ HaltedAxis (axOf s a) (axOf t a)) := by
  have hpr : hasProfile (taken s e 0x0703) a = hasProfile s a := by
    unfold hasProfile
    rw [axClass_of_par (par_taken s e _), axLoop_of_par (par_taken s e _)]
  have hb : haltRun (taken s e 0x0703) e.master e.payload = (haltedAxis (taken s e 0x0703) a, .fin 0 []) := by
    rw [hpl, haltRun_axis ha (by simpa using hr)]
    exact haltAxis_eq (by simpa using hs) (by simpa using hc) (by simpa [hpr] using hp)
  have hf := axisFrame_haltedAxis (taken s e 0x0703) a
  have hx := haltedAxis_halted (taken s e 0x0703) a
  rw [axOf_taken] at hx
  exact completes_quiet rfl h hb (hf.along (quiet_taken s e _) (.refl _)).1 fun t ht => ⟨hf.along (quiet_taken s e _) ht, by rwa [axOf_of_quiet ht]⟩
theorem haltGroup_completes {g : Nat} (hg : g < 16) (hpl : e.payload = le 4 (g + 256)) (hm : grpMembers s g ≠ [])
    (hs : ∀ a ∈ grpMembers s g, hasRights s e.master (axTarget a) rMOVE = true ∧ moveState s a = true) :
    completes (.halt e) s e 0x0703 [] (HaltedGroup s g) := by
  have hb : haltRun (taken s e 0x0703) e.master e.payload = (haltedGroup (taken s e 0x0703) g, .fin 0 []) := by
    rw [hpl, haltRun_group hg (by simpa using fun a ha => (hs a ha).1)]
    exact haltGroup_eq (by simpa using hm) (by simpa using fun a ha => (hs a ha).2)
  have hx := haltedGroup_halted (taken s e 0x0703) g
  exact completes_quiet rfl h hb (hx.along (quiet_taken s e _) (.refl _)).frame.1 fun t ht => hx.along (quiet_taken s e _) ht
end

end Sys2Proof.Machine

/-- Settles O16: the body is read and held, and the command waits for the record that carries it. -/
theorem outputOverrideWaits : Obligations.OutputOverrideWaits := by
  intro e s a n bs b h ha hn hm hpl hb hp hr hs hc hq hg
  have hx := overrideRun_eq (s := taken s e 0x0604) (m := e.master) ha hn hm hb (by simpa using hp) (by simpa using hr) (canOverride_taken e _ ⟨hc, hs, hq, hg⟩)
  rw [← hpl] at hx
  have hv := quiet_modAx (quiet_taken s e 0x0604) a (fun x => { x with md := { x.md with ovr := some (n, b) } })
  exact completesLater_quiet rfl h hx rfl hv fun t ht => hv.trans ht

/-- Settles O18: an axis by what ends before its queue is replaced (`haltedAxis_halted`), a group by the loop over its members and the entry of its
path (`haltedGroup_halted`). -/
theorem haltStops : Obligations.HaltStops := by
  intro e s h
  refine ⟨fun a ha hpl hr hs hc hp => ?_, fun g hg hpl hm hs => ?_⟩
  · obtain ⟨t, hx, hj, ⟨hq, ho⟩, hy⟩ := haltAxis_completes h ha hpl hr hs hc hp
    exact ⟨t, hx, hj, hq, ho, hy.queue, hy.homing, hy.st⟩
  · obtain ⟨t, hx, hj, hy⟩ := haltGroup_completes h hg hpl hm hs
    exact ⟨t, hx, hj, hy.frame.1, hy.others, fun a => by rw [hy.frame.sm a], hy.rest, hy.queue⟩
end

section
/-! The rows that end a running condition of an axis or a node (R164, R201, R209, R237, R238, R395). -/
open Sys2Proof Sys2Proof.Machine
namespace Sys2Proof.Machine

/-! ### One fault and its reaction (R209, R211, R213) -/

section
variable (s : State) (a c : Nat)
theorem reactFor_stop : reactFor s a 1 = 1 ∨ reactFor s a 1 = 2 := by
  unfold reactFor
  split
  · exact .inr rfl
  · exact .inl rfl
/-- One fault with a reaction that stops, taken by its axis and the members that stop with it. -/
def stopTaken (q : Nat) : State := forEach (othersStop (faultsNoted s a [(c, q)]) a) memberStopped (react1 (faultsNoted s a [(c, q)]) a c q)
variable {s a}
theorem takesStop_any {q : Nat} (hq : 1 ≤ q) : takesStop s a q = takesStop s a 2 := by
  unfold takesStop
  rw [decide_eq_true hq]
  rfl
theorem takeFaults_one {r q : Nat} (hr : reactFor s a r = q) (hq : 1 ≤ q) : takeFaults s a [(c, r)] =
    if inGroup s a ∧ takesStop (faultsNoted s a [(c, q)]) a 2 = true then
      grpStop (stopTaken s a c q) (axGroup s a) ((if q = 1 then [a] else []) ++ (othersStop (faultsNoted s a [(c, q)]) a).filter (fun o => reactFor s o 1 = 1))
        (fun i => pget s 0x0345 i)
    else stopTaken s a c q := by
  unfold takeFaults
  rw [if_neg (List.cons_ne_nil _ _)]
  simp only [List.map_cons, List.map_nil, hr, strongest, List.headD_cons, List.foldl_cons, List.foldl_nil, Nat.lt_irrefl, and_false, or_self, if_false,
    if_neg (Nat.ne_of_gt hq), takesStop_any hq]
  rfl
theorem axes_takeFaults_one {r q : Nat} (hr : reactFor s a r = q) (hq : 1 ≤ q) : (takeFaults s a [(c, r)]).axes = (stopTaken s a c q).axes := by
  rw [takeFaults_one c hr hq]
  split
  · exact axes_grpStop _ _ _ _
  · rfl
/-- An axis without a fault takes the code of a fault and the reaction that the fault has for it (R209, R211). -/
theorem takeFaults_one_sets (h : (axOf s a).sm.st ∈ [AxSt.ready, .enabled, .moving, .hold]) {r : Nat} (hq : 1 ≤ reactFor s a r) :
    (axOf (takeFaults s a [(c, r)]) a).sm.st = .fault ∧ (axOf (takeFaults s a [(c, r)]) a).sm.react = reactFor s a r ∧
      (axOf (takeFaults s a [(c, r)]) a).sm.fcode = c := by
  have hs : (axOf (faultsNoted s a [(c, reactFor s a r)]) a).sm.st = (axOf s a).sm.st := by
    rw [faultsNoted, sm_modSm, axOf_of_axes (axes_faultsRaised s a _)]
  rw [axOf_of_axes (axes_takeFaults_one c rfl hq), stopTaken, axOf_membersStopped (not_mem_othersStop_self _ a), react1_live (by rw [hs]; exact h)]
  exact enterFault_sets _ a c _
end

/-! ### The end of a quick stop (R209) -/

section
variable {s : State} {a : Nat}
/-- What stands of an axis whose quick stop has ended with OFF. -/
structure StopEnded (x y : Axis) : Prop where
  st : y.sm.st = x.sm.st
  react : y.sm.react = 2
  fcode : y.sm.fcode = x.sm.fcode
  live : y.prof.live = false
  vRef : y.prof.vRef = 0
theorem pathFrame_qstopOff (s : State) (a : Nat) : pathFrame a s (qstopOff s a) :=
  ((pathTurns a).trans ((pathTurns a).trans (axisTurn_modAx s a _).path (pathTurn_profIdle _ a)) (axisTurn_axItem _ a).path).1
theorem stopEnded_qstopOff (s : State) (a : Nat) : StopEnded (axOf s a) (axOf (qstopOff s a) a) := by
  have hi := (idleFrame_profIdle (modSm s a (fun m => { m with react := 2, qsRest := none })) a).sm a
  rw [sm_modSm] at hi
  rw [qstopOff, axItem, axOf_sendItem]
  refine ⟨by rw [hi], by rw [hi], by rw [hi], ?_, ?_⟩ <;> rw [axOf_profIdle]
theorem logWithin_qstopOff (s : State) (a : Nat) : logWithin 2 s (qstopOff s a) := logWithin_profIdle (modSm s a (fun m => { m with react := 2, qsRest := none })) a
end

section
variable {s : State} {a : AxisNo}
theorem qstopEnd_ends {p : BitVec 32} (hp : (axOf s a).sm.qsRest = some p) (hs : (axOf s a).sm.st = .fault) (hr : (axOf s a).sm.react = 1)
    (ht : 31 ≤ psDiff (ps s) p) : exec (.qstopEnd a) s = finishD s (qstopOff s a) := by
  show execQstopEnd a s = _
  unfold execQstopEnd
  simp only [hp, hs, hr, ht, and_self, if_true]
theorem qstopEnd_idle (hp : (axOf s a).sm.qsRest = none) : exec (.qstopEnd a) s = .next s := by
  show execQstopEnd a s = _
  unfold execQstopEnd
  simp only [hp]
  rfl
theorem qstopTimeout_ends (hs : (axOf s a).sm.st = .fault) (hr : (axOf s a).sm.react = 1) (ht : pnat s 0x0346 a ≤ psDiff (ps s) (axOf s a).sm.qsT) :
    exec (.qstopTimeout a) s = finishD s (qstopOff (raise s 0x610D a []) a) := by
  show execQstopTimeout a s = _
  unfold execQstopTimeout
  simp only [hs, hr, ht, and_self, if_true]
theorem qstopTimeout_idle (hs : (axOf s a).sm.st ≠ .fault) : exec (.qstopTimeout a) s = .next s := by
  show execQstopTimeout a s = _
  unfold execQstopTimeout
  simp only [hs, false_and, if_false]
  rfl

/-! ### Amplitude, boost and override (R201, R238, R395) -/

theorem stepperHoldTimer_falls {p : BitVec 32} (hp : (axOf s a).lp.vNzPs = some p) (hv : (axOf s a).prof.vRef = 0) (ht : pnat s 0x033B a ≤ psDiff (ps s) p) :
    exec (.stepperHoldTimer a) s = .next (modLp s a (fun l => { l with vNzPs := none, amp := pnat s 0x033A a })) := by
  show execStepperHoldTimer a s = _
  unfold execStepperHoldTimer
  simp only [hp, hv, ht, and_self, if_true]
  rfl
theorem stepperHoldTimer_idle (hp : (axOf s a).lp.vNzPs = none) : exec (.stepperHoldTimer a) s = .next s := by
  show execStepperHoldTimer a s = _
  unfold execStepperHoldTimer
  simp only [hp]
  rfl
theorem exec_boostExpiry : exec (.boostExpiry a) s = finishD s (when (!boostOn s (axOf s a).md) (fun t => modMd t a (fun m => { m with boost := none })) s) := rfl
theorem exec_outputOverrideEnd : exec (.outputOverrideEnd a) s = finishD s (ovrFinish s a) := rfl
theorem ovrFinish_ends {b : Body} (h : (axOf s a).md.ovr = some (0, b)) : ovrFinish s a = enableReset (modMd s a (fun m => { m with ovr := none })) a := by
  unfold ovrFinish
  simp only [h]
theorem ovrFinish_idle (h : (axOf s a).md.ovr = none) : ovrFinish s a = s := by
  unfold ovrFinish
  simp only [h]
theorem outputOverrideEnd_ends {b : Body} (h : (axOf s a).md.ovr = some (0, b)) : goes (.outputOverrideEnd a) s (fun t =>
    axisFrame a s t ∧ (axOf t a).md.ovr = none ∧ (axOf t a).prof.posRef = (axOf s a).fb.pos ∧ (axOf t a).sm = (axOf s a).sm) := by
  have hf : axisFrame a s (ovrFinish s a) := by
    rw [ovrFinish_ends h]
    exact ((axisTurns a).trans (axisTurn_modAx s a _) (axisTurn_enableReset _ a)).1
  refine goes_quiet exec_outputOverrideEnd hf.1 ⟨hf, ?_⟩
  rw [ovrFinish_ends h, axOf_enableReset, axOf_modMd]
  exact ⟨rfl, rfl, rfl⟩

/-! ### Under-voltage and temperature (R237, R238) -/

theorem exec_bootUv : exec (.bootUv a) s = finishD s (when (decide (8 ≤ (axOf s a).md.buvRun)) (fun t => takeFaults t a [(0x7101, 2)]) s) := rfl
theorem bootUv_off (hb : 8 ≤ (axOf s a).md.buvRun) (hs : (axOf s a).sm.st ∈ [AxSt.ready, .enabled, .moving, .hold]) : goes (.bootUv a) s (fun t =>
    axFrame s t ∧ (axOf t a).sm.st = .fault ∧ (axOf t a).sm.react = 2 ∧ (axOf t a).sm.fcode = 0x7101) := by
  have hf := axFrame_takeFaults s a [(0x7101, 2)]
  have hx : exec (.bootUv a) s = finishD s (takeFaults s a [(0x7101, 2)]) := by rw [exec_bootUv, decide_eq_true hb, when_true]
  exact goes_quiet hx hf ⟨hf, takeFaults_off_sets hs 0x7101⟩
theorem bootUv_idle (hb : (axOf s a).md.buvRun < 8) : exec (.bootUv a) s = .next s := by
  rw [exec_bootUv, decide_eq_false (Nat.not_le.mpr hb), when_false]
  rfl
theorem overtemp_stops {p : BitVec 32} (hp : (axOf s a).md.otwPs = some p) (h0 : pnat s 0x0405 a ≠ 0) (ht : pnat s 0x0405 a ≤ psDiff (axOf s a).md.otwLast p + 1)
    (hs : (axOf s a).sm.st ∈ [AxSt.ready, .enabled, .moving, .hold]) : goes (.overtemp a) s (fun t =>
      axFrame s t ∧ (axOf t a).sm.st = .fault ∧ (axOf t a).sm.react = reactFor s a 1 ∧ (axOf t a).sm.fcode = 0x7103) := by
  have hf := axFrame_takeFaults s a [(0x7103, 1)]
  have hx : exec (.overtemp a) s = finishD s (takeFaults s a [(0x7103, 1)]) := by
    show execOvertemp a s = _
    unfold execOvertemp
    simp only [hp, h0, ht, ne_eq, not_false_eq_true, and_self, if_true]
  exact goes_quiet hx hf ⟨hf, takeFaults_one_sets 0x7103 hs (by rcases reactFor_stop s a with h | h <;> omega)⟩
theorem overtemp_idle (hp : (axOf s a).md.otwPs = none) : exec (.overtemp a) s = .next s := by
  show execOvertemp a s = _
  unfold execOvertemp
  simp only [hp]
  rfl
end

/-! ### A resynchronisation that stalls (R164) -/

section
variable {s : State} {n : NodeNo}
theorem codeResyncStall_noted (hs : (ndOf s n).sync ≠ .sync) (hw : 8 ≤ (ndOf s n).waitTx) (hr : (ndOf s n).stallRaised = false) :
    exec (.codeResyncStall n) s = finishD s (raise (modNd s n (fun x => { x with stallRaised := true })) 0x310D n [BitVec.ofNat 8 (n.val / 4)]) := by
  show execCodeResyncStall n s = _
  unfold execCodeResyncStall
  simp only [hs, hw, hr, ne_eq, not_false_eq_true, and_self, if_true]
theorem codeResyncStall_idle (hs : (ndOf s n).sync = .sync) : exec (.codeResyncStall n) s = .next s := by
  show execCodeResyncStall n s = _
  unfold execCodeResyncStall
  simp only [hs, ne_eq, not_true_eq_false, false_and, if_false]
  rfl
end

end Sys2Proof.Machine

/-- Settles O42: each row by its effect where its condition holds (`stopEnded_qstopOff`, `takeFaults_one_sets`, `outputOverrideEnd_ends`), and by the
idle case where it does not. -/
theorem axisConditionRows : Obligations.AxisConditionRows := by
  intro s a
  refine ⟨fun p hp hs hr ht => ?_, qstopEnd_idle, fun hs hr ht => ?_, qstopTimeout_idle, fun p => stepperHoldTimer_falls, stepperHoldTimer_idle, bootUv_off,
    bootUv_idle, fun p => overtemp_stops, overtemp_idle, fun hb => ?_, fun hb => ?_, fun b hb => ?_, fun hb => ?_, fun n hs hw hr => ?_,
    fun n => codeResyncStall_idle⟩
  · have hf := pathFrame_qstopOff s a
    have hx := stopEnded_qstopOff s a
    exact goes_quiet (qstopEnd_ends hp hs hr ht) hf.1 ⟨hf.1, hf.2.1, hx.st.trans hs, hx.react, hx.live, hx.vRef, hx.fcode⟩
  · have hf := (pathFrames a).trans ((pathFrames a).event s 0x610D a []) (pathFrame_qstopOff _ a)
    have hx := stopEnded_qstopOff (raise s 0x610D a []) a
    exact goes_quiet (qstopTimeout_ends hs hr ht) hf.1
      ⟨hf.1, hf.2.1, hx.st.trans hs, hx.react, hx.live, (logWithin_qstopOff _ a).logged (by decide)⟩
  · rw [exec_boostExpiry, hb]
    rfl
  · rw [exec_boostExpiry, hb]
    rfl
  · obtain ⟨t, hx, ⟨hq, ho⟩, ht⟩ := outputOverrideEnd_ends hb
    exact ⟨t, hx, hq, ho, ht⟩
  · rw [exec_outputOverrideEnd, ovrFinish_idle hb]
    rfl
  · have hq := quiet_raise (modNd s n (fun x => { x with stallRaised := true })) 0x310D n [BitVec.ofNat 8 (n.val / 4)]
    exact goes_quiet (codeResyncStall_noted hs hw hr) hq ⟨hq, rfl⟩
end

section
/-! The microstep table loads (R235, R236, R393): what a part of a load leaves, and the check of the whole image behind its last part. -/
open Sys2Proof Sys2Proof.Machine
namespace Sys2Proof.Machine

/-! ### No load is in progress any more (R393) -/

/-- A node without a load. -/
def unloaded (d : Node) : Node := { d with load := none }
/-- The table of nodes with one of them without a load. -/
def loadOff (ns : Tab Node) (n : Nat) : Tab Node := tabMod {} ns n unloaded
/-- The table of nodes without their loads. -/
def loadsOff (ns : Tab Node) : Tab Node := ((List.range 64).filter (fun n => (tabGet {} ns n).load.isSome)).foldl loadOff ns
theorem loadDrop_eq (s : State) : loadDrop s = { s with nodes := loadsOff s.nodes } :=
  List.foldl_hom (g₁ := loadOff) (g₂ := fun t n => modNd t n unloaded) (fun ns => ({ s with nodes := ns } : State)) fun _ _ => rfl
theorem quiet_loadDrop {s t : State} (h : quiet s t) : quiet (loadDrop s) (loadDrop t) := by
  rw [loadDrop_eq, loadDrop_eq]
  unfold quiet at *
  rw [h]
theorem ndOf_loadDrop (s : State) {k : Nat} (hk : k < 64) : ndOf (loadDrop s) k = unloaded (ndOf s k) := by
  cases hl : (ndOf s k).load with
  | none =>
    have hu : unloaded (ndOf s k) = ndOf s k := by rw [unloaded, ← hl]
    have hkeep : ndOf (loadDrop s) k = ndOf s k := forEach_leaves (fun t => ndOf t k) fun t n hn => ndOf_modNd_other t _ fun he => by
      rw [he] at hl
      simp [hl] at hn
    rw [hkeep, hu]
  | some l =>
    refine forEach_turn (P := fun t => ndOf t k = ndOf s k) (Q := fun t => ndOf t k = unloaded (ndOf s k)) (x := k) (List.nodup_range.filter _)
      (by simp [hk, hl]) (fun t ht => ?_) (fun t n hn ht => ?_) (fun t n hn ht => ?_) rfl
    · rw [ndOf_modNd, ht]
      rfl
    · rw [ndOf_modNd_other t _ hn.symm, ht]
    · rw [ndOf_modNd_other t _ hn.symm, ht]

/-! ### The image of a node (R236) -/

/-- An image is that of its node, and no load is in progress. -/
def imageTaken (s : State) (n : Nat) (img : Bytes) : State := modNd (loadDrop s) n (fun d => { d with image := img, imgRetry := false })
theorem quiet_imageTaken {s t : State} (h : quiet s t) (n : Nat) (img : Bytes) : quiet (imageTaken s n img) (imageTaken t n img) :=
  quiet_modNd (quiet_loadDrop h) n _
theorem mbs_imageSend (s : State) (n : Nat) : (imageSend s n).mbs = s.mbs := rfl
theorem imageTaken_frame (s : State) (n : Nat) (img : Bytes) : imageTaken s n img = { s with nodes := (imageTaken s n img).nodes } := by
  rw [imageTaken, loadDrop_eq]
  rfl

section
variable (s : State) (n : Nat)
theorem ndOf_imageSend_kept (h : (ndOf s n).imgRetry = false) (k : Nat) : ndOf (imageSend s n) k = ndOf s k := by
  show ndOf (modNd s n fun d => { d with imgRetry := false }) k = _
  by_cases hk : k = n
  · rw [hk, ndOf_modNd, ← h]
  · exact ndOf_modNd_other s _ hk
theorem brsBut_imageSend : brsBut s (imageSend s n) (n / 4) := (brsBut_modBr (modNd s n _) (n / 4) _).trans (brsBut_modBr _ (n / 4) _)
theorem imageSend_asks : ∃ x ∈ (brOf (imageSend s n) (n / 4)).xfers, x.node = n ∧ xferRank x.kind = 5 := by
  unfold imageSend
  extract_lets drop s1 k
  rw [brOf_modBr]
  exact ⟨_, List.mem_append_right _ (List.mem_singleton_self _), rfl, rfl⟩
end

/-- What an image leaves that is sent at once to its integrated node. -/
structure ImageSent (s : State) (n : Nat) (img : Bytes) (t : State) : Prop where
  frame : quiet { s with nodes := t.nodes, brs := t.brs } t
  node : ndOf t n = { ndOf s n with load := none, image := img, imgRetry := false }
  others : ∀ k < 64, k ≠ n → ndOf t k = { ndOf s k with load := none }
  branches : brsBut s t (n / 4)
  asked : ∃ x ∈ (brOf t (n / 4)).xfers, x.node = n ∧ xferRank x.kind = 5
theorem ImageSent.along {s t u : State} {n : Nat} {img : Bytes} (h : ImageSent s n img t) (k : quiet t u) : ImageSent s n img u := by
  obtain ⟨hf, hn, ho, hb, hx⟩ := h
  unfold quiet at *
  refine ⟨?_, ?_, ?_, ?_, ?_⟩
  · unfold quiet
    rw [k, hf]
  all_goals
    rw [k]
    assumption
theorem imageSent_imageSend {s w : State} {n : Nat} {img : Bytes} (hn : n < 64) (hw : quiet (imageTaken s n img) w) : ImageSent s n img (imageSend w n) := by
  have hnd (k : Nat) : ndOf w k = ndOf (imageTaken s n img) k := ndOf_of_nodes (nodes_of_quiet hw) k
  have hself : ndOf w n = { ndOf s n with load := none, image := img, imgRetry := false } := by
    rw [hnd, imageTaken, ndOf_modNd, ndOf_loadDrop s hn]
    rfl
  have hsent (k : Nat) : ndOf (imageSend w n) k = ndOf w k := ndOf_imageSend_kept w n (by rw [hself]) k
  have hbrs : w.brs = s.brs := (brs_of_quiet hw).trans (by rw [imageTaken_frame])
  refine ⟨?_, (hsent n).trans hself, fun k hk hkn => ?_, fun b hb => ?_, imageSend_asks w n⟩
  · have hq := (sendFrame_imageSend w n).1
    rw [imageTaken_frame] at hw
    generalize imageSend w n = u at *
    unfold quiet at *
    rw [hq, hw]
  · rw [hsent, hnd, imageTaken, ndOf_modNd_other _ _ hkn, ndOf_loadDrop s hk]
    rfl
  · rw [brsBut_imageSend w n b hb, brOf_of_brs hbrs]

/-! ### The check of an image (R235, R236) -/

theorem tabAxesOk_same {s t : State} (hp : t.par = s.par) (ha : t.axes = s.axes) (n : Nat) : tabAxesOk t n = tabAxesOk s n := by
  simp only [tabAxesOk, nodeAxes, axClass_of_par hp, axNode_of_par hp, pnat_of_par hp, axOf_of_axes ha]

section
variable {s : State} {n : Nat} {img : Bytes}
theorem loadEnd_range (h : tabOk img = false) : loadEnd s n img = (loadDrop s, .fin 0x2004 []) := by
  simp [loadEnd, checked, firstFail, h]
theorem loadEnd_cond (h : tabOk img = true) (ha : tabAxesOk s n = false) : loadEnd s n img = (loadDrop s, .fin 0x6001 []) := by
  simp [loadEnd, checked, firstFail, h, ha]
/-- The state in which the partner knows the image of a node. -/
def imageTold (s : State) (n : Nat) (img : Bytes) : State := sendItem (imageTaken s n img) (.microstep (Fin.ofNat 64 n) img)
theorem mbs_imageTold (s : State) (n : Nat) (img : Bytes) : (imageTold s n img).mbs = s.mbs := by
  rw [imageTold, imageTaken_frame]
  rfl
theorem loadEnd_good (hn : n < 64) (h : tabOk img = true) (ha : tabAxesOk s n = true) :
    loadEnd s n img = if (ndOf s n).integrated then (imageSend (imageTold s n img) n, .wait (.mstab n)) else (imageTold s n img, .fin 0 (words [1])) := by
  have hi : (ndOf (imageTold s n img) n).integrated = (ndOf s n).integrated := by
    show (ndOf (imageTaken s n img) n).integrated = _
    rw [imageTaken, ndOf_modNd, ndOf_loadDrop s hn]
    rfl
  rw [← hi]
  simp only [loadEnd, checked, firstFail, h, ha, if_true]
  rfl
end

/-! ### MSTAB_LOAD (R393) -/

section
variable {s : State} {m n part : Nat} {seq : BitVec 32} {bs : Bytes}
/-- A load opened with its part 0. -/
def loadOpen (m : Nat) (seq : BitVec 32) (now : Nat) (bs : Bytes) (d : Node) : Node :=
  { d with load := some { master := m, next := 1, seq := seq, t := now, bytes := bs } }
/-- A load with one part more. -/
def loadMore (l : MsLoad) (part : Nat) (seq : BitVec 32) (bs : Bytes) (d : Node) : Node :=
  { d with load := some { l with next := part + 1, seq := seq, bytes := l.bytes ++ bs } }
/-- What a part brings to the load that it continues, if there is one. -/
def partTaken (s : State) (n part : Nat) (seq : BitVec 32) (bs : Bytes) : Option MsLoad → State × CmdRes
  | none => (s, .fin 0x2008 [])
  | some l => if part = 3 then loadEnd s n (l.bytes ++ bs) else (modNd s n (loadMore l part seq bs), .fin 0 (words [0]))
theorem mstabRun_eq (hn : n < 64) (hp : part < 4) (hb : bs.length = 256) (hr : hasRights s m 2 rWRITE = true) :
    mstabRun seq s m (le 4 (n + 256 * part) ++ bs) =
      if part = 0 then (modNd (loadDrop s) n (loadOpen m seq s.clk.now bs), .fin 0 (words [0]))
      else partTaken s n part seq bs (loadFits s n m part seq) := by
  have hw : word (le 4 (n + 256 * part) ++ bs) 0 = n + 256 * part := word_le4_append _ bs (by omega)
  have hlo : (n + 256 * part) % 64 = n := by omega
  have hhi : (n + 256 * part) / 256 % 4 = part := by omega
  have hd : (le 4 (n + 256 * part) ++ bs).drop 4 = bs := List.drop_left' (le_length 4 _)
  have hk : onlyBits 0x33F (n + 256 * part) = true :=
    onlyBits_fields (k := 8) (m := 0x3F) (n := 3) (by decide) (by omega) (onlyBits_low 6 n hn) (onlyBits_low 2 part hp)
  simp only [mstabRun, checked, firstFail, hw, hlo, hhi, hd, hk, hr, List.length_append, le_length, hb, Nat.reduceAdd, decide_true, if_true]
  cases loadFits s n m part seq <;> rfl
end

/-- A command that is taken at once and completes with any status: beside its effect carriers alone change. -/
theorem goes_answered_quiet {i : Instr} {s u v : State} {e : CmdEntry} {op st : Nat} {pl : Bytes} {body : State → Nat → Bytes → State × CmdRes}
    (hi : exec i s = finishD s (command s e op body)) (h : takesNow s e = true) (hb : body (taken s e op) e.master e.payload = (u, .fin st pl)) (hv : quiet v u)
    (hp : v.pending = s.pending := by rfl) (hd : v.ddr = s.ddr := by rfl) (hm : v.dmp = s.dmp := by rfl) (hc : v.clk = s.clk := by rfl)
    (hop : opcodes.contains op = true := by decide) : goes i s (fun t => answered s t e op st pl ∧ quiet v t) := by
  obtain ⟨ha, hq⟩ := command_fin op body h hb hop
  have hps : ps u = ps s := by
    unfold quiet at hv
    rw [hv, ps, ps, hc]
  refine goes_quiet hi (hv.trans hq) ⟨?_, hv.trans hq⟩ hp hd hm
  unfold answered cplOf at *
  rwa [hps] at ha

section
variable {s : State} {e : CmdEntry} {n part : Nat} {bs : Bytes} (h : takesNow s e = true) (hn : n < 64) (hp : part < 4)
  (hpl : e.payload = le 4 (n + 256 * part) ++ bs) (hb : bs.length = 256) (hr : hasRights s e.master 2 rWRITE = true)
theorem loadFits_taken (op m : Nat) (seq : BitVec 32) : loadFits (taken s e op) n m part seq = loadFits s n m part seq := by
  unfold loadFits
  rw [ndOf_taken]
theorem tabAxesOk_taken (op : Nat) : tabAxesOk (taken s e op) n = tabAxesOk s n :=
  tabAxesOk_same (par_taken s e op) (axes_of_quiet (quiet_taken s e op)) n
include hn hp hpl hb hr
/-- The body of a part of MSTAB_LOAD where it executes. -/
theorem mstabRun_taken : mstabRun e.seq (taken s e 0x0407) e.master e.payload =
    if part = 0 then (modNd (loadDrop (taken s e 0x0407)) n (loadOpen e.master e.seq s.clk.now bs), .fin 0 (words [0]))
    else partTaken (taken s e 0x0407) n part e.seq bs (loadFits s n e.master part e.seq) := by
  rw [hpl, mstabRun_eq hn hp hb (by simpa using hr), loadFits_taken, clk_taken]
include h
theorem mstabLoad_opens (h0 : part = 0) :
    completes (.mstabLoad e) s e 0x0407 (words [0]) (quiet (modNd (loadDrop s) n (loadOpen e.master e.seq s.clk.now bs))) := by
  have hx := (mstabRun_taken hn hp hpl hb hr).trans (if_pos h0)
  have hv := quiet_modNd (quiet_loadDrop (quiet_taken s e 0x0407)) n (loadOpen e.master e.seq s.clk.now bs)
  have hd := loadDrop_eq s
  exact completes_quiet rfl h hx hv (fun t ht => hv.trans ht) (by rw [hd]; rfl) (by rw [hd]; rfl) (by rw [hd]; rfl) (by rw [hd]; rfl)
theorem mstabLoad_strays (h0 : part ≠ 0) (hf : loadFits s n e.master part e.seq = none) :
    goes (.mstabLoad e) s (fun t => answered s t e 0x0407 0x2008 [] ∧ quiet s t) := by
  have hx := (mstabRun_taken hn hp hpl hb hr).trans (if_neg h0)
  rw [hf] at hx
  exact goes_answered rfl h hx
variable {l : MsLoad} (h0 : part ≠ 0) (hf : loadFits s n e.master part e.seq = some l)
include h0 hf
theorem mstabLoad_extends (h3 : part < 3) : completes (.mstabLoad e) s e 0x0407 (words [0]) (quiet (modNd s n (loadMore l part e.seq bs))) := by
  have hx := (mstabRun_taken hn hp hpl hb hr).trans (if_neg h0)
  rw [hf, partTaken, if_neg (Nat.ne_of_lt h3)] at hx
  have hv := quiet_modNd (quiet_taken s e 0x0407) n (loadMore l part e.seq bs)
  exact completes_quiet rfl h hx hv fun t ht => hv.trans ht
omit h in
/-- The last part brings the check of the whole image. -/
theorem mstabRun_last (h3 : part = 3) : mstabRun e.seq (taken s e 0x0407) e.master e.payload = loadEnd (taken s e 0x0407) n (l.bytes ++ bs) := by
  rw [mstabRun_taken hn hp hpl hb hr, if_neg h0, hf, partTaken, if_pos h3]
/-- An image that is refused ends the load. -/
theorem mstabLoad_refused {st : Nat} (h3 : part = 3) (hx : loadEnd (taken s e 0x0407) n (l.bytes ++ bs) = (loadDrop (taken s e 0x0407), .fin st [])) :
    goes (.mstabLoad e) s (fun t => answered s t e 0x0407 st [] ∧ quiet (loadDrop s) t) := by
  have hd := loadDrop_eq s
  exact goes_answered_quiet rfl h ((mstabRun_last hn hp hpl hb hr h0 hf h3).trans hx) (quiet_loadDrop (quiet_taken s e 0x0407))
    (by rw [hd]) (by rw [hd]) (by rw [hd]) (by rw [hd])
variable (h3 : part = 3) (hg : tabOk (l.bytes ++ bs) = true) (hs : tabAxesOk s n = true)
include h3 hg hs
theorem mstabLoad_kept (hi : (ndOf s n).integrated = false) :
    completes (.mstabLoad e) s e 0x0407 (words [1]) (quiet (imageTaken s n (l.bytes ++ bs))) := by
  have hx := (mstabRun_last hn hp hpl hb hr h0 hf h3).trans (loadEnd_good hn hg ((tabAxesOk_taken _).trans hs))
  rw [ndOf_taken, hi, if_neg Bool.false_ne_true] at hx
  have hv := (quiet_imageTaken (quiet_taken s e 0x0407) n (l.bytes ++ bs)).trans (quiet_sendItem _ (.microstep (Fin.ofNat 64 n) (l.bytes ++ bs)))
  have hk := imageTaken_frame s n (l.bytes ++ bs)
  exact completes_quiet rfl h hx hv (fun t ht => hv.trans ht) (by rw [hk]) (by rw [hk]) (by rw [hk]) (by rw [hk])
theorem mstabLoad_sends (hi : (ndOf s n).integrated = true) :
    completesLater (.mstabLoad e) s e (.mstab n) (ImageSent s n (l.bytes ++ bs)) := by
  have hx := (mstabRun_last hn hp hpl hb hr h0 hf h3).trans (loadEnd_good hn hg ((tabAxesOk_taken _).trans hs))
  rw [ndOf_taken, hi, if_pos rfl] at hx
  have hv := (quiet_imageTaken (quiet_taken s e 0x0407) n (l.bytes ++ bs)).trans (quiet_sendItem _ (.microstep (Fin.ofNat 64 n) (l.bytes ++ bs)))
  have hsent := imageSent_imageSend hn hv
  have hm : (imageSend (imageTold (taken s e 0x0407) n (l.bytes ++ bs)) n).mbs = (taken s e 0x0407).mbs := (mbs_imageSend _ n).trans (mbs_imageTold _ n _)
  exact completesLater_quiet rfl h hx hm hsent.frame fun t ht => hsent.along ht
end

end Sys2Proof.Machine

/-- Settles O13: part 0 opens a load, a part that continues none is turned away, and of a load that it continues the last part brings the check of the
image (`loadEnd_good`). -/
theorem microstepTableLoads : Obligations.MicrostepTableLoads := by
  intro e s n part bs h hn hp hpl hb hr
  refine ⟨mstabLoad_opens h hn hp hpl hb hr, mstabLoad_strays h hn hp hpl hb hr, fun l hf h0 => ?_⟩
  refine ⟨mstabLoad_extends h hn hp hpl hb hr h0 hf, fun h3 hg => ?_, fun h3 hg hs => ?_, mstabLoad_kept h hn hp hpl hb hr h0 hf, fun h3 hg hs hi => ?_⟩
  · exact mstabLoad_refused h hn hp hpl hb hr h0 hf h3 (loadEnd_range hg)
  · exact mstabLoad_refused h hn hp hpl hb hr h0 hf h3 (loadEnd_cond hg ((tabAxesOk_taken _).trans hs))
  · obtain ⟨t, hx, hw, ht⟩ := mstabLoad_sends h hn hp hpl hb hr h0 hf h3 hg hs hi
    exact ⟨t, hx, hw, ht.frame, ht.node, ht.others, ht.branches, ht.asked⟩
end

section
/-! The commands that queue moves (R281, R287, R292, R395): the status of a move where carriers alone differ, the entry that joins the queue of an
axis, and the one that joins the path of a group. -/
open Sys2Proof Sys2Proof.Machine
namespace Sys2Proof.Machine

/-! ### The end of an override and the status of a move where carriers alone differ -/

section
variable {s t : State} (h : quiet s t)
include h
theorem quiet.symm : quiet t s := by
  unfold quiet at *
  rw [h]
/-- What reads no carrier is the same in states that differ in carriers alone. -/
theorem quiet.reads {β : Type} (p : State → β)
    (hp : ∀ mbs log qspi hed cans pair, p { s with mbs := mbs, log := log, qspi := qspi, hed := hed, cans := cans, pair := pair } = p s := by
      exact fun _ _ _ _ _ _ => rfl) : p t = p s := by
  unfold quiet at h
  rw [h]
  exact hp _ _ _ _ _ _
/-- States that differ in carriers alone differ so behind changes of carriers. -/
theorem quiet.behind {u v : State} (hs : quiet s u) (ht : quiet t v) : quiet u v := hs.symm.trans (h.trans ht)
theorem quiet_boostStart (a : Nat) : quiet (boostStart s a) (boostStart t a) := by
  have hp : ps t = ps s := h.reads ps
  unfold boostStart
  simp only [axOf_of_quiet h a, hp, boostOn_same hp]
  split
  · exact quiet_modAx h a _
  · exact (quiet_modAx (quiet_modAx h a _) a _).behind (quiet_raise _ _ _ _) (quiet_raise _ _ _ _)
theorem quiet_enableReset (a : Nat) : quiet (enableReset s a) (enableReset t a) := by
  have hn : nEff t a = nEff s a := h.reads (nEff · a)
  unfold enableReset
  rw [hn]
  exact quiet_boostStart (quiet_modAx (quiet_modAx h a _) a _) a
theorem quiet_ovrLeave (a : Nat) : quiet (ovrLeave s a) (ovrLeave t a) := by
  unfold ovrLeave ovrStop
  rw [axOf_of_quiet h a]
  split
  · exact h
  · simp only [if_true]
    exact quiet_enableReset ((quiet_modAx h a _).behind (quiet_completeWaits _ _ _ _) (quiet_completeWaits _ _ _ _)) a
theorem quiet_membersLeft (g : Nat) : quiet (membersLeft s g) (membersLeft t g) := by
  rw [membersLeft, membersLeft, grpMembers_of_par (par_of_quiet h)]
  exact List.foldl_rel h fun a _ u v hq => quiet_ovrLeave hq a
theorem descBase_of_quiet (a : Nat) (d : Desc) : descBase t a d = descBase s a d := h.reads (descBase · a d)
theorem descStatus_of_quiet (a : Nat) (d : Desc) (b : Option Int) (n : Nat) (c : Bool) : descStatus t a d b n c = descStatus s a d b n c :=
  h.reads (descStatus · a d b n c)
theorem grpDescs_of_quiet (g : Nat) (pl : Bytes) : grpDescs t g pl = grpDescs s g pl := h.reads (grpDescs · g pl)
theorem grpStatus_of_quiet (g : Nat) (ds : List (Nat × Desc)) : grpStatus t g ds = grpStatus s g ds := h.reads (grpStatus · g ds)
end

/-! ### What the end of an override leaves of its axis (R395) -/

section
variable (s : State) (a : Nat)
theorem ovr_ovrLeave : (axOf (ovrLeave s a) a).md.ovr = none := by
  unfold ovrLeave ovrStop
  split
  next h => exact h
  next => rw [if_pos rfl, axOf_enableReset, axOf_overrideEnds, axOf_modMd]
theorem queue_ovrLeave (k : Nat) : (axOf (ovrLeave s a) k).prof.queue = (axOf s k).prof.queue := by
  by_cases hk : k = a
  · subst hk
    unfold ovrLeave ovrStop
    split
    · rfl
    · rw [if_pos rfl, axOf_enableReset, axOf_overrideEnds, axOf_modMd]
      rfl
  · rw [ovrLeave, (axisTurn_ovrStop s a true).1.2 k hk]

/-! ### MOVE (R281, R282, R287) -/

theorem md_queueDrop : (axOf (queueDrop s a) a).md = (axOf s a).md := by
  unfold queueDrop
  simp only []
  split
  · rfl
  · rw [axOf_sendItem, axOf_raise, axOf_modProf]
/-- The queue of an axis that a new entry joins: as it stands, or emptied (R287). -/
def madeRoom (replace : Bool) : State := if replace then queueDrop s a else s
theorem axisFrame_madeRoom (r : Bool) : axisFrame a s (madeRoom s a r) := (axisFrames a).ite (axisTurn_queueDrop s a).1 ((axisFrames a).refl s)
theorem idleFrame_madeRoom (r : Bool) : idleFrame s (madeRoom s a r) := idleFrames.ite (idleFrame_queueDrop s a) (idleFrames.refl s)
theorem queue_madeRoom (r : Bool) : (axOf (madeRoom s a r) a).prof.queue = if r then [] else (axOf s a).prof.queue := by
  cases r
  · rfl
  · exact queue_queueDrop s a
theorem md_madeRoom (r : Bool) : (axOf (madeRoom s a r) a).md = (axOf s a).md := by
  cases r
  · rfl
  · exact md_queueDrop s a
theorem axisFrame_moveAdd (e : MoveEntry) (r : Bool) : axisFrame a s (moveAdd s a e r) :=
  (axisFrames a).trans ((axisFrames a).trans (axisFrame_madeRoom s a r) (axisFrame_modAx _ a _)) ((axisFrames a).item _ _)
theorem idleFrame_moveAdd_either (e : MoveEntry) (r : Bool) : idleFrame s (moveAdd s a e r) :=
  idleFrames.trans (idleFrames.trans (idleFrame_madeRoom s a r) (idleFrame_modAx _ a _)) (idleFrames.item _ _)
theorem axOf_moveAdd_either (e : MoveEntry) (r : Bool) : axOf (moveAdd s a e r) a =
    { axOf (madeRoom s a r) a with prof := { (axOf (madeRoom s a r) a).prof with queue := (axOf (madeRoom s a r) a).prof.queue ++ [e], limStop := false } } :=
  (axOf_sendItem _ _ _).trans (axOf_modProf (madeRoom s a r) a _)

/-- An axis that a move has joined: its output override ends, and the entry of the move is the last of its queue, or the only one. -/
def movedAxis (d : Desc) : State := moveAdd (ovrLeave s a) a (descEntry d (descBase (ovrLeave s a) a d)) d.replace
theorem axisFrame_movedAxis (d : Desc) : axisFrame a s (movedAxis s a d) := (axisFrames a).trans (axisTurn_ovrStop s a true).1 (axisFrame_moveAdd _ a _ _)
/-- What stands of an axis whose queue an entry has joined. -/
structure MovedAxis (x : Axis) (replace : Bool) (e : MoveEntry) (y : Axis) : Prop where
  ovr : y.md.ovr = none
  limStop : y.prof.limStop = false
  st : y.sm.st = x.sm.st
  queue : y.prof.queue = (if replace then [] else x.prof.queue) ++ [e]
theorem movedAxis_moved (d : Desc) : MovedAxis (axOf s a) d.replace (descEntry d (descBase (ovrLeave s a) a d)) (axOf (movedAxis s a d) a) := by
  have hi : idleFrame s (movedAxis s a d) := idleFrames.trans (idleFrame_ovrStop s a true) (idleFrame_moveAdd_either _ a _ _)
  have hx := axOf_moveAdd_either (ovrLeave s a) a (descEntry d (descBase (ovrLeave s a) a d)) d.replace
  refine ⟨?_, ?_, by rw [hi.sm a], ?_⟩ <;> rw [movedAxis, hx]
  · exact (congrArg AxMod.ovr (md_madeRoom _ a _)).trans (ovr_ovrLeave s a)
  · dsimp only
    rw [queue_madeRoom, queue_ovrLeave]
end

/-- The status of a move of an axis, judged behind the end of its output override (R282, R395). -/
def moveStatus (s : State) (a : Nat) (d : Desc) : Nat :=
  descStatus (ovrLeave s a) a d (descBase (ovrLeave s a) a d) (axOf (ovrLeave s a) a).prof.queue.length true
theorem moveStatus_of_quiet {s t : State} (h : quiet s t) (a : Nat) (d : Desc) : moveStatus t a d = moveStatus s a d := by
  have hq := quiet_ovrLeave h a
  rw [moveStatus, descStatus_of_quiet hq, descBase_of_quiet hq, axOf_of_quiet hq]
  rfl
theorem moveRun_eq {s : State} {m a : Nat} {bs : Bytes} (ha : a < 128) (hb : bs.length = 20) (hr : hasRights s m (axTarget a) rMOVE = true)
    (hs : moveStatus s a (descOf bs) = 0) : moveRun s m (le 4 a ++ bs) = (movedAxis s a (descOf bs), .fin 0 []) := by
  have hw : word (le 4 a ++ bs) 0 = a := word_le4_append a bs (by omega)
  have hd : (le 4 a ++ bs).drop 4 = bs := List.drop_left' (le_length 4 a)
  have hk : onlyBits 0x7F a = true := onlyBits_low 7 a ha
  have hc (r : State × CmdRes) : checked s (axisChecks s m (le 4 a ++ bs) 24 0x7F rMOVE) r = r := by
    simp [checked, firstFail, axisChecks, hw, Nat.mod_eq_of_lt ha, hk, hr, hb]
  unfold moveRun
  simp only [hw, hd, hc, Nat.mod_eq_of_lt ha]
  exact if_pos hs
theorem move_completes {s : State} {e : CmdEntry} {a : Nat} {bs : Bytes} (h : takesNow s e = true) (ha : a < 128) (hpl : e.payload = le 4 a ++ bs)
    (hb : bs.length = 20) (hr : hasRights s e.master (axTarget a) rMOVE = true) (hs : moveStatus s a (descOf bs) = 0) :
    completes (.move e) s e 0x0701 [] (fun t => axisFrame a s t ∧
      MovedAxis (axOf s a) (descOf bs).replace (descEntry (descOf bs) (descBase (ovrLeave s a) a (descOf bs))) (axOf t a)) := by
  have ht := quiet_taken s e 0x0701
  have hx : moveRun (taken s e 0x0701) e.master e.payload = (movedAxis (taken s e 0x0701) a (descOf bs), .fin 0 []) := by
    rw [hpl]
    exact moveRun_eq ha hb (by simpa using hr) ((moveStatus_of_quiet ht a _).trans hs)
  have hf := axisFrame_movedAxis (taken s e 0x0701) a (descOf bs)
  have hm := movedAxis_moved (taken s e 0x0701) a (descOf bs)
  rw [axOf_taken, descBase_of_quiet (quiet_ovrLeave ht a)] at hm
  exact completes_quiet rfl h hx (hf.along ht (.refl _)).1 fun t hv => ⟨hf.along ht hv, by rwa [axOf_of_quiet hv]⟩

/-! ### GROUP_MOVE (R281, R292) -/

section
variable (s : State) (g : Nat)
theorem idleFrame_membersLeft : idleFrame s (membersLeft s g) := idleFrames.loop _ (fun t a => idleFrame_ovrStop t a true) s
theorem grps_membersLeft : (membersLeft s g).grps = s.grps := forEach_leaves State.grps fun t a _ => (axisTurn_ovrStop t a true).1.grps
theorem axOf_membersLeft {a : Nat} (ha : a ∉ grpMembers s g) : axOf (membersLeft s g) a = axOf s a :=
  forEach_leaves (fun t => axOf t a) fun t b hb => (axisTurn_ovrStop t b true).1.2 a fun he => ha (he ▸ hb)
theorem queue_membersLeft (a : Nat) : (axOf (membersLeft s g) a).prof.queue = (axOf s a).prof.queue :=
  forEach_leaves (fun t => (axOf t a).prof.queue) fun t b _ => queue_ovrLeave t b a
theorem queue_grpDrop : (grpOf (grpDrop s g) g).queue = [] := by
  unfold grpDrop
  simp only []
  split
  next h => exact h
  next =>
    have hi (t : State) (c : Nat) (pl : Bytes) : grpOf (raise (grpItem t g) c g pl) g = grpOf t g := rfl
    rw [hi, grpOf_modGrp]
theorem members_grpDescs (pl : Bytes) : (grpDescs s g pl).map (·.1) = grpMembers s g := by
  exact List.ext_getElem (by simp [grpDescs]) fun i _ _ => by simp [grpDescs]

/-- The path of a group that a new entry joins: as it stands, or emptied (R292). -/
def pathRoom (replace : Bool) : State := if replace then grpDrop s g else s
theorem idleFrame_pathRoom (r : Bool) : idleFrame s (pathRoom s g r) := idleFrames.ite (idleFrame_grpDrop s g) (idleFrames.refl s)
theorem axes_pathRoom (r : Bool) : (pathRoom s g r).axes = s.axes := by
  cases r
  · rfl
  · exact axes_grpDrop s g
theorem queue_pathRoom (r : Bool) : (grpOf (pathRoom s g r) g).queue = if r then [] else (grpOf s g).queue := by
  cases r
  · rfl
  · exact queue_grpDrop s g
theorem grpOf_pathRoom_other (r : Bool) {k : Nat} (hk : k ≠ g) : grpOf (pathRoom s g r) k = grpOf s k := by
  cases r
  · rfl
  · exact grpOf_grpDrop_other s g hk

/-- The descriptors of a group move name whether its entry replaces the path: the first of them does (R292). -/
def pathReplaced (ds : List (Nat × Desc)) : Bool := ((ds.head?.map (·.2)).getD (descOf [])).replace
/-- What stands behind a move of a group that has joined its path. -/
structure MovedGroup (s : State) (g : Nat) (ds : List (Nat × Desc)) (t : State) : Prop where
  frame : idleFrame s t
  others : ∀ k, k ≠ g → grpOf t k = grpOf s k
  qdec : (grpOf t g).qdec = none
  queues : ∀ a, (axOf t a).prof.queue = (axOf s a).prof.queue
  rest : ∀ a, a ∉ grpMembers s g → axOf t a = axOf s a
  path : ∃ x, (grpOf t g).queue = (if pathReplaced ds then [] else (grpOf s g).queue) ++ [x] ∧ x.mem.map (·.1) = ds.map (·.1)
/-- A group that a move has joined: its members' output overrides end, and the entry of the move is the last of its path, or the only one. -/
def movedGroup (ds : List (Nat × Desc)) : State := grpAdd (membersLeft s g) g ds
theorem movedGroup_moved (ds : List (Nat × Desc)) : MovedGroup s g ds (movedGroup s g ds) := by
  have hl := grps_membersLeft s g
  have hax : (movedGroup s g ds).axes = (membersLeft s g).axes := axes_pathRoom (membersLeft s g) g (pathReplaced ds)
  have hg (t : State) (k : Nat) : grpOf (grpItem t g) k = grpOf t k := rfl
  refine ⟨?_, fun k hk => ?_, ?_, fun a => ?_, fun a ha => ?_, ?_⟩
  · exact idleFrames.trans (idleFrames.trans (idleFrames.trans (idleFrame_membersLeft s g) (idleFrame_pathRoom _ g (pathReplaced ds)))
      (idleFrame_modGrp _ g _)) (idleFrame_grpItem _ g)
  · rw [movedGroup, grpAdd, hg, grpOf_modGrp_other _ _ hk, ← grpOf_of_grps hl]
    exact grpOf_pathRoom_other _ g (pathReplaced ds) hk
  · rw [movedGroup, grpAdd, hg, grpOf_modGrp]
  · rw [axOf_of_axes hax, queue_membersLeft]
  · rw [axOf_of_axes hax, axOf_membersLeft s g ha]
  · rw [movedGroup, grpAdd, hg, grpOf_modGrp, ← grpOf_of_grps hl]
    exact ⟨_, congrArg (· ++ _) (queue_pathRoom _ g (pathReplaced ds)), by simp⟩
variable {s g}
/-- What a move of a group leaves it leaves also where carriers alone change before and behind it. -/
theorem MovedGroup.along {u t v : State} {ds : List (Nat × Desc)} (h : MovedGroup u g ds t) (hu : quiet s u) (hv : quiet t v) : MovedGroup s g ds v := by
  have hp : grpMembers u g = grpMembers s g := grpMembers_of_par (par_of_quiet hu) g
  have ha (k : Nat) : axOf v k = axOf t k := axOf_of_quiet hv k
  have hb (k : Nat) : axOf u k = axOf s k := axOf_of_quiet hu k
  have hc (k : Nat) : grpOf v k = grpOf t k := grpOf_of_grps (grps_of_quiet hv) k
  have hd (k : Nat) : grpOf u k = grpOf s k := grpOf_of_grps (grps_of_quiet hu) k
  obtain ⟨⟨hf, hs⟩, ho, hq, hx, hr, hy⟩ := h
  refine ⟨⟨?_, fun k => by rw [ha, hs, hb]⟩, fun k hk => by rw [hc, ho k hk, hd], by rw [hc, hq], fun k => by rw [ha, hx, hb],
    fun k hk => by rw [ha, hr k (by rwa [hp]), hb], by rwa [hc, ← hd]⟩
  unfold quiet at *
  rw [hv, hf, hu]
end

/-- The status of a move of a group, judged behind the end of its members' output overrides (R282, R292, R395). -/
def groupMoveStatus (s : State) (g : Nat) (pl : Bytes) : Nat := grpStatus (membersLeft s g) g (grpDescs (membersLeft s g) g pl)
theorem groupMoveStatus_of_quiet {s t : State} (h : quiet s t) (g : Nat) (pl : Bytes) : groupMoveStatus t g pl = groupMoveStatus s g pl := by
  have hq := quiet_membersLeft h g
  rw [groupMoveStatus, grpStatus_of_quiet hq, grpDescs_of_quiet hq]
  rfl
theorem groupMoveRun_eq {s : State} {m g n : Nat} {bs : Bytes} (hg : g < 16) (hn : n < 256) (h0 : n ≠ 0) (hm : n = (grpMembers s g).length)
    (hb : bs.length = 20 * n) (hr : ∀ a ∈ grpMembers s g, hasRights s m (axTarget a) rMOVE = true)
    (hs : groupMoveStatus s g (le 4 (g + 256 * n) ++ bs) = 0) : groupMoveRun s m (le 4 (g + 256 * n) ++ bs) =
      (movedGroup s g (grpDescs (membersLeft s g) g (le 4 (g + 256 * n) ++ bs)), .fin 0 []) := by
  have hw : word (le 4 (g + 256 * n) ++ bs) 0 = g + 256 * n := word_le4_append _ bs (by omega)
  have hlo : (g + 256 * n) % 16 = g := by omega
  have hhi : (g + 256 * n) / 256 % 256 = n := by omega
  have hk : onlyBits 0xFF0F (g + 256 * n) = true :=
    onlyBits_fields (k := 8) (m := 0xF) (n := 0xFF) (by decide) (by omega) (onlyBits_low 4 g hg) (onlyBits_low 8 n hn)
  have ha : (grpMembers s g).all (fun a => hasRights s m (axTarget a) rMOVE) = true := List.all_eq_true.mpr hr
  have hl : (le 4 (g + 256 * n) ++ bs).length = 4 + 20 * n := by rw [List.length_append, le_length, hb]
  have h4 : 4 ≤ 4 + 20 * n := by omega
  have hc : ¬(n ≠ (grpMembers s g).length ∨ n = 0) := fun h => h.elim (· hm) h0
  unfold groupMoveRun
  simp only [hw, hlo, hhi, checked, firstFail, hl, h4, hk, ha, decide_true, Bool.and_self, if_true, if_neg hc]
  exact if_pos hs
theorem groupMove_completes {s : State} {e : CmdEntry} {g n : Nat} {bs : Bytes} (h : takesNow s e = true) (hg : g < 16) (hn : n < 256) (h0 : n ≠ 0)
    (hm : n = (grpMembers s g).length) (hpl : e.payload = le 4 (g + 256 * n) ++ bs) (hb : bs.length = 20 * n)
    (hr : ∀ a ∈ grpMembers s g, hasRights s e.master (axTarget a) rMOVE = true) (hs : groupMoveStatus s g e.payload = 0) :
    completes (.groupMove e) s e 0x0702 [] (MovedGroup s g (grpDescs (membersLeft s g) g e.payload)) := by
  have ht := quiet_taken s e 0x0702
  have hx : groupMoveRun (taken s e 0x0702) e.master e.payload =
      (movedGroup (taken s e 0x0702) g (grpDescs (membersLeft s g) g e.payload), .fin 0 []) := by
    rw [← groupMoveStatus_of_quiet ht, hpl] at hs
    rw [← grpDescs_of_quiet (quiet_membersLeft ht g), hpl]
    exact groupMoveRun_eq hg hn h0 (by simpa using hm) hb (by simpa using hr) hs
  have hv := movedGroup_moved (taken s e 0x0702) g (grpDescs (membersLeft s g) g e.payload)
  exact completes_quiet rfl h hx (hv.along ht (.refl _)).frame.1 fun t hq => hv.along ht hq

end Sys2Proof.Machine

/-- Settles O17: a move is judged and based behind the end of its axis's override, and joins the queue of that axis (`movedAxis_moved`); a group move
is judged so for every member, and its one entry joins the path of the group (`movedGroup_moved`). -/
theorem movesQueue : Obligations.MovesQueue := by
  refine ⟨fun e s a bs h ha hpl hb hr hs => ?_, fun e s g n bs h hg hn h0 hm hpl hb hr hs => ?_⟩
  · obtain ⟨t, hx, hj, ⟨hq, ho⟩, hy⟩ := move_completes h ha hpl hb hr hs
    exact ⟨t, hx, hj, hq, ho, hy.ovr, hy.limStop, hy.st, hy.queue⟩
  · obtain ⟨t, hx, hj, hy⟩ := groupMove_completes h hg hn h0 hm hpl hb hr hs
    obtain ⟨x, hx', hmem⟩ := hy.path
    rw [members_grpDescs, grpMembers_of_par (idleFrame_membersLeft s g).job.unit.par] at hmem
    exact ⟨t, hx, hj, hy.frame.1, hy.others, hy.qdec, fun a => ⟨hy.queues a, hy.rest a⟩, x, hx', hmem⟩
end

section
/-! The homing command (R311 to R313), the rows of the switch inputs (R303 to R310, R317) and the loss of feedback (R210). -/
open Sys2Proof Sys2Proof.Machine
namespace Sys2Proof.Machine

/-! ### HOME (R311 to R313) -/

section
variable (s : State) (a : Nat)
/-- A change of state of an axis without an output override changes its state machine alone. -/
theorem axOf_setSt_without_ovr {st : AxSt} (ho : (axOf s a).md.ovr = none) (hs : (axOf s a).sm.st ≠ st) :
    axOf (setSt s a st) a = { axOf s a with sm := onceAdd 0x610E { (axOf s a).sm with st := st, changed := true } } := by
  have hm : axOf (modSm s a fun m => onceAdd 0x610E { m with st := st, changed := true }) a = _ := axOf_modAx s a _
  unfold setSt ovrStop axItem
  rw [if_neg hs]
  simp only [hm, ho]
  exact hm

/-- An axis about to home: its output override ends, and its queue is discarded as by a replacement (R289, R311). -/
def homeReady : State := queueDrop (ovrLeave s a) a
theorem axisTurn_homeReady : axisTurn a s (homeReady s a) := (axisTurns a).trans (axisTurn_ovrStop s a true) (axisTurn_queueDrop _ a)
theorem par_homeReady : (homeReady s a).par = s.par := (axisTurn_homeReady s a).1.path.par
theorem ovr_homeReady : (axOf (homeReady s a) a).md.ovr = none := (congrArg AxMod.ovr (md_queueDrop _ a)).trans (ovr_ovrLeave s a)
theorem sm_homeReady : (axOf (homeReady s a) a).sm = (axOf s a).sm :=
  (idleFrames.trans (idleFrame_ovrStop s a true) (idleFrame_queueDrop _ a)).sm a

/-- The record of a sequence that starts is taken. -/
def homeTaken : State := modHm (homeReady s a) a (fun _ => hmStart (homeReady s a) a (axOf (homeReady s a) a))
/-- The feedback record at the start of a sequence: an encoder of class 1 or 2 is no longer referenced (R311). -/
def unreferenced (f : AxFb) : AxFb := { f with refd := if axEnc s a = 1 ∨ axEnc s a = 2 then false else f.refd }
/-- The reference is given up, and mirrored. -/
def homeUnreferenced : State :=
  let t := modFb (homeTaken s a) a (unreferenced s a)
  sendItem t (offsBody a .flags (axOf t a).fb 0)
/-- An axis whose homing sequence has started (R311). -/
def homedAxis : State := setSt (homeUnreferenced s a) a .moving

theorem axisFrame_homedAxis : axisFrame a s (homedAxis s a) :=
  ((axisTurns a).trans ((axisTurns a).trans ((axisTurns a).trans ((axisTurns a).trans (axisTurn_homeReady s a) (axisTurn_modHm _ a _))
    (axisTurn_modAx _ a _)) (axisTurn_sendItem _ a _)) (axisTurn_setSt _ a _)).1
theorem axOf_homeUnreferenced : axOf (homeUnreferenced s a) a =
    { axOf (homeReady s a) a with hm := hmStart (homeReady s a) a (axOf (homeReady s a) a), fb := unreferenced s a (axOf (homeReady s a) a).fb } := by
  have hm := axOf_modHm (homeReady s a) a fun _ => hmStart (homeReady s a) a (axOf (homeReady s a) a)
  rw [homeUnreferenced, axOf_sendItem, modFb, axOf_modAx, homeTaken, hm]
/-- A sequence starts with its back-off, with its search, or with its failure where both limits are active (R313, R315). -/
theorem hmStart_phase (x : Axis) : (hmStart s a x).phase ∈ [1, 2, 6] := by
  unfold hmStart
  extract_lets mode d back both
  cases both
  · cases back <;> simp
  · simp

/-- What stands of an axis whose homing sequence has started. -/
structure HomedAxis (y : Axis) : Prop where
  st : y.sm.st = .moving
  queue : y.prof.queue = []
  ovr : y.md.ovr = none
  mode : y.hm.mode = hmModeOf s a
  dir : y.hm.s = hmDirOf s a
  phase : y.hm.phase ∈ [1, 2, 6]
  par : y.hm.par = (List.range 7).map (fun i => pget s (0x0631 + i) a)
  refd : axEnc s a ∈ [1, 2] → y.fb.refd = false
variable {s a}
theorem refd_unreferenced (h : axEnc s a ∈ [1, 2]) (f : AxFb) : (unreferenced s a f).refd = false := by
  have he : axEnc s a = 1 ∨ axEnc s a = 2 := by simpa using h
  exact if_pos he
theorem homedAxis_homed {u : State} (h : quiet s u) (hs : (axOf u a).sm.st ≠ .moving) : HomedAxis s a (axOf (homedAxis u a) a) := by
  have hp : (homeReady u a).par = s.par := (par_homeReady u a).trans (par_of_quiet h)
  have he : axEnc u a = axEnc s a := h.reads (axEnc · a)
  have hx := axOf_homeUnreferenced u a
  have hm := axOf_setSt_without_ovr (homeUnreferenced u a) a (st := .moving) (by rw [hx]; exact ovr_homeReady u a)
    (by rw [hx]; exact fun hn => hs ((congrArg AxSm.st (sm_homeReady u a)).symm.trans hn))
  rw [hx] at hm
  rw [homedAxis, hm]
  refine ⟨(onceAdd_keeps _ _).1, queue_queueDrop _ a, ovr_homeReady u a, ?_, ?_, hmStart_phase _ a _, ?_, fun hi => refd_unreferenced (by rwa [he]) _⟩
  · exact congrArg (· % 16) (pnat_of_par hp _ a)
  · exact congrArg (if nbit · 4 then (-1 : Int) else 1) (pnat_of_par hp _ a)
  · exact List.map_congr_left fun i _ => pget_of_par hp _ a

/-- Only an ENABLED axis may home (R311). -/
theorem enabled_of_homeStatus (h : homeStatus s a = 0) : (axOf s a).sm.st = .enabled := by
  by_contra hn
  have hx : homeStatus s a = 0x9001 := if_pos (.inl hn)
  rw [hx] at h
  cases h
theorem homeRun_eq {m : Nat} (ha : a < 128) (hr : hasRights s m (axTarget a) rMOVE = true) (hs : homeStatus s a = 0) :
    homeRun s m (le 4 a) = (homedAxis s a, .fin 0 []) := by
  rw [homeRun, checked_axis ha hr, word_axis ha, Nat.mod_eq_of_lt ha]
  exact if_pos hs
theorem home_completes {e : CmdEntry} (h : takesNow s e = true) (ha : a < 128) (hpl : e.payload = le 4 a)
    (hr : hasRights s e.master (axTarget a) rMOVE = true) (hs : homeStatus s a = 0) :
    completes (.home e) s e 0x0704 [] (fun t => axisFrame a s t ∧ HomedAxis s a (axOf t a)) := by
  have ht := quiet_taken s e 0x0704
  have hst : homeStatus (taken s e 0x0704) a = 0 := (ht.reads (homeStatus · a)).trans hs
  have hb : homeRun (taken s e 0x0704) e.master e.payload = (homedAxis (taken s e 0x0704) a, .fin 0 []) := by
    rw [hpl]
    exact homeRun_eq ha (by simpa using hr) hst
  have hf := axisFrame_homedAxis (taken s e 0x0704) a
  have hx : HomedAxis s a _ := homedAxis_homed ht (by rw [enabled_of_homeStatus hst]; decide)
  exact completes_quiet rfl h hb (hf.along ht (.refl _)).1 fun t hv => ⟨hf.along ht hv, by rwa [axOf_of_quiet hv]⟩
end

/-! ### What follows a debounced change (R305 to R316) -/

/-- The state machine of an axis and the debounce records of its switch inputs. -/
def switches (x : Axis) : AxSm × Deb × Deb × Deb := (x.sm, x.inp.limP, x.inp.limN, x.inp.home)
/-- Outside one axis, its group and the carriers nothing has changed, and of the axis neither state machine nor debounce records. -/
def switchFrame (a : Nat) (s t : State) : Prop := pathFrame a s t ∧ switches (axOf t a) = switches (axOf s a)

theorem debOf_of_switches {x y : Axis} (h : switches x = switches y) (sw : SwInput) : debOf x.inp sw = debOf y.inp sw := by
  simp only [switches, Prod.mk.injEq] at h
  obtain ⟨-, hp, hn, hh⟩ := h
  cases sw
  · exact hp
  · exact hn
  · exact hh
theorem switchFrames (a : Nat) : Frame (switchFrame a) where
  carriers h := ⟨(pathFrames a).carriers h, by rw [axOf_of_quiet h.1]⟩
  trans := fun ⟨h, hx⟩ ⟨k, kx⟩ => ⟨(pathFrames a).trans h k, kx.trans hx⟩
theorem debOf_debSet (x : AxIn) (sw : SwInput) (d : Deb) : debOf (debSet x sw d) sw = d := by cases sw <;> rfl

section
variable (s : State) (a : Nat)
theorem switchFrame_modAx (f : Axis → Axis) (hf : ∀ x, switches (f x) = switches x := by exact fun _ => rfl) : switchFrame a s (modAx s a f) :=
  ⟨(axisTurn_modAx s a f).path.1, by rw [axOf_modAx, hf]⟩
theorem switchFrame_modHm (f : AxHome → AxHome) : switchFrame a s (modHm s a f) := ⟨(axisTurn_modHm s a f).path.1, by rw [axOf_modHm]; rfl⟩
theorem switchFrame_limBoth : switchFrame a s (limBoth s a) :=
  (switchFrames a).trans (switchFrame_modAx s a _) ((switchFrames a).cond _ (fun t => (switchFrames a).event t _ _ _) _)
theorem axisTurn_limBoth : axisTurn a s (limBoth s a) :=
  (axisTurns a).trans (axisTurn_modAx s a _) ((axisTurns a).cond _ (fun t => axisTurn_raise t a _ _ _) _)
theorem switchFrame_hmTrip : switchFrame a s (hmTrip s a) := by
  have hR := switchFrames a
  unfold hmTrip
  extract_lets h t
  have ht : switchFrame a s t := switchFrame_modHm s a _
  clear_value t
  have hf (c : Nat) : switchFrame a s (hmFail t a c) := hR.trans ht (switchFrame_modHm t a _)
  exact hR.ite (hf _) (hR.ite (hf _) (hR.ite (hf _) (hR.ite (hf _) (hR.trans ht (switchFrame_modHm t a _)))))
theorem switchFrame_hmLimit : switchFrame a s (hmLimit s a) := (switchFrames a).ite (switchFrame_hmTrip s a) ((switchFrames a).refl s)
theorem switchFrame_hmHomeFound (c : Int) : switchFrame a s (hmHomeFound s a c) := by
  have hR := switchFrames a
  unfold hmHomeFound
  extract_lets h t
  have ht : switchFrame a s t := hR.cond _ (fun u => switchFrame_modHm u a _) s
  clear_value t
  split
  · exact hR.ite (hR.trans ht (switchFrame_modHm t a _)) ht
  · exact ht
theorem switchFrame_hmChange (sw : SwInput) (lvl : Bool) (c : Int) : switchFrame a s (hmChange s a sw lvl c) := by
  have hR := switchFrames a
  exact hR.ite (hR.ite (hR.ite (switchFrame_modHm s a _) (hR.refl s))
    (hR.ite (hR.ite (switchFrame_hmHomeFound s a c) (switchFrame_modHm s a _)) (hR.refl s))) (hR.refl s)
theorem switchFrame_queueDrop : switchFrame a s (queueDrop s a) := by
  have hR := switchFrames a
  unfold queueDrop
  simp only []
  split
  · exact hR.refl s
  · exact hR.trans (hR.trans (switchFrame_modAx s a _) (hR.event _ _ _ _)) (hR.item _ _)
variable {s a} in
/-- The path of its group begins to stop, which changes no axis (R297). -/
theorem switchFrame_grpStop (h : inGroup s a = true) (ms : List Nat) (dec : Nat → Int) : switchFrame a s (grpStop s (axGroup s a) ms dec) := by
  have hd := pathTurn_grpDrop s a h
  have hm := pathTurn_modGrp (grpDrop s (axGroup s a)) a (by rw [inGroup_of_par hd.1.par, h])
  rw [axGroup_of_par hd.1.par] at hm
  exact ⟨((pathTurns a).trans ((pathTurns a).trans hd (hm _)) (axisTurn_sendItem _ a _).path).1, by rw [axOf_of_axes (axes_grpStop s _ ms dec)]⟩
theorem switchFrame_limitStop : switchFrame a s (limitStop s a) := by
  have hR := switchFrames a
  unfold limitStop
  split
  next h => exact hR.trans (hR.event s _ _ _) (switchFrame_grpStop (s := raise s 0x8107 a []) h _ _)
  next =>
    extract_lets s1
    have h1 : switchFrame a s s1 := hR.trans (switchFrame_queueDrop s a) (hR.event _ _ _ _)
    clear_value s1
    exact hR.ite h1 (hR.trans (hR.trans h1 (switchFrame_modAx s1 a _)) (hR.item _ _))

/-! ### DEBOUNCED_CHANGE and CHATTER_CLEAR (R303, R306) -/

/-- An axis with another debounce record of an input. -/
def debTaken (sw : SwInput) (d : Deb) : State := modAx s a (fun y => { y with inp := debSet y.inp sw d })
theorem debOf_debTaken (sw : SwInput) (d : Deb) : debOf (axOf (debTaken s a sw d) a).inp sw = d := by
  rw [debTaken, axOf_modAx]
  exact debOf_debSet _ sw d
theorem sm_debTaken (sw : SwInput) (d : Deb) : (axOf (debTaken s a sw d) a).sm = (axOf s a).sm := by rw [debTaken, axOf_modAx]
variable {s a} {sw : SwInput}
/-- Behind the change itself, what a debounced change brings leaves the debounce records and the state machine. -/
theorem swChange_ready (h : debReady s a (debOf (axOf s a).inp sw) = true) :
    switchFrame a (debTaken s a sw (debChange (ps s) (debOf (axOf s a).inp sw))) (swChange s a sw) := by
  have hR := switchFrames a
  unfold swChange
  extract_lets x d d1 was s1 s2 s3 isLim s4 hit s5
  rw [if_pos h]
  have h2 : switchFrame a s1 s2 := hR.cond _ (fun t => hR.event t _ _ _) s1
  have h3 : switchFrame a s2 s3 := hR.cond _ (fun t => hR.trans (switchFrame_hmChange t a sw _ _) (switchFrame_hmLimit _ a)) s2
  have h4 : switchFrame a s3 s4 := hR.cond _ (fun t => switchFrame_limBoth t a) s3
  have h5 : switchFrame a s4 s5 := hR.cond _ (fun t => switchFrame_limitStop t a) s4
  exact hR.trans (hR.trans (hR.trans (hR.trans h2 h3) h4) h5) (hR.item s5 _)
theorem swChange_idle (h : debReady s a (debOf (axOf s a).inp sw) = false) : swChange s a sw = s := by
  unfold swChange
  simp only [h, Bool.false_eq_true, if_false]
/-- The chatter flag of an input clears, and the record of LIMIT_BOTH follows (R306, R310). -/
def chatOff (s : State) (a : Nat) (sw : SwInput) : State := limBoth (debTaken s a sw { debOf (axOf s a).inp sw with chat := false }) a
theorem axisFrame_chatOff : axisFrame a s (chatOff s a sw) := ((axisTurns a).trans (axisTurn_modAx s a _) (axisTurn_limBoth _ a)).1
theorem debOf_chatOff : debOf (axOf (chatOff s a sw) a).inp sw = { debOf (axOf s a).inp sw with chat := false } :=
  (debOf_of_switches (switchFrame_limBoth _ a).2 sw).trans (debOf_debTaken s a sw _)
theorem chatClear_quiet (hc : (debOf (axOf s a).inp sw).chat = true) (hd : (axOf s a).sm.decoded = true)
    (ht : 64 ≤ psDiff (ps s) (debOf (axOf s a).inp sw).lastChg) :
    chatClear s a sw = sendItem (chatOff s a sw) (.debounced (Fin.ofNat 128 a) sw (debOf (axOf s a).inp sw).lvl (debOf (axOf s a).inp sw).cEdge false) :=
  if_pos ⟨hc, hd, ht⟩
theorem chatClear_idle (hc : (debOf (axOf s a).inp sw).chat = false) : chatClear s a sw = s := by
  unfold chatClear
  simp only [hc, Bool.false_eq_true, false_and, if_false]

/-! ### HARD_STOP_DETECT (R317, R321) -/

/-- An axis pressed against a hard stop: the position is captured, and the profile stands there. -/
def stoppedHard (s : State) (a : Nat) : State :=
  modProf (modHm (hmCapture s a (axOf s a).fb.cExt) a (fun h => { h with stallPs := none })) a
    (fun q => { q with q := 2 * (axOf s a).fb.pos, v := 0, posRef := (axOf s a).fb.pos, vRef := 0, aRef := 0 })
theorem axisFrame_stoppedHard : axisFrame a s (stoppedHard s a) :=
  ((axisTurns a).trans ((axisTurns a).trans (axisTurn_modHm s a _) (axisTurn_modHm _ a _)) (axisTurn_modAx _ a _)).1
theorem axOf_stoppedHard : axOf (stoppedHard s a) a =
    { axOf s a with
      hm := { (axOf s a).hm with phase := 5, next := 0, trip := none, cH := (axOf s a).fb.cExt, stallPs := none },
      prof := { (axOf s a).prof with q := 2 * (axOf s a).fb.pos, v := 0, posRef := (axOf s a).fb.pos, vRef := 0, aRef := 0 } } := by
  rw [stoppedHard, axOf_modProf, axOf_modHm, hmCapture, axOf_modHm]
theorem hardStop_found {p : BitVec 32} (hp : (axOf s a).hm.stallPs = some p) (hm : (axOf s a).hm.mode = 5)
    (hf : (axOf s a).hm.phase = 2 ∨ hmJust s (axOf s a).hm = true) (ht : hmTstop (axOf s a).hm ≤ psDiff (ps s) p + 1) :
    hardStop s a = stoppedHard s a := by
  unfold hardStop
  simp only [hp]
  exact if_pos ⟨hm, hf, ht⟩
theorem hardStop_idle (hp : (axOf s a).hm.stallPs = none) : hardStop s a = s := by
  unfold hardStop
  simp only [hp]
end

/-! ### The rows -/

section
variable {s : State} {a : AxisNo} {sw : SwInput}
theorem exec_debouncedChange : exec (.debouncedChange a sw) s = finishD s (swChange s a sw) := rfl
theorem exec_chatterClear : exec (.chatterClear a sw) s = finishD s (chatClear s a sw) := rfl
theorem exec_hardStopDetect : exec (.hardStopDetect a) s = finishD s (hardStop s a) := rfl
theorem exec_fbLost : exec (.fbLost a) s = finishD s (fbLostTake s a) := rfl
theorem debouncedChange_taken (h : debReady s a (debOf (axOf s a).inp sw) = true) : goes (.debouncedChange a sw) s (fun t =>
    pathFrame a s t ∧ debOf (axOf t a).inp sw = debChange (ps s) (debOf (axOf s a).inp sw) ∧ (axOf t a).sm = (axOf s a).sm) := by
  obtain ⟨hf, hx⟩ := swChange_ready h
  have hp := (pathFrames a).trans (axisTurn_modAx s a _).path.1 hf
  exact goes_quiet exec_debouncedChange hp.1
    ⟨hp, (debOf_of_switches hx sw).trans (debOf_debTaken s a sw _), (congrArg Prod.fst hx).trans (sm_debTaken s a sw _)⟩
theorem chatterClear_taken (hc : (debOf (axOf s a).inp sw).chat = true) (hd : (axOf s a).sm.decoded = true)
    (ht : 64 ≤ psDiff (ps s) (debOf (axOf s a).inp sw).lastChg) : goes (.chatterClear a sw) s (fun t =>
      axisFrame a s t ∧ debOf (axOf t a).inp sw = { debOf (axOf s a).inp sw with chat := false }) := by
  have hx := chatClear_quiet hc hd ht
  have hf : axisFrame a s (chatClear s a sw) := by
    rw [hx]
    exact (axisFrames a).trans axisFrame_chatOff ((axisFrames a).item _ _)
  exact goes_quiet exec_chatterClear hf.1 ⟨hf, by rw [hx]; exact debOf_chatOff⟩
theorem hardStopDetect_stops {p : BitVec 32} (hp : (axOf s a).hm.stallPs = some p) (hm : (axOf s a).hm.mode = 5)
    (hf : (axOf s a).hm.phase = 2 ∨ hmJust s (axOf s a).hm = true) (ht : hmTstop (axOf s a).hm ≤ psDiff (ps s) p + 1) :
    goes (.hardStopDetect a) s (fun t => axisFrame a s t ∧ axOf t a = axOf (stoppedHard s a) a) := by
  have hx : exec (.hardStopDetect a) s = finishD s (stoppedHard s a) := by rw [exec_hardStopDetect, hardStop_found hp hm hf ht]
  exact goes_quiet hx axisFrame_stoppedHard.1 ⟨axisFrame_stoppedHard, rfl⟩
/-- An axis that has lost its feedback: the next decode takes a new baseline (R210, R250). -/
def feedbackLost (x : Axis) : Axis := { x with sm := { x.sm with jobSince := false }, fb := { x.fb with rebase := x.fb.valid } }
theorem fbLostTake_found {a : Nat} (h : fbLostHolds s a = true) : fbLostTake s a = takeFaults (modAx s a feedbackLost) a [(0x6101, 2)] := by
  rw [fbLostTake, h, when_true]
  rfl
/-- FB_LOST of an axis without a fault takes OFF (R210). -/
theorem fbLost_off (h : fbLostHolds s a = true) (hs : (axOf s a).sm.st ∈ [AxSt.ready, .enabled, .moving, .hold]) : goes (.fbLost a) s (fun t =>
    axFrame s t ∧ (axOf t a).sm.st = .fault ∧ (axOf t a).sm.react = 2 ∧ (axOf t a).sm.fcode = 0x6101 ∧ logged t 0x6101 a) := by
  have hst : (axOf (modAx s a feedbackLost) a).sm.st = (axOf s a).sm.st := by
    rw [axOf_modAx]
    rfl
  have hf : axFrame s (fbLostTake s a) := by
    rw [fbLostTake_found h]
    exact axFrames.trans (axFrame_modAx s a feedbackLost) (axFrame_takeFaults _ a _)
  refine goes_quiet exec_fbLost hf ⟨hf, ?_⟩
  rw [← hst] at hs
  rw [fbLostTake_found h]
  obtain ⟨ht, hr, hc⟩ := takeFaults_off_sets hs 0x6101
  exact ⟨ht, hr, hc, logged_takeFaults (fun hn => absurd hs (by rw [hn]; decide)) (by decide)⟩
theorem fbLost_idle (h : fbLostHolds s a = false) : exec (.fbLost a) s = .next s := by
  rw [exec_fbLost, fbLostTake, h]
  rfl
end

end Sys2Proof.Machine

/-- Settles O19: what is read of the axis and its parameters is the same once its command is in flight, and the axis that homes is the one whose override
has ended and whose queue is empty, with the record of the sequence and without its reference (`homedAxis_homed`). -/
theorem homeStarts : Obligations.HomeStarts := by
  intro e s a h hpl ha hr hs
  obtain ⟨t, hx, hj, ⟨hq, ho⟩, hy⟩ := home_completes h ha hpl hr hs
  exact ⟨t, hx, hj, hq, ho, hy.st, hy.queue, hy.ovr, hy.mode, hy.dir, hy.phase, hy.par, hy.refd⟩

/-- Settles O41: the debounced change is taken first and what follows it leaves the records of the inputs (`swChange_ready`); the other rows by their
effect where their condition holds (`debOf_chatOff`, `axOf_stoppedHard`, `fbLost_off`) and by the idle case where it does not. -/
theorem switchAndFeedbackRows : Obligations.SwitchAndFeedbackRows := by
  intro s a sw
  refine ⟨fun h => ?_, fun h => ?_, fun hc hd ht => ?_, fun hc => ?_, fun p hp hm hf ht => ?_, fun hp => ?_, fbLost_off, fbLost_idle⟩
  · obtain ⟨t, hx, ⟨hq, ho, -⟩, hd, hs⟩ := debouncedChange_taken h
    exact ⟨t, hx, hq, ho, hd, by rw [hs]⟩
  · rw [exec_debouncedChange, swChange_idle h]
    rfl
  · obtain ⟨t, hx, ⟨hq, ho⟩, hd⟩ := chatterClear_taken hc hd ht
    exact ⟨t, hx, hq, ho, hd⟩
  · rw [exec_chatterClear, chatClear_idle hc]
    rfl
  · obtain ⟨t, hx, ⟨hq, ho⟩, hy⟩ := hardStopDetect_stops hp hm hf ht
    rw [axOf_stoppedHard] at hy
    refine ⟨t, hx, hq, ho, ?_⟩
    rw [hy]
    exact ⟨rfl, rfl, rfl, rfl, rfl, rfl⟩
  · rw [exec_hardStopDetect, hardStop_idle hp]
    rfl
end

section
/-! The Kiln (R326 to R356): what an operation on one acquisition unit or one history leaves of the rest of the part, and what it makes of its own record. -/
open Sys2Proof Sys2Proof.Machine
namespace Sys2Proof.Machine

/-! ### Frames -/

/-- Outside the Kiln and the carriers nothing has changed. -/
def kilnOnly (s t : State) : Prop := quiet { s with kiln := t.kiln } t
/-- As `kilnOnly`, and of the units at most one has changed. -/
def unitTurn (u : Nat) (s t : State) : Prop := kilnOnly s t ∧ ∀ k, k ≠ u → unOf t k = unOf s k
/-- As `kilnOnly`, and of the units and histories at most one history has changed. -/
def histTurn (a : Nat) (s t : State) : Prop := kilnOnly s t ∧ (∀ k, k ≠ a → hiOf t k = hiOf s k) ∧ t.kiln.units = s.kiln.units

theorem quiet.kiln {s t : State} (h : quiet s t) : t.kiln = s.kiln := (parts_of_quiet h).1
theorem unOf_of_kiln {s t : State} (h : t.kiln = s.kiln) (u : Nat) : unOf t u = unOf s u := by
  unfold unOf
  rw [h]
theorem hiOf_of_kiln {s t : State} (h : t.kiln = s.kiln) (a : Nat) : hiOf t a = hiOf s a := by
  unfold hiOf
  rw [h]

theorem kilnOnlys : Frame kilnOnly where
  carriers h := by
    have hq := h.1
    have hk := hq.kiln
    unfold kilnOnly quiet at *
    rw [hk, hq]
  trans h k := by
    unfold kilnOnly quiet at *
    rw [k, h]
theorem unitTurns (u : Nat) : Frame (unitTurn u) where
  carriers h := ⟨kilnOnlys.carriers h, fun k _ => unOf_of_kiln h.1.kiln k⟩
  trans := fun ⟨h, ho⟩ ⟨k, ko⟩ => ⟨kilnOnlys.trans h k, fun i hi => (ko i hi).trans (ho i hi)⟩
theorem kilnOnly_of_quiet {s t : State} (h : quiet s t) : kilnOnly s t := by
  have hk := h.kiln
  unfold kilnOnly quiet at *
  rw [hk, h]

theorem quiet_modUn {s t : State} (h : quiet s t) (u : Nat) (f : AcqU → AcqU) : quiet (modUn s u f) (modUn t u f) := by
  unfold quiet at *
  rw [h]
  rfl
theorem quiet_modHi {s t : State} (h : quiet s t) (a : Nat) (f : Hist → Hist) : quiet (modHi s a f) (modHi t a f) := by
  unfold quiet at *
  rw [h]
  rfl
/-- Two changes of a unit that agree on its record are one. -/
theorem modUn_congr {s : State} {u : Nat} {f g : AcqU → AcqU} (h : f (unOf s u) = g (unOf s u)) : modUn s u f = modUn s u g := by
  unfold modUn tabMod
  exact congrArg (fun y => { s with kiln.units := tabSet s.kiln.units u y }) h

section
variable {s : State} {e : CmdEntry} (op : Nat)
@[simp] theorem kiln_taken : (taken s e op).kiln = s.kiln := (quiet_taken s e op).kiln
@[simp] theorem unOf_taken (u : Nat) : unOf (taken s e op) u = unOf s u := unOf_of_kiln (kiln_taken op) u
@[simp] theorem hiOf_taken (a : Nat) : hiOf (taken s e op) a = hiOf s a := hiOf_of_kiln (kiln_taken op) a
@[simp] theorem unChans_taken (u : Nat) : unChans (taken s e op) u = unChans s u := (quiet_taken s e op).reads (unChans · u)
end

/-! ### One unit (R330, R339, R340) -/

section
variable (s : State) (u : Nat)

theorem unitTurn_modUn (f : AcqU → AcqU) : unitTurn u s (modUn s u f) := ⟨rfl, fun _ hk => unOf_modUn_other s f hk⟩
theorem unitTurn_staged (q : List (Nat × KBlock)) : unitTurn u s { s with kiln.staged := q } := ⟨rfl, fun _ _ => rfl⟩
theorem unitTurn_unClear : unitTurn u s (unClear s u) := (unitTurns u).trans (unitTurn_staged s u _) (unitTurn_modUn _ u _)
theorem unitTurn_unFlush : unitTurn u s (unFlush s u) := (unitTurns u).trans (unitTurn_staged s u _) (unitTurn_modUn _ u _)
theorem unitTurn_unIdle : unitTurn u s (unIdle s u) :=
  (unitTurns u).ite ((unitTurns u).refl s) ((unitTurns u).trans (unitTurn_unClear s u) (unitTurn_modUn _ u _))
theorem unitTurn_capClose (g : Trig) (last : Nat) : unitTurn u s (capClose s u g last) :=
  (unitTurns u).trans (unitTurn_modUn s u _) ((unitTurns u).event _ _ _ _)

theorem unOf_unClear : unOf (unClear s u) u = { unOf s u with opens := [], blocks := [], rates := [] } := unOf_modUn { s with kiln.staged := _ } u _
theorem unOf_unFlush : unOf (unFlush s u) u = { unOf s u with opens := [] } := unOf_modUn { s with kiln.staged := _ } u _
/-- A unit that is made IDLE keeps its captures; one that was IDLE keeps its whole record. -/
theorem unOf_unIdle : unOf (unIdle s u) u = if (unOf s u).st = 0 then unOf s u else
    { unOf s u with opens := [], blocks := [], rates := [], st := 0, trig := none, post := none, npost := 0, cands := [], ovf := false, rateDue := none } := by
  unfold unIdle
  split
  · rfl
  · rw [unOf_modUn, unOf_unClear]
/-- A capture that is closed is the newest held in repeat mode, the only one else (R339). -/
theorem unOf_capClose (g : Trig) (last : Nat) : unOf (capClose s u g last) u =
    { unOf s u with seq := (capForm s u g last).seq,
                    caps := if unMode s u = 1 then (unOf s u).caps ++ [capForm s u g last] else [capForm s u g last], missed := 0 } :=
  unOf_modUn s u _

theorem capsTrim_suffix (buf need n : Nat) (cs : List Capture) : capsTrim buf need n cs <:+ cs := by
  induction n generalizing cs with
  | zero => exact List.suffix_rfl
  | succ n ih =>
    unfold capsTrim
    split
    · exact (ih _).trans (List.drop_suffix 1 cs)
    · exact List.suffix_rfl

/-- A repeat unit behind its re-arm: ARMED or FULL, of its captures the latest, no trigger, and at most one more event (R330, R340). -/
structure Rearmed (u : Nat) (s t : State) : Prop where
  turn : unitTurn u s t
  st : (unOf t u).st ∈ [1, 5]
  caps : (unOf t u).caps <:+ (unOf s u).caps
  trig : (unOf t u).trig = none
  code : (unOf t u).code = (unOf s u).code
  seq : (unOf t u).seq = (unOf s u).seq
  log : logWithin 1 s t

/-- A unit whose recording starts anew where `fresh`. -/
def unFresh (fresh : Bool) : State := if fresh then unClear s u else s
theorem unitTurn_unFresh (fresh : Bool) : unitTurn u s (unFresh s u fresh) := (unitTurns u).ite (unitTurn_unClear s u) ((unitTurns u).refl s)
theorem log_unFresh (fresh : Bool) : (unFresh s u fresh).log = s.log := by cases fresh <;> rfl
theorem named_unFresh (fresh : Bool) : (unOf (unFresh s u fresh) u).code = (unOf s u).code ∧ (unOf (unFresh s u fresh) u).seq = (unOf s u).seq := by
  cases fresh
  · exact ⟨rfl, rfl⟩
  · rw [unFresh, if_pos rfl, unOf_unClear]
    exact ⟨rfl, rfl⟩

theorem rearmed_unRearm (fresh : Bool) : Rearmed u s (unRearm s u fresh) := by
  unfold unRearm
  extract_lets x caps need d k armT s1
  have hcaps : caps <:+ x.caps := by
    unfold caps
    split
    · exact capsTrim_suffix _ _ _ _
    · exact List.suffix_rfl
  split
  · obtain ⟨hc, hs⟩ := named_unFresh s u fresh
    refine ⟨(unitTurns u).trans (unitTurn_unFresh s u fresh) (unitTurn_modUn s1 u _), ?_, ?_, ?_, ?_, ?_, logWithin_of_log (log_unFresh s u fresh) 1⟩ <;>
      rw [unOf_modUn]
    · simp
    · exact hcaps
    · exact hc
    · exact hs
  · have hf (t : State) (c : Bool) : unOf (when c (fun v => raise v 0xA104 u []) t) u = unOf t u := by cases c <;> rfl
    refine ⟨(unitTurns u).trans ((unitTurns u).trans (unitTurn_unClear s u) (unitTurn_modUn _ u _)) ((unitTurns u).cond _ (fun t => (unitTurns u).event t _ _ _) _),
      ?_, ?_, ?_, ?_, ?_, ?_⟩
    any_goals rw [hf, unOf_modUn, unOf_unClear]
    · simp
    · cases x.st != 5
      · exact logWithin_of_log rfl 1
      · exact logWithin_raise _ _ _ _
end

/-! ### One history (R351) -/

section
variable (s : State) (a : Nat) (f : Hist → Hist)
/-- A history whose open blocks close before a change of its record. -/
theorem histTurn_closed : histTurn a s (modHi (hiFlush s a) a f) :=
  ⟨rfl, fun _ hk => (hiOf_modHi_other _ f hk).trans (hiOf_modHi_other { s with kiln.staged := _ } _ hk), rfl⟩
theorem hiOf_closed : hiOf (modHi (hiFlush s a) a f) a = f { hiOf s a with opens := [] } := by
  rw [hiOf_modHi]
  exact congrArg f (hiOf_modHi { s with kiln.staged := _ } a _)
end

end Sys2Proof.Machine
end

section
/-! The acquisition commands that need ARM (R330, R333, R340, R351): what each makes of its unit or history, and its completion. -/
open Sys2Proof Sys2Proof.Machine
namespace Sys2Proof.Machine

/-! ### Payloads of words -/

/-- A word of a payload of words reads as it was written. -/
theorem word_words {v : Nat} (hv : v < 2 ^ 32) : ∀ {vs : List Nat} {i : Nat}, vs[i]? = some v → word (words vs) i = v
  | w :: vs, 0, h => by
    obtain rfl : w = v := by simpa using h
    exact word_le4_append w (words vs) hv
  | w :: vs, i + 1, h => (word_append_succ w i (words vs)).trans (word_words hv (by simpa using h))

/-! ### Commands whose effect stays in the Kiln -/

/-- A command that is taken at once, changes the Kiln and completes. -/
theorem completes_kiln {i : Instr} {s u : State} {e : CmdEntry} {op : Nat} {body : State → Nat → Bytes → State × CmdRes} {pl : Bytes} {P : State → Prop}
    (hi : exec i s = finishD s (command s e op body)) (h : takesNow s e = true) (hb : body (taken s e op) e.master e.payload = (u, .fin 0 pl))
    (hu : kilnOnly (taken s e op) u) (hP : ∀ t, kilnOnly s t → t.kiln = u.kiln → P t)
    (hop : opcodes.contains op = true := by decide) : completes i s e op pl P := by
  have hs : kilnOnly s u := kilnOnlys.trans (kilnOnly_of_quiet (quiet_taken s e op)) hu
  exact completes_quiet hi h hb hs (fun t ht => hP t (kilnOnlys.trans hs (kilnOnly_of_quiet ht)) ht.kiln) (hop := hop)
/-- A command that is taken at once, changes one unit and completes. -/
theorem completes_unit {i : Instr} {s v : State} {e : CmdEntry} {op u : Nat} {body : State → Nat → Bytes → State × CmdRes} {pl : Bytes} {P : AcqU → Prop}
    (hi : exec i s = finishD s (command s e op body)) (h : takesNow s e = true) (hb : body (taken s e op) e.master e.payload = (v, .fin 0 pl))
    (hu : unitTurn u (taken s e op) v) (hP : P (unOf v u)) (hop : opcodes.contains op = true := by decide) :
    completes i s e op pl (fun t => kilnOnly s t ∧ (∀ k, k ≠ u → unOf t k = unOf s k) ∧ P (unOf t u)) := by
  refine completes_kiln hi h hb hu.1 (fun t ht hk => ⟨ht, fun k hn => ?_, ?_⟩) hop
  · rw [unOf_of_kiln hk, hu.2 k hn, unOf_taken]
  · rwa [unOf_of_kiln hk]

/-- A command of one word that fills its mask of `k` bits passes its checks. -/
theorem checked_acq {s : State} {m n k : Nat} (hn : n < 2 ^ k) (hk : k ≤ 32) (hr : hasRights s m 8 rARM = true) (r : State × CmdRes) :
    checked s (acqChecks s m (le 4 n) 4 (2 ^ k - 1) rARM) r = r := by
  have hw : onlyBits (2 ^ k - 1) (word (le 4 n) 0) = true := by
    rw [word_le4 n (Nat.lt_of_lt_of_le hn (Nat.pow_le_pow_right (by decide) hk))]
    exact onlyBits_low k n hn
  simp [checked, firstFail, acqChecks, hw, hr]
theorem checked_unit {s : State} {m u : Nat} (hu : u < 8) (hr : hasRights s m 8 rARM = true) (r : State × CmdRes) :
    checked s (acqChecks s m (le 4 u) 4 0x7 rARM) r = r := checked_acq (k := 3) hu (by decide) hr r
theorem checked_hist {s : State} {m a : Nat} (ha : a < 128) (hr : hasRights s m 8 rARM = true) (r : State × CmdRes) :
    checked s (acqChecks s m (le 4 a) 4 0x7F rARM) r = r := checked_acq (k := 7) ha (by decide) hr r

/-! ### ACQ_ARM (R330) -/

section
variable (s : State) (u : Nat)

/-- A unit whose recording starts: what an earlier recording left is gone, its captures but in repeat mode. -/
def unBegin : State := modUn (unClear s u) u (fun x =>
  { x with code := pnat s 0x0701 u, rateDue := none, dead := 0xFFFFFFFF, missed := 0, lastT := none, lowRing := 0, ovf := false,
           caps := if unMode s u = 1 then x.caps else [], cands := [] })
/-- The record of a unit with the pick of its arm command. -/
def armStamped (x : AcqU) : AcqU := { x with armPs := ps s, armT := s.clk.pickT0 + 160, primUp := false, primDn := false, x0 := none }

theorem unArm_stream (h : unMode s u = 2) : unArm s u = modUn (unBegin s u) u (fun x => { x with st := 6 }) := if_pos h
theorem unArm_repeat (h : unMode s u = 1) : unArm s u = modUn (unRearm (unBegin s u) u true) u (armStamped s) := by
  unfold unArm
  simp only [h, Nat.reduceEqDiff, if_false, if_true]
  simp only [unBegin, h, if_true]
  rfl
theorem unArm_single (h2 : unMode s u ≠ 2) (h1 : unMode s u ≠ 1) :
    unArm s u = modUn (modUn (unBegin s u) u (fun x => { x with st := 1, trig := none, post := none, npost := 0 })) u (armStamped s) := by
  unfold unArm
  simp only [h1, h2, if_false]
  simp only [unBegin, h1, if_false]
  rfl

theorem unitTurn_unBegin : unitTurn u s (unBegin s u) := (unitTurns u).trans (unitTurn_unClear s u) (unitTurn_modUn _ u _)
theorem unitTurn_unArm : unitTurn u s (unArm s u) := by
  have hb := unitTurn_unBegin s u
  by_cases h2 : unMode s u = 2
  · rw [unArm_stream s u h2]
    exact (unitTurns u).trans hb (unitTurn_modUn _ u _)
  · by_cases h1 : unMode s u = 1
    · rw [unArm_repeat s u h1]
      exact (unitTurns u).trans ((unitTurns u).trans hb (rearmed_unRearm _ u true).turn) (unitTurn_modUn _ u _)
    · rw [unArm_single s u h2 h1]
      exact (unitTurns u).trans ((unitTurns u).trans hb (unitTurn_modUn _ u _)) (unitTurn_modUn _ u _)

/-- What an arm command makes of a unit (R330, R336, R339): STREAM, ARMED, or in repeat mode ARMED or FULL with the latest of its captures. -/
structure ArmedUnit (y : AcqU) : Prop where
  once : unMode s u ≠ 1 → y.st = (if unMode s u = 2 then 6 else 1) ∧ y.caps = []
  again : unMode s u = 1 → y.st ∈ [1, 5] ∧ y.caps <:+ (unOf s u).caps
  code : y.code = pnat s 0x0701 u
  seq : y.seq = (unOf s u).seq
  stamp : unMode s u ≠ 2 → y.armPs = ps s

/-- The record of a unit whose recording starts, in what an arm command says of it. -/
theorem unOf_unBegin : (unOf (unBegin s u) u).caps = (if unMode s u = 1 then (unOf s u).caps else []) ∧ (unOf (unBegin s u) u).code = pnat s 0x0701 u ∧
    (unOf (unBegin s u) u).seq = (unOf s u).seq := by
  rw [unBegin, unOf_modUn, unOf_unClear]
  exact ⟨rfl, rfl, rfl⟩

theorem armedUnit_unArm : ArmedUnit s u (unOf (unArm s u) u) := by
  obtain ⟨hcaps, hcode, hseq⟩ := unOf_unBegin s u
  by_cases h2 : unMode s u = 2
  · rw [unArm_stream s u h2, unOf_modUn]
    have h1 : unMode s u ≠ 1 := by omega
    rw [if_neg h1] at hcaps
    exact ⟨fun _ => ⟨(if_pos h2).symm, hcaps⟩, fun h => absurd h h1, hcode, hseq, fun h => absurd h2 h⟩
  · by_cases h1 : unMode s u = 1
    · rw [unArm_repeat s u h1, unOf_modUn]
      have hr := rearmed_unRearm (unBegin s u) u true
      rw [if_pos h1] at hcaps
      exact ⟨fun h => absurd h1 h, fun _ => ⟨hr.st, hcaps ▸ hr.caps⟩, hr.code.trans hcode, hr.seq.trans hseq, fun _ => rfl⟩
    · rw [unArm_single s u h2 h1, unOf_modUn, unOf_modUn]
      rw [if_neg h1] at hcaps
      exact ⟨fun _ => ⟨(if_neg h2).symm, hcaps⟩, fun h => absurd h h1, hcode, hseq, fun _ => rfl⟩
/-- What an arm command makes of a unit is the same where carriers alone differ. -/
theorem ArmedUnit.along {s v : State} {u : Nat} {y : AcqU} (h : quiet s v) (hy : ArmedUnit v u y) : ArmedUnit s u y := by
  have hm : unMode v u = unMode s u := h.reads (unMode · u)
  have hx : unOf v u = unOf s u := unOf_of_kiln h.kiln u
  have hp : ps v = ps s := h.reads ps
  have hc : pnat v 0x0701 u = pnat s 0x0701 u := h.reads (pnat · 0x0701 u)
  obtain ⟨honce, hagain, hcode, hseq, hstamp⟩ := hy
  rw [hm] at honce hagain hstamp
  rw [hx] at hagain hseq
  exact ⟨honce, hagain, hcode.trans hc, hseq, fun h => (hstamp h).trans hp⟩
end

/-! ### ACQ_DISARM and ACQ_FORCE (R330, R333) -/

/-- A unit whose capture in progress is closed with the samples stored so far, where it has one. -/
theorem acqDisarmRun_eq {s : State} {m u : Nat} (hu : u < 8) (hr : hasRights s m 8 rARM = true) :
    ∃ v, acqDisarmRun s m (le 4 u) = (unIdle v u, .fin 0 []) ∧ unitTurn u s v ∧ (unOf v u).st = (unOf s u).st ∧
      ((unOf s u).st ≠ 2 → (unOf s u).st ≠ 3 → v = s) := by
  rw [acqDisarmRun, checked_unit hu hr, word_le4 u (by omega), Nat.mod_eq_of_lt hu]
  refine ⟨_, rfl, ?_⟩
  split
  next g hst _ => exact ⟨unitTurn_capClose s u g _, by rw [unOf_capClose], fun h2 => absurd hst h2⟩
  next g hst _ => exact ⟨unitTurn_capClose s u g _, by rw [unOf_capClose], fun _ h3 => absurd hst h3⟩
  next => exact ⟨(unitTurns u).refl s, rfl, fun _ _ => rfl⟩
/-- What a disarm command makes of a unit: it is IDLE, without a trigger or a change of rate to come if it was not so before, and with the captures held. -/
structure DisarmedUnit (x y : AcqU) : Prop where
  st : y.st = 0
  ended : x.st ≠ 0 → y.trig = none ∧ y.rateDue = none
  caps : x.st ≠ 2 → x.st ≠ 3 → y.caps = x.caps
theorem quiet_unArrive {s t : State} (hq : quiet s t) (u : Nat) (g : Trig) : quiet (unArrive s u g) (unArrive t u g) := quiet_modUn hq u _

section
variable {s : State} {e : CmdEntry} {u : Nat} (h : takesNow s e = true) (hpl : e.payload = le 4 u) (hu : u < 8) (hr : hasRights s e.master 8 rARM = true)
include h hpl hu hr

theorem acqArm_completes (hs : ((unOf s u).st = 0 ∧ unChans s u ≠ []) ∨ (unOf s u).st = 4) :
    completes (.acqArm e) s e 0x0801 [] (fun t => kilnOnly s t ∧ (∀ k, k ≠ u → unOf t k = unOf s k) ∧ ArmedUnit s u (unOf t u)) := by
  refine completes_unit rfl h ?_ (unitTurn_unArm _ u) ((armedUnit_unArm (taken s e 0x0801) u).along (quiet_taken s e 0x0801))
  rw [hpl, acqArmRun, checked_unit hu (by simpa using hr), word_le4 u (by omega), Nat.mod_eq_of_lt hu]
  exact if_pos (by simpa using hs)

theorem acqDisarm_completes : completes (.acqDisarm e) s e 0x0802 [] (fun t =>
    kilnOnly s t ∧ (∀ k, k ≠ u → unOf t k = unOf s k) ∧ DisarmedUnit (unOf s u) (unOf t u)) := by
  obtain ⟨v, hx, hv, hst, hsame⟩ := acqDisarmRun_eq (s := taken s e 0x0802) hu (by simpa using hr)
  rw [unOf_taken] at hst hsame
  refine completes_unit rfl h (by rw [hpl, hx]) ((unitTurns u).trans hv (unitTurn_unIdle v u)) ?_
  have hcaps : (unOf s u).st ≠ 2 → (unOf s u).st ≠ 3 → (unOf v u).caps = (unOf s u).caps := fun h2 h3 => by rw [hsame h2 h3, unOf_taken]
  rw [unOf_unIdle, hst]
  split
  next h0 => exact ⟨hst.trans h0, fun hn => absurd h0 hn, hcaps⟩
  next => exact ⟨rfl, fun _ => ⟨rfl, rfl⟩, hcaps⟩

theorem acqForce_completes (hs : (unOf s u).st = 1 ∨ (unOf s u).st = 2 ∨ (unOf s u).st = 3 ∨ (unOf s u).st = 5) :
    completes (.acqForce e) s e 0x0803 [] (quiet (unArrive s u { t32 := (s.clk.pickT0 + 160) * 32, src := 255 })) := by
  have hq := quiet_taken s e 0x0803
  have hx : acqForceRun (taken s e 0x0803) e.master e.payload = (unArrive (taken s e 0x0803) u { t32 := (s.clk.pickT0 + 160) * 32, src := 255 }, .fin 0 []) := by
    rw [hpl, acqForceRun, checked_unit hu (by simpa using hr), word_le4 u (by omega), Nat.mod_eq_of_lt hu, clk_taken]
    exact if_pos (by simpa using hs)
  have hv := quiet_unArrive hq u { t32 := (s.clk.pickT0 + 160) * 32, src := 255 }
  exact completes_quiet rfl h hx hv fun t ht => hv.trans ht
end

/-! ### ACQ_RELEASE (R340) -/

/-- The captures of a unit that a release leaves: none for 0, else all but the one it names. -/
def capsKept (q : Nat) (cs : List Capture) : List Capture := cs.filter (fun c => q != 0 && c.seq != q)
/-- A FULL unit drops a capture. -/
def fullDrops (x : AcqU) (q : Nat) : Bool := decide (x.st = 5) && decide ((capsKept q x.caps).length < x.caps.length)
/-- A unit behind a release: a FULL one that has dropped a capture goes on as behind a re-arm. -/
def unReleased (s : State) (u q : Nat) : State :=
  when (fullDrops (unOf s u) q) (fun t => unRearm t u true) (modUn s u (fun y => { y with caps := capsKept q y.caps }))

section
variable (s : State) (u q : Nat)
theorem unitTurn_unReleased : unitTurn u s (unReleased s u q) :=
  (unitTurns u).trans (unitTurn_modUn s u _) ((unitTurns u).cond _ (fun t => (rearmed_unRearm t u true).turn) _)
/-- What a release makes of a unit. -/
structure ReleasedUnit (x : AcqU) (q : Nat) (y : AcqU) : Prop where
  stays : fullDrops x q = false → y = { x with caps := capsKept q x.caps }
  goesOn : fullDrops x q = true → y.st ∈ [1, 5] ∧ y.caps <:+ capsKept q x.caps
theorem releasedUnit_unReleased : ReleasedUnit (unOf s u) q (unOf (unReleased s u q) u) := by
  have hx := rearmed_unRearm (modUn s u (fun y => { y with caps := capsKept q y.caps })) u true
  have hc := hx.caps
  rw [unOf_modUn] at hc
  constructor <;> intro h <;> rw [unReleased, h]
  · exact unOf_modUn s u _
  · exact ⟨hx.st, hc⟩

variable {s u q}
theorem acqReleaseRun_eq {m : Nat} (hu : u < 8) (hq : q < 2 ^ 32) (hr : hasRights s m 8 rARM = true) : acqReleaseRun s m (words [u, q]) =
    (unReleased s u q, .fin 0 (words [(unOf s u).caps.length - (capsKept q (unOf s u).caps).length])) := by
  have h0 : word (words [u, q]) 0 = u := word_words (by omega) rfl
  have h1 : word (words [u, q]) 1 = q := word_words hq rfl
  have hk : onlyBits 0x7 u = true := onlyBits_low 3 u hu
  have hc (r : State × CmdRes) : checked s (acqChecks s m (words [u, q]) 8 0x7 rARM) r = r := by
    simp [checked, firstFail, acqChecks, h0, hk, hr]
  have hf : fullDrops (unOf s u) q = decide ((unOf s u).st = 5 ∧ (unOf s u).caps.length - (capsKept q (unOf s u).caps).length ≠ 0) := by
    rw [fullDrops, ← Bool.decide_and]
    exact decide_eq_decide.mpr (and_congr_right fun _ => by omega)
  unfold acqReleaseRun
  simp only [h0, h1, hc, Nat.mod_eq_of_lt hu]
  unfold unReleased when
  rw [hf]
  simp only [decide_eq_true_eq]
  rfl
end

theorem acqRelease_completes {s : State} {e : CmdEntry} {u q : Nat} (h : takesNow s e = true) (hr : hasRights s e.master 8 rARM = true) (hu : u < 8)
    (hq : q < 2 ^ 32) (hpl : e.payload = words [u, q]) :
    completes (.acqRelease e) s e 0x0804 (words [(unOf s u).caps.length - (capsKept q (unOf s u).caps).length]) (fun t =>
      kilnOnly s t ∧ (∀ k, k ≠ u → unOf t k = unOf s k) ∧ ReleasedUnit (unOf s u) q (unOf t u)) := by
  have hx := acqReleaseRun_eq (s := taken s e 0x0804) (m := e.master) hu hq (by simpa using hr)
  have hy := releasedUnit_unReleased (taken s e 0x0804) u q
  rw [unOf_taken] at hx hy
  exact completes_unit rfl h (by rw [hpl, hx]) (unitTurn_unReleased _ u q) hy

/-! ### HIST_FREEZE and HIST_RESTART (R351) -/

section
variable {s : State} {e : CmdEntry} {a : Nat} (h : takesNow s e = true) (hpl : e.payload = le 4 a) (ha : a < 128) (hr : hasRights s e.master 8 rARM = true)
include h hpl ha hr

theorem histFreeze_completes : completes (.histFreeze e) s e 0x0808 [] (fun t =>
    histTurn a s t ∧ hiOf t a = { hiOf s a with opens := [], cmdFrozen := true }) := by
  have hx : histFreezeRun (taken s e 0x0808) e.master e.payload =
      (modHi (hiFlush (taken s e 0x0808) a) a (fun x => { x with cmdFrozen := true }), .fin 0 []) := by
    rw [hpl, histFreezeRun, checked_hist ha (by simpa using hr), word_le4 a (by omega), Nat.mod_eq_of_lt ha]
  obtain ⟨hf, ho, hn⟩ := histTurn_closed (taken s e 0x0808) a (fun x => { x with cmdFrozen := true })
  refine completes_kiln rfl h hx hf fun t ht hk => ⟨⟨ht, fun k hne => ?_, ?_⟩, ?_⟩
  · rw [hiOf_of_kiln hk, ho k hne, hiOf_taken]
  · rw [hk, hn, kiln_taken]
  · rw [hiOf_of_kiln hk, hiOf_closed, hiOf_taken]

theorem histRestart_completes : completes (.histRestart e) s e 0x0809 []
    (quiet (modHi s a (fun x => { x with frozen := false, cmdFrozen := false, left := none }))) := by
  have hv := quiet_modHi (quiet_taken s e 0x0809) a (fun x => { x with frozen := false, cmdFrozen := false, left := none })
  refine completes_quiet rfl h ?_ hv fun t ht => hv.trans ht
  rw [hpl, histRestartRun, checked_hist ha (by simpa using hr), word_le4 a (by omega), Nat.mod_eq_of_lt ha]
end

end Sys2Proof.Machine

/-- Settles O20: an arm command by the mode of its unit (`armedUnit_unArm`), a disarm by whether a capture is in progress (`acqDisarmRun_eq`), a release
by whether it makes room in a FULL unit (`acqReleaseRun_eq`), and the rest by the one record they change. -/
theorem acquisitionCommands : Obligations.AcquisitionCommands := by
  refine ⟨fun e s u h hpl hu hr => ⟨fun hs => ?_, ?_, acqForce_completes h hpl hu hr⟩,
    fun e s h hr => ⟨fun u q hu hq hpl => ?_, fun a ha hpl => ⟨?_, histRestart_completes h hpl ha hr⟩⟩⟩
  · obtain ⟨t, hx, hj, hq, ho, hy⟩ := acqArm_completes h hpl hu hr hs
    exact ⟨t, hx, hj, hq, ho, hy.once, hy.again, hy.code, hy.seq, hy.stamp⟩
  · obtain ⟨t, hx, hj, hq, ho, hy⟩ := acqDisarm_completes h hpl hu hr
    exact ⟨t, hx, hj, hq, ho, hy.st, hy.ended, hy.caps⟩
  · obtain ⟨t, hx, hj, hk, ho, hy⟩ := acqRelease_completes h hr hu hq hpl
    exact ⟨t, hx, hj, hk, ho, hy.stays, hy.goesOn⟩
  · obtain ⟨t, hx, hj, ⟨hq, ho, hn⟩, hy⟩ := histFreeze_completes h hpl ha hr
    exact ⟨t, hx, hj, hq, ho, by rw [hy], by rw [hy], hn⟩
end

section
/-! The acquisition reads (R343, R352, R507): the bytes that each returns, and what a read marks or removes. -/
open Sys2Proof Sys2Proof.Machine
namespace Sys2Proof.Machine

/-! ### What a read counts and meets (R507) -/

section
variable (s : State) (ecc : EccResult)
theorem eccCount_rest : (eccCount s ecc).pending = s.pending ∧ (eccCount s ecc).ddr = s.ddr ∧ (eccCount s ecc).dmp = s.dmp ∧
    (eccCount s ecc).clk = s.clk := by cases ecc <;> exact ⟨rfl, rfl, rfl, rfl⟩
variable {s}
theorem quiet_eccCount {t : State} (h : quiet s t) : quiet (eccCount s ecc) (eccCount t ecc) := by
  unfold quiet at h
  rw [h]
  cases ecc <;> rfl
end

/-- A read among blocks none of which is lost meets no lost block. -/
theorem blocksHit_intact {ks : List KBlock} (h : ∀ k ∈ ks, k.lost = false) (size : KBlock → Nat) (o off len : Nat) : blocksHit size o off len ks = false := by
  refine List.any_eq_false.mpr fun p hp => ?_
  simp [h p.1 (List.of_mem_zip hp).1]

/-! ### The outcome of a read -/

section
variable {i : Instr} {s : State} {e : CmdEntry} {op : Nat} {ecc : EccResult} {body : State → Nat → Bytes → State × CmdRes}
  (hi : exec i s = finishD s (command s e op body)) (h : takesNow s e = true)
include hi h

/-- A read that returns bytes changes at most the count of corrected errors. -/
theorem completes_counted {pl : Bytes} (hb : body (taken s e op) e.master e.payload = (eccCount (taken s e op) ecc, .fin 0 pl))
    (hop : opcodes.contains op = true := by decide) : completes i s e op pl (quiet (eccCount s ecc)) := by
  obtain ⟨hp, hd, hm, hc⟩ := eccCount_rest s ecc
  have hv := quiet_eccCount ecc (quiet_taken s e op)
  exact completes_quiet hi h hb hv (fun t ht => hv.trans ht) hp hd hm hc hop
/-- A read of a unit's stream ring changes the record of the unit and counts. -/
theorem completes_counted_unit {u : Nat} {f : AcqU → AcqU} {pl : Bytes}
    (hb : body (taken s e op) e.master e.payload = (modUn (eccCount (taken s e op) ecc) u f, .fin 0 pl))
    (hop : opcodes.contains op = true := by decide) : completes i s e op pl (quiet (modUn (eccCount s ecc) u f)) := by
  obtain ⟨hp, hd, hm, hc⟩ := eccCount_rest s ecc
  have hv := quiet_modUn (quiet_eccCount ecc (quiet_taken s e op)) u f
  exact completes_quiet hi h hb hv (fun t ht => hv.trans ht) hp hd hm hc hop
/-- One that meets lost data completes with DDR_DATA_LOST. -/
theorem goes_dataLost_unit {u : Nat} {f : AcqU → AcqU}
    (hb : body (taken s e op) e.master e.payload = (modUn (eccCount (taken s e op) ecc) u f, .fin 0xF006 []))
    (hop : opcodes.contains op = true := by decide) : goes i s (fun t => answered s t e op 0xF006 [] ∧ quiet (modUn (eccCount s ecc) u f) t) := by
  obtain ⟨hp, hd, hm, hc⟩ := eccCount_rest s ecc
  exact goes_answered_quiet hi h hb (quiet_modUn (quiet_eccCount ecc (quiet_taken s e op)) u f) hp hd hm hc hop
/-- An uncorrectable error in a read that marks blocks of the Kiln as lost. -/
theorem goes_marked {v : State} (hb : body (taken s e op) e.master e.payload = (v, .fin 0xF006 [])) (hv : kilnOnly (eccCount (taken s e op) .uncorrectable) v)
    (hop : opcodes.contains op = true := by decide) :
    goes i s (fun t => answered s t e op 0xF006 [] ∧ quiet { s with kiln := t.kiln, boot.uncorr := satInc 16 s.boot.uncorr } t) := by
  have hs : kilnOnly (eccCount s .uncorrectable) v := kilnOnlys.trans (kilnOnly_of_quiet (quiet_eccCount .uncorrectable (quiet_taken s e op))) hv
  obtain ⟨t, hx, ha, hq⟩ := goes_answered_quiet hi h hb hs (hop := hop)
  rw [← show t.kiln = v.kiln from hq.kiln] at hq
  exact ⟨t, hx, ha, hq⟩
end

/-! ### ACQ_READ_CAPTURE (R352, R507) -/

section
variable {s : State} {m u q off len : Nat} {c : Capture} {dec : Bool} (ecc : EccResult) (hu : u < 8) (hq : q < 2 ^ 32) (ho : off < 2 ^ 32) (h4 : 4 ≤ len)
  (hl : len ≤ 1008) (hd : len % 4 = 0)
include hu hq ho h4 hl hd

/-- A capture read of a unit that holds the capture: whether it meets lost data, and what it then marks, is left open. -/
theorem acqReadCaptureRun_eq (hr : hasRights s m 8 rREAD = true) (hf : (unOf s u).caps.find? (fun x => x.seq = q) = some c) :
    ∃ size o f, acqReadCaptureRun ecc s m (words [u + 256 * b2n dec, q, off, len]) =
      if ecc = .uncorrectable ∨ blocksHit size o off len c.blocks = true then (modUn (eccCount s ecc) u f, .fin 0xF006 [])
      else (eccCount s ecc, .fin 0 (((if dec then (c.blocks.map kRecon).flatten else capBytes c).drop off).take len)) := by
  have hb : b2n dec < 2 := by cases dec <;> decide
  have h0 : word (words [u + 256 * b2n dec, q, off, len]) 0 = u + 256 * b2n dec := word_words (by omega) rfl
  have h1 : word (words [u + 256 * b2n dec, q, off, len]) 1 = q := word_words hq rfl
  have h2 : word (words [u + 256 * b2n dec, q, off, len]) 2 = off := word_words ho rfl
  have h3 : word (words [u + 256 * b2n dec, q, off, len]) 3 = len := word_words (by omega) rfl
  have hlo : (u + 256 * b2n dec) % 8 = u := by omega
  have hdec : nbit (u + 256 * b2n dec) 8 = dec := by
    have hx : (u + 256 * b2n dec) / 2 ^ 8 = b2n dec := by omega
    rw [nbit, Nat.testBit_eq_decide_div_mod_eq, hx]
    cases dec <;> rfl
  have hlen : len % 1024 = len := by omega
  have hk : onlyBits 0x107 (u + 256 * b2n dec) = true :=
    onlyBits_fields (k := 8) (m := 7) (n := 1) (by decide) (by omega) (onlyBits_low 3 u hu) (onlyBits_low 1 _ hb)
  have hk3 : onlyBits 0x3FF len = true := onlyBits_low 10 len (by omega)
  unfold acqReadCaptureRun
  simp only [h0, h1, h2, h3, hlo, hdec, hlen, hk, hk3, hf, hr, hd, checked, firstFail, words_length, List.length_cons, List.length_nil, Nat.reduceAdd, Nat.reduceMul,
    decide_eq_true h4, decide_eq_true hl, decide_true, Bool.and_self, if_true]
  exact ⟨_, _, _, rfl⟩
end

/-! ### ACQ_READ_STREAM (R343, R507) -/

section
variable {s : State} {m u n : Nat} (ecc : EccResult) (hu : u < 8) (h268 : 268 ≤ n) (hn : n ≤ 1008)
include hu h268 hn
/-- A stream read of a unit in STREAM. -/
theorem acqReadStreamRun_eq (hr : hasRights s m 8 rREAD = true) (hs : (unOf s u).st = 6) : acqReadStreamRun ecc s m (words [u, n]) =
    let ks := blocksFit n (unOf s u).blocks
    let bad := fun (k : KBlock) => k.lost || ecc = .uncorrectable
    if ks.any bad || ecc = .uncorrectable then
      (modUn (eccCount s ecc) u (fun y => { y with blocks := ks.filter (fun k => !bad k) ++ y.blocks.drop ks.length }), .fin 0xF006 [])
    else (modUn (eccCount s ecc) u (fun y => { y with blocks := y.blocks.drop ks.length }), .fin 0 (ks.map kBytes).flatten) := by
  have h0 : word (words [u, n]) 0 = u := word_words (by omega) rfl
  have h1 : word (words [u, n]) 1 = n := word_words (by omega) rfl
  have hlo : u % 8 = u := by omega
  have hlen : n % 1024 = n := by omega
  have hk : onlyBits 0x7 u = true := onlyBits_low 3 u hu
  have hk1 : onlyBits 0x3FF n = true := onlyBits_low 10 n (by omega)
  unfold acqReadStreamRun
  simp only [h0, h1, hlo, hlen, hk, hk1, hr, hs, checked, firstFail, words_length, List.length_cons, List.length_nil, Nat.reduceAdd, Nat.reduceMul,
    decide_eq_true h268, decide_eq_true hn, decide_true, Bool.and_self, if_true]
end

/-! ### HIST_READ (R352, R507) -/

section
variable {s : State} {m a v off len : Nat} (ecc : EccResult) (ha : a < 128) (hv : v < 8) (ho : off < 2 ^ 32) (h4 : 4 ≤ len) (hl : len ≤ 1008) (hd : len % 4 = 0)
include ha hv ho h4 hl hd
/-- A history read: what it marks where it meets lost data is left open. -/
theorem histReadRun_eq (hr : hasRights s m 8 rREAD = true) : ∃ f, histReadRun ecc s m (words [a + 256 * v, off, len]) =
    let ks := (hiOf s a).blocks.filter (fun k => k.hvar = v)
    if ecc = .uncorrectable ∨ blocksHit kSize 0 off len ks = true then (modHi (eccCount s ecc) a f, .fin 0xF006 [])
    else (eccCount s ecc, .fin 0 (((ks.map kBytes).flatten.drop off).take len)) := by
  have h0 : word (words [a + 256 * v, off, len]) 0 = a + 256 * v := word_words (by omega) rfl
  have h1 : word (words [a + 256 * v, off, len]) 1 = off := word_words ho rfl
  have h2 : word (words [a + 256 * v, off, len]) 2 = len := word_words (by omega) rfl
  have hlo : (a + 256 * v) % 128 = a := by omega
  have hhi : (a + 256 * v) / 256 % 8 = v := by omega
  have hlen : len % 1024 = len := by omega
  have hk : onlyBits 0x77F (a + 256 * v) = true :=
    onlyBits_fields (k := 8) (m := 0x7F) (n := 7) (by decide) (by omega) (onlyBits_low 7 a ha) (onlyBits_low 3 v hv)
  have hk2 : onlyBits 0x3FF len = true := onlyBits_low 10 len (by omega)
  unfold histReadRun
  simp only [h0, h1, h2, hlo, hhi, hlen, hk, hk2, hr, hd, checked, firstFail, words_length, List.length_cons, List.length_nil, Nat.reduceAdd, Nat.reduceMul,
    decide_eq_true h4, decide_eq_true hl, decide_true, Bool.and_self, if_true]
  exact ⟨_, rfl⟩
end

/-! ### The rows -/

section
variable {s : State} {e : CmdEntry} {ecc : EccResult} (h : takesNow s e = true) (hr : hasRights s e.master 8 rREAD = true)
include h hr

theorem acqReadCapture_reads {u q off len : Nat} {c : Capture} {dec : Bool} (hu : u < 8) (hq : q < 2 ^ 32) (ho : off < 2 ^ 32) (h4 : 4 ≤ len) (hl : len ≤ 1008)
    (hd : len % 4 = 0) (hpl : e.payload = words [u + 256 * b2n dec, q, off, len]) (hf : (unOf s u).caps.find? (fun x => x.seq = q) = some c) :
    (ecc ≠ .uncorrectable → (∀ k ∈ c.blocks, k.lost = false) → completes (.acqReadCapture e ecc) s e 0x0805
      (((if dec then (c.blocks.map kRecon).flatten else capBytes c).drop off).take len) (quiet (eccCount s ecc))) ∧
    (ecc = .uncorrectable → goes (.acqReadCapture e ecc) s (fun t => answered s t e 0x0805 0xF006 [] ∧
      quiet { s with kiln := t.kiln, boot.uncorr := satInc 16 s.boot.uncorr } t)) := by
  obtain ⟨size, o, f, hx⟩ := acqReadCaptureRun_eq (s := taken s e 0x0805) (m := e.master) (dec := dec) ecc hu hq ho h4 hl hd (by simpa using hr) (by simpa using hf)
  rw [← hpl] at hx
  constructor
  · intro he hk
    rw [if_neg (by simp [he, blocksHit_intact hk])] at hx
    exact completes_counted rfl h hx
  · rintro rfl
    rw [if_pos (.inl rfl)] at hx
    exact goes_marked rfl h hx (unitTurn_modUn _ u f).1

theorem histRead_reads {a v off len : Nat} (ha : a < 128) (hv : v < 8) (ho : off < 2 ^ 32) (h4 : 4 ≤ len) (hl : len ≤ 1008) (hd : len % 4 = 0)
    (hpl : e.payload = words [a + 256 * v, off, len]) :
    (ecc ≠ .uncorrectable → (∀ k ∈ (hiOf s a).blocks, k.lost = false) → completes (.histRead e ecc) s e 0x0807
      (((((hiOf s a).blocks.filter (fun k => k.hvar = v)).map kBytes).flatten.drop off).take len) (quiet (eccCount s ecc))) ∧
    (ecc = .uncorrectable → goes (.histRead e ecc) s (fun t => answered s t e 0x0807 0xF006 [] ∧
      quiet { s with kiln := t.kiln, boot.uncorr := satInc 16 s.boot.uncorr } t)) := by
  obtain ⟨f, hx⟩ := histReadRun_eq (s := taken s e 0x0807) (m := e.master) ecc ha hv ho h4 hl hd (by simpa using hr)
  rw [← hpl, hiOf_taken] at hx
  constructor
  · intro he hk
    have hks : ∀ k ∈ (hiOf s a).blocks.filter (fun k => k.hvar = v), k.lost = false := fun k hm => hk k (List.mem_of_mem_filter hm)
    exact completes_counted rfl h (hx.trans (if_neg (by simp [he, blocksHit_intact hks])))
  · rintro rfl
    exact goes_marked rfl h (hx.trans (if_pos (.inl rfl))) rfl

section
variable {u n : Nat} (hu : u < 8) (h268 : 268 ≤ n) (hn : n ≤ 1008) (hpl : e.payload = words [u, n]) (hs : (unOf s u).st = 6)
include hu h268 hn hpl hs
theorem acqReadStream_intact (hk : ∀ k ∈ blocksFit n (unOf s u).blocks, k.lost = false) (he : ecc ≠ .uncorrectable) :
    completes (.acqReadStream ⟨e, ecc⟩) s e 0x0806 ((blocksFit n (unOf s u).blocks).map kBytes).flatten
      (quiet (modUn (eccCount s ecc) u (fun y => { y with blocks := y.blocks.drop (blocksFit n (unOf s u).blocks).length }))) := by
  have hx := acqReadStreamRun_eq (s := taken s e 0x0806) (m := e.master) ecc hu h268 hn (by simpa using hr) (by simpa using hs)
  rw [← hpl, unOf_taken] at hx
  exact completes_counted_unit rfl h (hx.trans (if_neg (by simpa [he] using hk)))
theorem acqReadStream_lost (hk : ∃ k ∈ blocksFit n (unOf s u).blocks, k.lost = true) (he : ecc ≠ .uncorrectable) :
    goes (.acqReadStream ⟨e, ecc⟩) s (fun t => answered s t e 0x0806 0xF006 [] ∧ quiet (modUn (eccCount s ecc) u (fun y =>
      { y with blocks := (blocksFit n (unOf s u).blocks).filter (fun k => !k.lost) ++ y.blocks.drop (blocksFit n (unOf s u).blocks).length })) t) := by
  have hx := acqReadStreamRun_eq (s := taken s e 0x0806) (m := e.master) ecc hu h268 hn (by simpa using hr) (by simpa using hs)
  rw [← hpl, unOf_taken] at hx
  simp only [decide_eq_false he, Bool.or_false] at hx
  rw [if_pos (List.any_eq_true.mpr hk)] at hx
  exact goes_dataLost_unit rfl h hx
theorem acqReadStream_uncorrectable : goes (.acqReadStream ⟨e, .uncorrectable⟩) s (fun t => answered s t e 0x0806 0xF006 [] ∧
    quiet (modUn (eccCount s .uncorrectable) u (fun y => { y with blocks := y.blocks.drop (blocksFit n (unOf s u).blocks).length })) t) := by
  have hx := acqReadStreamRun_eq (s := taken s e 0x0806) (m := e.master) .uncorrectable hu h268 hn (by simpa using hr) (by simpa using hs)
  rw [← hpl, unOf_taken] at hx
  simp only [decide_true, Bool.or_true, Bool.not_true, if_true, List.filter_false, List.nil_append] at hx
  exact goes_dataLost_unit rfl h hx
end
end

end Sys2Proof.Machine

/-- Settles O21: each read by whether it meets lost data (`acqReadCaptureRun_eq`, `acqReadStreamRun_eq`, `histReadRun_eq`). -/
theorem acquisitionReads : Obligations.AcquisitionReads := by
  refine fun e s ecc h hr => ⟨fun u q off len c dec hu hq ho h4 hl hd hpl hf => acqReadCapture_reads h hr hu hq ho h4 hl hd hpl hf,
    fun u n hu h268 hn hpl hs => ⟨acqReadStream_intact h hr hu h268 hn hpl hs, acqReadStream_lost h hr hu h268 hn hpl hs, ?_⟩,
    fun a v off len ha hv ho h4 hl hd hpl => histRead_reads h hr ha hv ho h4 hl hd hpl⟩
  rintro rfl
  exact acqReadStream_uncorrectable h hr hu h268 hn hpl hs
end

section
/-! The rows of the acquisition (R335 to R351): stamped edges, captures that close, changes of rate, blocks that are written, histories that stop. -/
open Sys2Proof Sys2Proof.Machine
namespace Sys2Proof.Machine

/-! ### TRIG_PIN_EDGE (R335, R539) -/

section
variable (s : State) (pin : TrigNo) (up : Bool) (t : Nat)
/-- The units that trigger on an edge of a pin (R335). -/
def edgeUnits : List Nat := (List.range 8).filter (fun u => pnat s 0x0705 u = 2 && pnat s 0x0706 u = pin.val &&
  (pnat s 0x070A u = 2 || (pnat s 0x070A u = 0) == up))
/-- The edge stamped at its pin. -/
def edgeStamped : State := { s with kiln.edges := tabSet s.kiln.edges pin t }
/-- The stamped edge reaches the units that trigger on it. -/
def edgeTaken : State := forEach (edgeUnits s pin up) (fun x u => unArrive x u { t32 := t, src := 2 }) (edgeStamped s pin t)

/-- An edge of the pin has been stamped within the 40 ns before (R539). -/
def edgeNear : Bool := match tabFind s.kiln.edges pin with | some e => decide (e ≤ t ∧ t < e + 512) | none => false

variable {s pin up} {u : Nat}
theorem mem_edgeUnits (hu : u < 8) (h5 : pnat s 0x0705 u = 2) (h6 : pnat s 0x0706 u = pin.val) (ha : pnat s 0x070A u = 2 ∨ (pnat s 0x070A u = 0 ↔ up = true)) :
    u ∈ edgeUnits s pin up := by
  refine List.mem_filter.mpr ⟨List.mem_range.mpr hu, ?_⟩
  have hb : (pnat s 0x070A u = 2 || (pnat s 0x070A u = 0) == up) = true := by
    rcases ha with h | h
    · rw [decide_eq_true h, Bool.true_or]
    · rw [Bool.eq_iff_iff.mpr (decide_eq_true_iff.trans h), beq_self_eq_true, Bool.or_true]
  rw [decide_eq_true h5, decide_eq_true h6, hb]
  rfl
theorem kilnOnly_edgeTaken : kilnOnly s (edgeTaken s pin up t) :=
  kilnOnlys.trans (t := edgeStamped s pin t) rfl (kilnOnlys.loop _ (fun v i => (unitTurn_modUn v i _).1) _)
theorem edges_edgeTaken : tabFind (edgeTaken s pin up t).kiln.edges pin = some t := by
  have h : (edgeTaken s pin up t).kiln.edges = (edgeStamped s pin t).kiln.edges := forEach_leaves (fun v => v.kiln.edges) fun _ _ _ => rfl
  rw [h]
  exact tabFind_tabSet_same _ _ _
end
/-- A loop over different units makes of each of them what its turn makes. -/
theorem unOf_forEach {f : AcqU → AcqU} {u : Nat} {us : List Nat} (hn : us.Nodup) (hu : u ∈ us) (s : State) :
    unOf (forEach us (fun x k => modUn x k f) s) u = f (unOf s u) := by
  induction us generalizing s with
  | nil => simp at hu
  | cons k ks ih =>
    obtain ⟨hk, hn⟩ := List.nodup_cons.mp hn
    show unOf (forEach ks _ (modUn s k f)) u = _
    by_cases hku : u = k
    · subst hku
      have h : unOf (forEach ks (fun x k => modUn x k f) (modUn s u f)) u = unOf (modUn s u f) u :=
        forEach_leaves (fun v => unOf v u) fun v i hi => unOf_modUn_other v f fun he => hk (he ▸ hi)
      rw [h, unOf_modUn]
    · rw [ih hn ((List.mem_cons.mp hu).resolve_left hku), unOf_modUn_other _ _ hku]

section
variable {s : State} {pin : TrigNo} {up : Bool} {tt : Nat} {fr : Fin 32}
theorem exec_trigPinEdge : exec (.trigPinEdge pin up tt fr) s = finishD s
    (if edgeUnits s pin up = [] ∨ edgeNear s pin (tt * 32 + fr.val) = true ∨ isStandby s = true then s
     else edgeTaken s pin up (tt * 32 + fr.val)) := rfl
theorem trigPinEdge_arrives {u : Nat} (hu : u < 8) (h5 : pnat s 0x0705 u = 2) (h6 : pnat s 0x0706 u = pin.val)
    (ha : pnat s 0x070A u = 2 ∨ (pnat s 0x070A u = 0 ↔ up = true)) (he : tabFind s.kiln.edges pin = none) (hs : isStandby s = false) (hst : (unOf s u).st = 1) :
    goes (.trigPinEdge pin up tt fr) s (fun t => kilnOnly s t ∧ (unOf t u).cands = (unOf s u).cands ++ [{ t32 := tt * 32 + fr.val, src := 2 }] ∧
      tabFind t.kiln.edges pin = some (tt * 32 + fr.val)) := by
  have hm := mem_edgeUnits hu h5 h6 ha
  have hx : exec (.trigPinEdge pin up tt fr) s = finishD s (edgeTaken s pin up (tt * 32 + fr.val)) := by
    rw [exec_trigPinEdge, if_neg (by simp [List.ne_nil_of_mem hm, edgeNear, he, hs])]
  have hy : unOf (edgeTaken s pin up (tt * 32 + fr.val)) u = _ := unOf_forEach (List.nodup_range.filter _) hm (edgeStamped s pin (tt * 32 + fr.val))
  have hst' : (unOf (edgeStamped s pin (tt * 32 + fr.val)) u).st = 1 := hst
  refine goes_quiet hx (kilnOnly_edgeTaken _) ⟨kilnOnly_edgeTaken _, ?_, edges_edgeTaken _⟩
  rw [hy, if_pos hst']
  rfl
/-- Within 40 ns of a stamped edge another is not stamped (R539). -/
theorem trigPinEdge_near {x : Nat} (he : tabFind s.kiln.edges pin = some x) (hx : x ≤ tt * 32 + fr.val) (hn : tt * 32 + fr.val < x + 512) :
    exec (.trigPinEdge pin up tt fr) s = .next s := by
  rw [exec_trigPinEdge, if_pos (by simp [edgeNear, he, hx, hn])]
  rfl
end

/-! ### CAPTURE_CLOSE (R339) -/

section
variable {s : State} {u : UnitNo}
/-- The record of a unit that is STOPPED (R330). -/
def stopped (y : AcqU) : AcqU := { y with st := 4, trig := none, post := none, npost := 0, ovf := false }
/-- A unit that is STOPPED and has forgotten what it recorded. -/
def unStopped (s : State) (u : Nat) : State := modUn (unClear s u) u stopped
theorem unitTurn_unStopped (s : State) (u : Nat) : unitTurn u s (unStopped s u) := (unitTurns u).trans (unitTurn_unClear s u) (unitTurn_modUn _ u _)
theorem log_unStopped (s : State) (u : Nat) : (unStopped s u).log = s.log := rfl
/-- The event of a capture stays in the log behind those that the log has room for. -/
theorem logged_capClose {s t : State} {u n last : Nat} {g : Trig} (h : logWithin n (capClose s u g last) t) (hn : n < 524288) : logged t 0xA101 u :=
  logWithin.logged h hn

theorem exec_captureClose_other (h : (unOf s u).st ≠ 3) : exec (.captureClose u) s = .next s := by
  show execCaptureClose u s = _
  unfold execCaptureClose
  dsimp only
  split
  next g last hst _ _ => exact absurd hst h
  next => rfl

section
variable {g : Trig} {last : Nat} (hs : (unOf s u).st = 3) (hg : (unOf s u).trig = some g) (hl : (unOf s u).lastT = some last)
  (hw : ∀ k ∈ unStaged s u, last < k.t0 + 160)
include hs hg hl hw
/-- A CLOSING unit of whose capture no block is staged any more. -/
theorem exec_captureClose : exec (.captureClose u) s = finishD s (if unMode s u = 1 then unRearm (capClose s u g last) u false
    else unStopped (capClose s u g last) u) := by
  have ha : (unStaged s u).any (fun k => decide (k.t0 + 160 ≤ last)) = false := List.any_eq_false.mpr fun k hk => by simpa using hw k hk
  show execCaptureClose u s = _
  unfold execCaptureClose
  simp only [hs, hg, hl, ha]
  rfl
theorem captureClose_stops (hm : unMode s u ≠ 1) : goes (.captureClose u) s (fun t => kilnOnly s t ∧ (unOf t u).st = 4 ∧
    (unOf t u).caps = [capForm s u g last] ∧ (unOf t u).trig = none ∧ logged t 0xA101 u) := by
  have hx := exec_captureClose hs hg hl hw
  rw [if_neg hm] at hx
  have hk : kilnOnly s (unStopped (capClose s u g last) u) := kilnOnlys.trans (unitTurn_capClose s u g last).1 (unitTurn_unStopped _ u).1
  have hy : unOf (unStopped (capClose s u g last) u) u = stopped (unOf (unClear (capClose s u g last) u) u) := unOf_modUn _ _ _
  have hc : (unOf (unClear (capClose s u g last) u) u).caps = [capForm s u g last] := by rw [unOf_unClear, unOf_capClose, if_neg hm]
  exact goes_quiet hx hk ⟨hk, by rw [hy]; rfl, by rw [hy]; exact hc, by rw [hy]; rfl, logged_capClose (n := 0) (logWithin_of_log (log_unStopped _ u) 0) (by decide)⟩
theorem captureClose_rearms (hm : unMode s u = 1) : goes (.captureClose u) s (fun t => kilnOnly s t ∧ (unOf t u).st ∈ [1, 5] ∧
    (unOf t u).trig = none ∧ logged t 0xA101 u) := by
  have hx := exec_captureClose hs hg hl hw
  rw [if_pos hm] at hx
  have hr := rearmed_unRearm (capClose s u g last) u false
  have hk := kilnOnlys.trans (unitTurn_capClose s u g last).1 hr.turn.1
  exact goes_quiet hx hk ⟨hk, hr.st, hr.trig, logged_capClose hr.log (by decide)⟩
end
end

/-! ### Changes of rate (R342 to R344) -/

section
variable {s : State} {u : UnitNo}
theorem acqDecimationLower_lowers (hl : s.kiln.lowBolts = 32 ∨ ((unOf s u).st = 6 ∧ (unOf s u).lowRing = 32)) (hd : (unOf s u).rateDue = none)
    (hb : (unOf s u).rateBolt = false) (hc : pnat s 0x0701 u < (unOf s u).code) :
    exec (.acqDecimationLower u) s = .next (modUn s u (fun x => { x with rateDue := some (x.code - 1) })) := by
  have hr : rateDecide s u false = modUn s u (fun x => { x with rateDue := some (x.code - 1) }) := modUn_congr (by simp [hd, hb, hc])
  show finishD s (if _ then _ else s) = _
  rw [if_pos hl, hr]
  rfl
theorem acqDecimationLower_idle (hl : s.kiln.lowBolts ≠ 32) (hr : (unOf s u).lowRing ≠ 32) : exec (.acqDecimationLower u) s = .next s := by
  show finishD s (if _ then _ else s) = _
  rw [if_neg (by simp [hl, hr])]
  rfl

/-- The record of a unit with a change of its rate at a pick (R344). -/
def rateTaken (p : BitVec 32) (c : Nat) (x : AcqU) : AcqU := { x with code := c, rateDue := none, rateBolt := true, rates := x.rates ++ [(p, c)] }
/-- A unit at its new rate, with the event of the change: its open blocks are closed before (R344). -/
def rateApplied (s : State) (u c : Nat) : State :=
  raise (modUn (unFlush s u) u (rateTaken (ps s) c)) 0xA102 u ([BitVec.ofNat 8 c] ++ le 4 (ps s).toNat)
theorem acqRateApply_applies {c : Nat} (hd : (unOf s u).rateDue = some c) (hp : (ps s).toNat % 2 ^ c = 0) (ha : s.clk.afterDl = false) :
    goes (.acqRateApply u) s (fun t => kilnOnly s t ∧ (unOf t u).code = c ∧ (unOf t u).rateDue = none ∧ (unOf t u).rateBolt = true ∧ (unOf t u).opens = [] ∧
      raised s t 0xA102 u ([BitVec.ofNat 8 c] ++ le 4 (ps s).toNat)) := by
  have hx : exec (.acqRateApply u) s = finishD s (rateApplied s u c) := by
    show execAcqRateApply u s = _
    unfold execAcqRateApply
    simp only [hd, hp, ha, and_self, if_true]
    rfl
  have hk : kilnOnly s (rateApplied s u c) :=
    kilnOnlys.trans (kilnOnlys.trans (unitTurn_unFlush s u).1 (unitTurn_modUn _ u _).1) (kilnOnlys.event _ _ _ _)
  have hy : unOf (rateApplied s u c) u = rateTaken (ps s) c (unOf (unFlush s u) u) := unOf_modUn (unFlush s u) u _
  have ho : (unOf (unFlush s u) u).opens = [] := by rw [unOf_unFlush]
  exact goes_quiet hx hk ⟨hk, by rw [hy]; rfl, by rw [hy]; rfl, by rw [hy]; rfl, by rw [hy]; exact ho, rfl⟩
theorem acqRateApply_idle (hd : (unOf s u).rateDue = none) : exec (.acqRateApply u) s = .next s := by
  show execAcqRateApply u s = _
  unfold execAcqRateApply
  rw [hd]
  rfl
end

/-! ### KILN_BLOCK_WRITE (R342) -/

section
variable {s : State} {d : Nat} {k : KBlock} {rest : List (Nat × KBlock)}
theorem exec_kilnBlockWrite (h : s.kiln.staged = (d, k) :: rest) : exec .kilnBlockWrite s =
    finishD s (if d < 8 then unWrite { s with kiln.staged := rest } d k else hiWrite { s with kiln.staged := rest } k) := by
  show execKilnBlockWrite s = _
  unfold execKilnBlockWrite
  rw [h]
theorem kilnBlockWrite_unit (h : s.kiln.staged = (d, k) :: rest) (hd : d < 8) (hs : (unOf s d).st = 2 ∨ (unOf s d).st = 3) :
    exec .kilnBlockWrite s = .next (modUn { s with kiln.staged := rest } d (fun y => { y with blocks := y.blocks ++ [k] })) := by
  have hst : (unOf { s with kiln.staged := rest } d).st = 2 ∨ (unOf { s with kiln.staged := rest } d).st = 3 := hs
  rw [exec_kilnBlockWrite h, if_pos hd, unWrite]
  simp only [show (unOf { s with kiln.staged := rest } d).st ≠ 6 by omega, show (unOf { s with kiln.staged := rest } d).st ≠ 1 by omega, if_false, if_pos hst]
  rfl
theorem kilnBlockWrite_history (h : s.kiln.staged = (d, k) :: rest) (hd : 8 ≤ d) :
    exec .kilnBlockWrite s = .next (hiWrite { s with kiln.staged := rest } k) := by
  rw [exec_kilnBlockWrite h, if_neg (by omega)]
  rfl
theorem kilnBlockWrite_empty (h : s.kiln.staged = []) : exec .kilnBlockWrite s = .next s := by
  show execKilnBlockWrite s = _
  unfold execKilnBlockWrite
  rw [h]
  rfl
end

/-! ### HIST_POST_FAULT_FREEZE (R351) -/

section
variable {s : State} {a : AxisNo}
theorem histPostFaultFreeze_stops (h : (hiOf s a).left = some 0) : goes (.histPostFaultFreeze a) s (fun t =>
    histTurn a s t ∧ hiOf t a = { hiOf s a with opens := [], frozen := true, left := none }) := by
  have hx : exec (.histPostFaultFreeze a) s = finishD s (modHi (hiFlush s a) a (fun y => { y with frozen := true, left := none })) := by
    show finishD s (if _ then _ else s) = _
    rw [if_pos h]
  have ht := histTurn_closed s a (fun y => { y with frozen := true, left := none })
  exact goes_quiet hx ht.1 ⟨ht, hiOf_closed s a _⟩
theorem histPostFaultFreeze_idle (h : (hiOf s a).left = none) : exec (.histPostFaultFreeze a) s = .next s := by
  show finishD s (if _ then _ else s) = _
  rw [if_neg (by simp [h])]
  rfl
end

end Sys2Proof.Machine

/-- Settles O44: each row by its effect where its condition holds, that of a capture that closes by the mode of its unit (`exec_captureClose`,
`rearmed_unRearm`), and by the unchanged state where it does not. -/
theorem acquisitionRows : Obligations.AcquisitionRows := by
  intro s
  refine ⟨fun pin up tt fr u hu h5 h6 ha he hs hst => trigPinEdge_arrives hu h5 h6 ha he hs hst, fun pin up tt fr x => trigPinEdge_near,
    fun u g last hs hg hl hm hw => captureClose_stops hs hg hl hw hm, fun u g last hs hg hl hm hw => captureClose_rearms hs hg hl hw hm,
    fun u => exec_captureClose_other, fun u => acqDecimationLower_lowers, fun u => acqDecimationLower_idle, fun u c => acqRateApply_applies,
    fun u => acqRateApply_idle, fun d k rest => kilnBlockWrite_unit, fun d k rest => kilnBlockWrite_history, kilnBlockWrite_empty, fun a h => ?_,
    fun a => histPostFaultFreeze_idle⟩
  obtain ⟨t, hx, ⟨hq, ho, -⟩, hy⟩ := histPostFaultFreeze_stops h
  exact ⟨t, hx, hq, hy, ho⟩
end

section
/-! What taking entries leaves: the rings and mailboxes that command entries reach (R361 to R366), and the events that become pending
beside them (R367). -/
open Sys2Proof Sys2Proof.Machine
namespace Sys2Proof.Machine

/-! ### One frame for everything that takes entries -/

/-- A relation that holds where a mailbox, an entry of a ring, an item or the turn alone has changed, and along successive changes. -/
structure Taking (R : State → State → Prop) : Prop extends Steps R where
  box : ∀ s m f, R s (modMb s m f)
  put : ∀ s m x, R s (ringPut s m x)
  item : ∀ s b, R s (sendItem s b)
  turn : ∀ s m op, R s (noteTurn s m op)

namespace Taking
variable {R : State → State → Prop} (hR : Taking R)
include hR

theorem events (m n : Nat) (s : State) : R s (evtFlush m n s) := by
  induction n generalizing s with
  | zero => exact hR.refl s
  | succ n ih =>
    refine hR.trans ?_ (ih _)
    unfold evtPut
    split
    · exact hR.refl s
    · exact hR.toSteps.ite (hR.refl s) (hR.trans (hR.box s m _) (hR.put _ m _))
theorem written (s : State) (m : Nat) (c : Cpl) : R s (writeCpl s m c) := by
  have h : R s (evtsFirst s m) := hR.toSteps.ite (hR.events m _ s) (hR.refl s)
  exact hR.trans h (hR.toSteps.ite (hR.trans (hR.box _ m _) (hR.put _ m _)) (hR.box _ m _))
theorem produced (s : State) (m : Nat) (f : Flight) (st : Nat) (pl : Bytes) : R s (produce s m f st pl) :=
  hR.trans (hR.trans (hR.box s m _) (hR.toSteps.ite (hR.item _ _) (hR.refl _))) (hR.written _ m _)
theorem notAccepted (s : State) (e : CmdEntry) (op st : Nat) (pl : Bytes) : R s (notAcc s e op st pl) := hR.trans (hR.box s _ _) (hR.written _ _ _)
theorem repeated (s : State) (e : CmdEntry) (op : Nat) : R s (repeatAns s e op) := by
  unfold repeatAns
  dsimp only
  split
  · exact hR.trans (hR.box s _ _) (hR.written _ _ _)
  · exact hR.notAccepted s e op _ _
/-- Branch by branch, in the order of the checks of `accept`. -/
theorem accepted (s : State) (e : CmdEntry) (op : Nat) : R s (accept s e op) := by
  have hn := hR.notAccepted s e op
  have hi := hR.toSteps
  exact hi.ite (hR.trans (hR.box s _ _) (hR.notAccepted _ e op _ _))
    (hi.ite (hi.ite (hn _ _) (hi.ite (hn _ _) (hi.ite (hn _ _) (hR.trans (hR.box s _ _) (hR.item _ _)))))
      (hi.ite (hi.ite (hR.refl s) (hR.repeated s e op)) (hi.ite (hn _ _) (hn _ _))))
theorem unlisted (n : Nat) (s : State) : R s (unlistedRun n s) := by
  induction n generalizing s with
  | zero => exact hR.refl s
  | succ n ih =>
    unfold unlistedRun
    split
    · exact hR.toSteps.ite (hR.refl s) (hR.trans (hR.trans (hR.turn s _ _) (hR.produced _ _ _ _ _)) (ih _))
    · exact hR.refl s
theorem delivered (s : State) (e : CmdEntry) (op : Nat) : R s (deliver s e op) :=
  hR.trans (hR.accepted s e op) (hR.toSteps.ite (hR.refl _) (hR.toSteps.cond _ (hR.unlisted _) _))
theorem turnedAway (s : State) (m : MasterNo) (p : Parsed) : R s (malformed s m p) := by
  unfold malformed
  dsimp only
  split
  · exact hR.trans (hR.box s _ _) (hR.notAccepted _ _ _ _ _)
  · exact hR.box s _ _
/-- The bytes of an entry that a transport hands over. -/
theorem entry (s : State) (m : MasterNo) (bs : Bytes) : R s (takeEntry s m bs) := by
  unfold takeEntry
  split
  · exact hR.delivered s _ _
  · exact hR.turnedAway s m _
end Taking

theorem quietTaking : Taking quiet where
  refl := quiet.refl
  trans := quiet.trans
  box := quiet_modMb
  put := quiet_ringPut
  item := quiet_sendItem
  turn := quiet_noteTurn

/-- A listed command whose entry is taken at once is in flight as its transport hands it over, and no other mailbox has changed. -/
theorem deliver_taken {s : State} {e : CmdEntry} {op : Nat} (hop : opcodes.contains op = true) (h : entryTakes s e = true) :
    quiet s (deliver s e op) ∧ mbsBut s (deliver s e op) e.master ∧
      (mbOf (deliver s e op) e.master).flights = [{ entry := e, opcode := op, wait := none }] ∧ (mbOf (deliver s e op) e.master).sNext = e.seq + 1 := by
  have hd : deliver s e op = accept s e op := by rw [deliver, if_pos hop]
  have hs : e.seq = (mbOf s e.master).sNext := by
    simp only [entryTakes, Bool.and_eq_true, beq_iff_eq] at h
    exact h.1.1.1.2
  rw [hd]
  refine ⟨quiet_accept s e op, fun k hk => taken_others op h hk, taken_flights op h, ?_⟩
  rw [accept_entryTakes op h, mbOf_takeIn, mbOf_modMb, hs]

/-! ### Events that become pending (R367) -/

section
variable {β : Type} {p : Mb → β}
/-- A part of a mailbox that an event leaves alone when it becomes pending: everything but the pending events and the count of merged ones. -/
def eventFree (p : Mb → β) : Prop := ∀ (x : Mb) (ev : List Ev) (n : Nat), p { x with events := ev, evtMerged := n } = p x

theorem part_mbEvent (hp : eventFree p) (m : Nat) (e : Ev) (x : Mb) : p (mbEvent m e x) = p x := by
  unfold mbEvent
  split
  · exact hp x _ _
  · dsimp only
    split
    · exact hp x _ x.evtMerged
    · split <;> exact hp x _ _
theorem part_raise (hp : eventFree p) (s : State) (c i : Nat) (pl : Bytes) (k : Nat) : p (mbOf (raise s c i pl) k) = p (mbOf s k) := by
  show p (tabGet {} (mbsEvent s _) k) = _
  unfold mbsEvent mbOf
  generalize s.mbs = t
  induction List.range 12 generalizing t with
  | nil => rfl
  | cons m ms ih =>
    rw [List.foldl_cons, ih]
    split
    · by_cases hk : k = m
      · rw [hk, tabGet_tabMod_same, part_mbEvent hp]
      · rw [tabGet_tabMod_other _ _ _ hk]
    · rfl
end

/-! ### The front of the queue (log 13) -/

theorem step_cons (s : State) (c : Instr) (cs : List Instr) : step { s with pending := c :: cs } = exec c { s with pending := cs } := rfl
theorem step_nil {s : State} (h : s.pending = []) : step s = .next s := by
  unfold step
  rw [h]

end Sys2Proof.Machine

/-- Settles O55: the queue by its front. -/
theorem stepTakesFront : Obligations.StepTakesFront := fun s c cs => ⟨step_cons s c cs, step_nil⟩
end

section
/-! The rows of Ethernet: the datagrams of a session and its ends (R368 to R372). -/
open Sys2Proof Sys2Proof.Machine
namespace Sys2Proof.Machine

/-! ### Sessions and their frame -/

@[simp] theorem sessOf_modSess (s : State) (m : Nat) (f : SessPair → SessPair) : sessOf (modSess s m f) m = f (sessOf s m) := tabGet_tabMod_same ..
theorem sessOf_modSess_other (s : State) {m k : Nat} (f : SessPair → SessPair) (h : k ≠ m) : sessOf (modSess s m f) k = sessOf s k :=
  tabGet_tabMod_other _ _ f h

/-- Outside Ethernet and the carriers nothing has changed. -/
def ethFrame (s t : State) : Prop := quiet { s with eth := t.eth } t

theorem ethFrame.behind {s t u : State} (h : ethFrame s t) (k : quiet t u) : ethFrame s u := by
  unfold ethFrame quiet at *
  rw [k, h]
theorem eth_of_quiet {s t : State} (h : quiet s t) : t.eth = s.eth := by
  unfold quiet at h
  rw [h]
theorem sessOf_of_eth {s t : State} (h : t.eth = s.eth) (m : Nat) : sessOf t m = sessOf s m := by
  unfold sessOf
  rw [h]

section
variable {s : State} {mac : MacNo} {dst : UdpTo} {src : UdpFrom} {dg : Bytes}

/-! ### Datagrams that are not taken -/

/-- A datagram that does not reach the mailbox of its MAC changes nothing (R368). -/
theorem exec_ethRows_elsewhere (h : toMailbox s mac dst = false) : exec (.ethHelloReceive mac dst src dg) s = .next s ∧
    exec (.ethDataReceive mac dst src dg) s = .next s ∧ exec (.ethCloseReceive mac dst src dg) s = .next s := by
  have hw : ∀ (c : Bool) (f : State → State), finishD s (when (toMailbox s mac dst && c) f s) = .next s := fun c f => by rw [h]; rfl
  exact ⟨hw _ _, hw _ _, hw _ _⟩

/-- A datagram that fails under R371 is counted in its master's block, and beside the note of its MAC carriers alone change. -/
theorem dgDrop_counted (s : State) (mac : Nat) {m : Nat} (hm : ethMaster m = true) :
    ethFrame s (dgDrop s mac m) ∧ (dgDrop s mac m).eth.sess = s.eth.sess ∧ (mbOf (dgDrop s mac m) m).dropAuth = satInc 32 (mbOf s m).dropAuth := by
  have hc : (mbOf (modMb s m fun b => { b with dropAuth := satInc 32 b.dropAuth }) m).dropAuth = satInc 32 (mbOf s m).dropAuth := by rw [mbOf_modMb]
  unfold dgDrop
  simp only [hm, when_true, modMb_eth]
  split
  · exact ⟨rfl, rfl, hc⟩
  · exact ⟨rfl, rfl, (part_raise (p := Mb.dropAuth) (fun _ _ _ => rfl) _ _ _ _ m).trans hc⟩

/-! ### HELLO (R370) -/

theorem exec_ethHello (ht : toMailbox s mac dst = true) (hd : dgType dg = 1) :
    exec (.ethHelloReceive mac dst src dg) s = finishD s (helloReceive s mac src.ip src.port dg) := by
  show finishD s (when (toMailbox s mac dst && dgType dg = 1) _ s) = _
  rw [ht, hd]
  rfl

/-- The session that a HELLO under the key of a slot opens. -/
def helloSess (s : State) (mac ip port : Nat) (dg : Bytes) (i : Nat) : Sess :=
  let sid := sidNew s (Config.newSid s.eth.draws)
  { sid := sid, key := sessKey (keyOf s i).key (dgBody dg) (le 16 (Config.nonce s.eth.draws).toNat) (dgMaster dg) sid, slot := i, mac := mac, ip := ip,
    port := port, ctrHi := 0, seen := [], txCtr := 0, t := s.clk.now }

theorem helloReceive_eq (mac ip port : Nat) {i : Nat} (hi : helloSlot s dg = some i) : ∃ ack, helloReceive s mac ip port dg =
    let s1 := modSess s (dgMaster dg) (fun p => { p with opening := some (helloSess s mac ip port dg i) })
    { s1 with eth.draws := s1.eth.draws + 1, eth.out := tabSet s1.eth.out mac (ip, port, ack) } := by
  unfold helloReceive
  simp only [hi]
  exact ⟨_, rfl⟩
/-- A HELLO that passes puts a new session beside the one in force, and its answer on the MAC. -/
theorem helloReceive_opens (mac ip port : Nat) {i : Nat} (hi : helloSlot s dg = some i) :
    let t := helloReceive s mac ip port dg
    ethFrame s t ∧ t.mbs = s.mbs ∧ t.eth.draws = s.eth.draws + 1 ∧ (sessOf t (dgMaster dg)).cur = (sessOf s (dgMaster dg)).cur ∧
      (sessOf t (dgMaster dg)).opening = some (helloSess s mac ip port dg i) ∧ ∃ ack, tabFind t.eth.out mac = some (ip, port, ack) := by
  obtain ⟨ack, ht⟩ := helloReceive_eq mac ip port hi
  have hm := sessOf_modSess s (dgMaster dg) fun p => { p with opening := some (helloSess s mac ip port dg i) }
  rw [ht]
  exact ⟨rfl, rfl, rfl, (congrArg SessPair.cur hm :), (congrArg SessPair.opening hm :), ack, tabFind_tabSet_same _ _ _⟩

theorem helloReceive_fails (mac ip port : Nat) (hi : helloSlot s dg = none) : helloReceive s mac ip port dg = dgDrop s mac (dgMaster dg) := by
  unfold helloReceive
  simp only [hi]

/-! ### DATA (R371) -/

theorem exec_ethData (ht : toMailbox s mac dst = true) (hd : dgType dg = 3) :
    exec (.ethDataReceive mac dst src dg) s = finishD s (dataReceive s mac src.ip src.port dg) := by
  show finishD s (when (toMailbox s mac dst && dgType dg = 3) _ s) = _
  rw [ht, hd]
  rfl

/-- The session that a used datagram leaves in force: the one it names, which is no longer opening. -/
theorem sessPut_inForce (s : State) (m : Nat) (o : Bool) (x : Sess) :
    ethFrame s (sessPut s m o x) ∧ (sessOf (sessPut s m o x) m).cur = some x ∧ (o = true → (sessOf (sessPut s m o x) m).opening = none) ∧
      (sessPut s m o x).log = s.log ∧ (o = false → (sessPut s m o x).mbs = s.mbs) ∧
      (o = true → (mbOf (sessPut s m o x) m).sessions = satInc 16 (mbOf s m).sessions) := by
  cases o with
  | false => exact ⟨rfl, congrArg SessPair.cur (sessOf_modSess s m _), nofun, rfl, fun _ => rfl, nofun⟩
  | true =>
    have hs := sessOf_modSess s m fun _ => { cur := some x, opening := none }
    exact ⟨rfl, congrArg SessPair.cur hs, fun _ => congrArg SessPair.opening hs, rfl, nofun, fun _ => congrArg Mb.sessions (mbOf_modMb _ m _)⟩

theorem dataReceive_used (mac ip port : Nat) {o : Bool} {x : Sess} {es : List Bytes} (hu : dgUsable s dg = some (o, x, es)) :
    dataReceive s mac ip port dg = forEach es (fun t b => takeEntry t (Fin.ofNat 12 (dgMaster dg)) b)
      (sessPut s (dgMaster dg) o (sessUse s.clk.now mac ip port (dgCtr dg) x)) := by
  unfold dataReceive
  simp only [hu]
theorem dataReceive_fails (mac ip port : Nat) (hu : dgUsable s dg = none) : dataReceive s mac ip port dg = dgDrop s mac (dgMaster dg) := by
  unfold dataReceive
  simp only [hu]

/-- A usable datagram leaves its session in force; its entries move carriers alone. -/
theorem dataReceive_inForce (mac ip port : Nat) {o : Bool} {x : Sess} {es : List Bytes} (hu : dgUsable s dg = some (o, x, es)) :
    let t := dataReceive s mac ip port dg
    ethFrame s t ∧ (sessOf t (dgMaster dg)).cur = some (sessUse s.clk.now mac ip port (dgCtr dg) x) ∧ (o = true → (sessOf t (dgMaster dg)).opening = none) ∧
      (es = [] → t.log = s.log ∧ (o = false → t.mbs = s.mbs) ∧ (o = true → (mbOf t (dgMaster dg)).sessions = satInc 16 (mbOf s (dgMaster dg)).sessions)) := by
  rw [dataReceive_used mac ip port hu]
  obtain ⟨hf, hc, ho, hl, hm, hn⟩ := sessPut_inForce s (dgMaster dg) o (sessUse s.clk.now mac ip port (dgCtr dg) x)
  have hq := quietTaking.toSteps.loop es (fun t b => quietTaking.entry t (Fin.ofNat 12 (dgMaster dg)) b)
    (sessPut s (dgMaster dg) o (sessUse s.clk.now mac ip port (dgCtr dg) x))
  have hs := sessOf_of_eth (eth_of_quiet hq) (dgMaster dg)
  refine ⟨hf.behind hq, by rw [hs, hc], fun h => by rw [hs, ho h], fun he => ?_⟩
  subst he
  exact ⟨hl, hm, hn⟩

/-! ### CLOSE and the timeouts (R370, R372) -/

theorem exec_ethClose (ht : toMailbox s mac dst = true) (hd : dgType dg = 4) :
    exec (.ethCloseReceive mac dst src dg) s = finishD s (closeReceive s mac dg) := by
  show finishD s (when (toMailbox s mac dst && dgType dg = 4) _ s) = _
  rw [ht, hd]
  rfl

/-- A datagram that names no opening session names the one in force. -/
theorem sessNamed_inForce {bs : Bytes} {x : Sess} (h : sessNamed s bs = some (false, x)) : (sessOf s (dgMaster bs)).cur = some x := by
  unfold sessNamed at h
  dsimp only at h
  split at h
  · next y hy =>
    cases h
    exact (Option.filter_eq_some_iff.mp hy).1
  · cases h
  · cases h
theorem dgUsable_named {bs : Bytes} {o : Bool} {x : Sess} {es : List Bytes} (h : dgUsable s bs = some (o, x, es)) : sessNamed s bs = some (o, x) := by
  unfold dgUsable at h
  split at h
  · split at h
    · next hn _ =>
      split at h
      · cases h
        exact hn
      · cases h
    · cases h
  · cases h

theorem closeReceive_used {o : Bool} {x : Sess} (hu : dgUsable s dg = some (o, x, [])) : closeReceive s mac dg =
    if o then modSess s (dgMaster dg) (fun p => { p with opening := none }) else sessClose s (dgMaster dg) 1 := by
  unfold closeReceive
  simp only [hu]
  rfl

/-- The open session of a master closes with its event; the sessions of the others stay. -/
theorem sessClose_closes (s : State) (m cause : Nat) (h : (sessOf s m).cur.isSome = true) :
    let t := sessClose s m cause
    ethFrame s t ∧ (sessOf t m).cur = none ∧ raised s t 0x1102 m (le 1 cause) ∧ ∀ k, k ≠ m → sessOf t k = sessOf s k := by
  unfold sessClose
  rw [if_pos h]
  exact ⟨rfl, congrArg SessPair.cur (sessOf_modSess s m _), rfl, fun k hk => sessOf_modSess_other s _ hk⟩

theorem sessionTimeout_idle (m : MasterNo) (h : (sessOf s m).cur = none) : exec (.sessionTimeout m) s = .next s := by
  show finishD s (sessClose s m 2) = _
  unfold sessClose
  rw [h]
  rfl
theorem exec_sessionOpenTimeout (s : State) (m : MasterNo) :
    exec (.sessionOpenTimeout m) s = .next (if (sessOf s m).opening.isSome then modSess s m (fun p => { p with opening := none }) else s) := by
  show finishD s (if _ then _ else s) = _
  split <;> rfl
end

end Sys2Proof.Machine

/-- Settles O45: a datagram that does not reach its mailbox changes nothing, a HELLO by its slot (`helloReceive_opens`), a DATA or CLOSE by the session
that it names (`dataReceive_inForce`, `sessClose_closes`), and one that fails by its count (`dgDrop_counted`). -/
theorem sessionRows : Obligations.SessionRows := by
  intro s mac dst ip port dg
  refine ⟨exec_ethRows_elsewhere, fun i ht hd hi => ?_, fun ht hd hi hm => ?_, fun o x es ht hd hu => ?_, fun ht hd hu hm => ?_, fun x ht hd hu => ?_,
    fun x ht hd hu => ?_, exec_sessionOpenTimeout s, fun m hc => ?_, sessionTimeout_idle⟩
  · obtain ⟨hf, hm, hn, hc, ho, ha⟩ := helloReceive_opens mac ip port hi
    exact goes_quiet (exec_ethHello ht hd) hf ⟨hf, hm, hn, hc, ⟨_, ho, rfl, rfl, rfl⟩, ha⟩
  · have h := dgDrop_counted s mac hm
    exact goes_quiet ((exec_ethHello ht hd).trans (by rw [helloReceive_fails mac ip port hi])) h.1 h
  · have h := dataReceive_inForce mac ip port hu
    exact goes_quiet (exec_ethData ht hd) h.1 h
  · obtain ⟨hf, hs, hc⟩ := dgDrop_counted s mac hm
    exact goes_quiet ((exec_ethData ht hd).trans (by rw [dataReceive_fails mac ip port hu])) hf ⟨hs, hc, hf⟩
  · have hc : (sessOf s (dgMaster dg)).cur.isSome = true := by rw [sessNamed_inForce (dgUsable_named hu)]; rfl
    obtain ⟨hf, hn, he, -⟩ := sessClose_closes s (dgMaster dg) 1 hc
    exact goes_quiet ((exec_ethClose ht hd).trans (by rw [closeReceive_used hu]; rfl)) hf ⟨hf, hn, he⟩
  · rw [exec_ethClose ht hd, closeReceive_used hu]
    rfl
  · have h := sessClose_closes s m 2 hc
    exact goes_quiet rfl h.1 h
end

section
/-! What Ethernet answers and sends: ARP, ICMP and the DATA datagrams of a master (R368, R371). -/
open Sys2Proof Sys2Proof.Machine
namespace Sys2Proof.Machine

section
variable {s : State} {mac : MacNo} {ip target port : Nat} {data : Bytes}

/-- A request to the address of a MAC in service is answered on it. -/
theorem macAnswer_own (hm : macOn s mac = true) (ha : pnat s 0x0A01 mac = target) :
    macAnswer s mac ip target port data = { s with eth.out := tabSet s.eth.out mac (ip, port, data) } := by
  unfold macAnswer
  simp only [hm, ha, decide_true, Bool.and_self, when_true]
theorem macAnswer_other (h : macOn s mac = false ∨ pnat s 0x0A01 mac ≠ target) : macAnswer s mac ip target port data = s := by
  have hc : (macOn s mac && decide (pnat s 0x0A01 mac = target)) = false := by
    rcases h with h | h <;> simp [h]
  unfold macAnswer
  rw [hc, when_false]

theorem exec_arpRequest : exec (.arpRequest mac target ip) s = finishD s (macAnswer s mac ip target 0 (be 4 target)) := rfl
theorem exec_icmpEcho : exec (.icmpEchoRequest mac ⟨false, target⟩ ip data) s = finishD s (macAnswer s mac ip target 1 data) := rfl
theorem exec_icmpEcho_fragment : exec (.icmpEchoRequest mac ⟨true, target⟩ ip data) s = .next s := rfl
end

section
variable {s : State} {m : Nat} {x : Sess}

/-- What one datagram of a master takes of its ring, completions first, and what it leaves. -/
def dgEntries (s : State) (m : Nat) : List RingEntry × List RingEntry :=
  dgPack 1432 255 ((mbOf s m).ring.filter isCpl ++ (mbOf s m).ring.filter (fun y => !isCpl y))
/-- A mailbox with the entries on its ring that a datagram leaves. -/
def ringLeft (r : List RingEntry) (b : Mb) : Mb := { b with ring := r }
/-- The next DATA datagram of a session. -/
def dgNext (s : State) (m : Nat) (x : Sess) : Bytes :=
  dgMake x.key 3 m (dgEntries s m).1.length x.sid (x.txCtr + 1) ((dgEntries s m).1.map entryBytes).flatten

theorem datagramSend_live (hx : (sessOf s m).cur = some x) (hr : (mbOf s m).ring ≠ []) (hl : sessLive s x = true) (hm : macOn s x.mac = true) :
    datagramSend s m =
      let s1 := modSess (modMb s m (ringLeft (dgEntries s m).2)) m (fun p => { p with cur := some { x with txCtr := x.txCtr + 1 } })
      { s1 with eth.out := tabSet s1.eth.out x.mac (x.ip, x.port, dgNext s m x) } := by
  unfold datagramSend
  simp only [hx, hl, hm]
  rw [if_neg (by simpa using hr)]
  rfl

/-- A live session on a MAC in service sends the entries that fit, with the next counter value. -/
theorem datagramSend_sends (hx : (sessOf s m).cur = some x) (hr : (mbOf s m).ring ≠ []) (hl : sessLive s x = true) (hm : macOn s x.mac = true) :
    let t := datagramSend s m
    ethFrame s t ∧ mbsBut s t m ∧ (mbOf t m).ring = (dgEntries s m).2 ∧ (sessOf t m).cur = some { x with txCtr := x.txCtr + 1 } ∧
      tabFind t.eth.out x.mac = some (x.ip, x.port, dgNext s m x) := by
  rw [datagramSend_live hx hr hl hm]
  have hb := mbOf_modMb s m (ringLeft (dgEntries s m).2)
  have hs := sessOf_modSess s m fun p => { p with cur := some { x with txCtr := x.txCtr + 1 } }
  exact ⟨rfl, fun k hk => mbOf_modMb_other s (ringLeft (dgEntries s m).2) hk, (congrArg Mb.ring hb :), (congrArg SessPair.cur hs :),
    tabFind_tabSet_same _ _ _⟩
theorem datagramSend_closed (h : (sessOf s m).cur = none) : datagramSend s m = s := by
  unfold datagramSend
  rw [h]
end

end Sys2Proof.Machine

/-- Settles O46: a request by whether it names the address of a MAC in service (`macAnswer_own`, `macAnswer_other`), a datagram by the session of its
master (`datagramSend_sends`). -/
theorem ethernetAnswers : Obligations.EthernetAnswers := by
  intro s mac ip target data
  refine ⟨fun hm ha => ?_, fun h => ?_, exec_icmpEcho_fragment, fun m x hx hr hl hm => ?_, fun m h => ?_⟩
  · rw [exec_arpRequest, exec_icmpEcho, macAnswer_own hm ha, macAnswer_own hm ha]
    exact ⟨rfl, rfl⟩
  · rw [exec_arpRequest, exec_icmpEcho, macAnswer_other h, macAnswer_other h]
    exact ⟨rfl, rfl⟩
  · have h := datagramSend_sends hx hr hl hm
    exact goes_quiet rfl h.1 h
  · show finishD s (datagramSend s m) = _
    rw [datagramSend_closed h]
    rfl
end

section
/-! The completion rings, the gateways of the CAN channels and the loads that time out (R361, R366, R367, R374, R393). -/
open Sys2Proof Sys2Proof.Machine
namespace Sys2Proof.Machine

section
variable {s : State} {m : Nat}

/-- An entry on the ring of a master of Ethernet or of the QSPI port stands last on it, and nothing else of any mailbox has changed. -/
theorem mbOf_ringPut_host (s : State) (x : RingEntry) (h1 : 1 ≤ m) (h5 : m ≤ 5) : mbOf (ringPut s m x) m = { mbOf s m with ring := (mbOf s m).ring ++ [x] } := by
  have hi : internalMaster m = false := by simp [internalMaster]; omega
  have hg : gwMaster m = false := by simp [gwMaster]; omega
  have hr := mbOf_modMb s m fun mb => { mb with ring := mb.ring ++ [x] }
  unfold ringPut
  rw [hi, hg, if_neg (by decide), if_neg (by omega), if_neg (by decide)]
  dsimp only
  split
  · exact hr
  · exact hr

/-! ### COMPLETION_WRITE (R366) -/

theorem retire_leaves (c : Cpl) (x : Mb) : (retire c x).ring = x.ring ∧ (retire c x).waiting = x.waiting ∧ (retire c x).events = x.events := by
  unfold retire
  split <;> exact ⟨rfl, rfl, rfl⟩

theorem writeWaiting_idle (h : (mbOf s m).waiting = [] ∨ ringFull s m = true) : writeWaiting s m = s := by
  unfold writeWaiting
  split
  · rfl
  · next hw => rw [if_pos (h.resolve_left (by simp [hw]))]

/-- The oldest completion that waits goes to its ring; the events still wait. -/
theorem writeWaiting_writes {c : Cpl} {cs : List Cpl} (hw : (mbOf s m).waiting = c :: cs) (hf : ringFull s m = false) (h1 : 1 ≤ m) (h5 : m ≤ 5) :
    let t := writeWaiting s m
    quiet s t ∧ mbsBut s t m ∧ (mbOf t m).ring = (mbOf s m).ring ++ [.cpl c] ∧ (mbOf t m).waiting = cs ∧ (mbOf t m).events = (mbOf s m).events := by
  unfold writeWaiting
  simp only [hw, hf, Bool.false_eq_true, if_false]
  obtain ⟨hr, hv, he⟩ := retire_leaves c { mbOf s m with waiting := cs, waitT := s.clk.now }
  refine ⟨((quiet_modMb s m _).trans (quiet_ringPut _ m _)).trans (quiet_modMb _ m _), fun k hk => ?_, ?_, ?_, ?_⟩
  · rw [mbOf_modMb_other _ _ hk, mbOf_ringPut_other _ _ hk, mbOf_modMb_other _ _ hk]
  · rw [mbOf_modMb, mbOf_ringPut_host _ _ h1 h5, mbOf_modMb, hr]
  · rw [mbOf_modMb, mbOf_ringPut_host _ _ h1 h5, mbOf_modMb, hv]
  · rw [mbOf_modMb, mbOf_ringPut_host _ _ h1 h5, mbOf_modMb, he]

/-! ### MB_RING_STALL (R366) -/

theorem ringStall_idle (h : (mbOf s m).waiting = []) : ringStall s m = s := by
  unfold ringStall
  rw [h]
  rfl
theorem ringStall_stalls (hw : (mbOf s m).waiting ≠ []) (hs : (mbOf s m).stalled = false) :
    let t := ringStall s m
    quiet s t ∧ (mbOf t m).stalled = true ∧ (mbOf t m).waiting = (mbOf s m).waiting ∧ raised s t 0x1104 m [] := by
  have hp := part_raise (p := fun x => (x.stalled, x.waiting)) (fun _ _ _ => rfl) (modMb s m fun b => { b with stalled := true }) 0x1104 m [] m
  rw [mbOf_modMb] at hp
  unfold ringStall
  rw [if_neg (by simp [hw, hs])]
  exact ⟨rfl, congrArg Prod.fst hp, congrArg Prod.snd hp, rfl⟩

/-! ### EVENT_DELIVER (R367) -/

theorem evtPut_idle (h : (mbOf s m).events = [] ∨ ringFull s m = true) : evtPut s m = s := by
  unfold evtPut
  split
  · rfl
  · next he => rw [if_pos (h.resolve_left (by simp [he]))]

/-- The oldest pending event goes to the ring with the next ESEQ. -/
theorem evtPut_delivers {x : Ev} {xs : List Ev} (he : (mbOf s m).events = x :: xs) (hf : ringFull s m = false) (h1 : 1 ≤ m) (h5 : m ≤ 5) :
    let t := evtPut s m
    quiet s t ∧ mbsBut s t m ∧ (mbOf t m).ring = (mbOf s m).ring ++ [.evt (mbOf s m).eseq x] ∧ (mbOf t m).events = xs ∧ (mbOf t m).eseq = (mbOf s m).eseq + 1 := by
  refine ⟨quiet_evtPut s m, ?_⟩
  unfold evtPut
  simp only [he, hf, Bool.false_eq_true, if_false]
  refine ⟨fun k hk => ?_, ?_⟩
  · rw [mbOf_ringPut_other _ _ hk, mbOf_modMb_other _ _ hk]
  · rw [mbOf_ringPut_host _ _ h1 h5, mbOf_modMb]
    exact ⟨rfl, rfl, rfl⟩

theorem exec_eventDeliver (m : MasterNo) : exec (.eventDeliver m) s = finishD s (if (mbOf s m).waiting.isEmpty then evtPut s m else s) := rfl

/-! ### A gateway's message (R374), a load that times out (R393) -/

section
variable {c : CanNo} {src : BitVec 8} {inFd : Bool} {data : Bytes} {e : CmdEntry} {op n : Nat}

/-- A whole message of the holder of the gateway's NAME is the command entry that it carries. -/
theorem exec_canGateway (hb : s.boot.ready = true) (hg : pnat s 0x0A0B c ≠ 0) (hm : (canOf s c).mode = 1) (hc : (canOf s c).claim = 2)
    (hh : canHolder (canOf s c) (pnat s 0x0A0B c) = some src.toNat) (hf : inFd = true → pnat s 0x0803 c % 2 = 1) (hd : List.headD data 0 = 1)
    (hp : parseEntry (Fin.ofNat 12 (6 + c.val)) (data.drop 1) = .ok e op n) (hl : gwLenOk n inFd data = true) :
    exec (.canGatewayMessage c ⟨src, inFd⟩ data) s = finishD s (deliver s e op) := by
  have ht : gwTake s (Fin.ofNat 12 (6 + c.val)) inFd data = deliver s e op := by
    unfold gwTake
    rw [if_pos hd]
    simp only [hp, hl, if_true]
  show finishD s (if _ then gwTake s (Fin.ofNat 12 (6 + c.val)) inFd data else s) = _
  rw [if_pos ⟨hb, hg, hm, hc, hh, hf⟩, ht]
end

theorem exec_mstabLoadTimeout (s : State) (n : NodeNo) :
    exec (.mstabLoadTimeout n) s = .next (if (ndOf s n).load.isSome then modNd s n (fun d => { d with load := none }) else s) := by
  show finishD s (if _ then _ else s) = _
  split <;> rfl
end

end Sys2Proof.Machine

/-- Settles O48: each row by its effect where its condition holds (`writeWaiting_writes`, `ringStall_stalls`, `evtPut_delivers`, `deliver_taken`), and by
the unchanged state where it does not. -/
theorem ringAndTimeoutRows : Obligations.RingAndTimeoutRows := by
  intro s m
  refine ⟨fun c cs hw hf h1 h5 => ?_, fun h => ?_, fun hw hs => ?_, fun h => ?_, fun x xs hw he hf h1 h5 => ?_, fun h => ?_,
    fun c src inFd data e op n hb hg hm hc hh hf hd hp hl hop he => ?_, exec_mstabLoadTimeout s⟩
  · have h := writeWaiting_writes hw hf h1 h5
    exact goes_quiet rfl h.1 h
  · exact congrArg (finishD s) (writeWaiting_idle h)
  · have h := ringStall_stalls hw hs
    exact goes_quiet rfl h.1 h
  · exact congrArg (finishD s) (ringStall_idle h)
  · have h := evtPut_delivers he hf h1 h5
    exact goes_quiet ((exec_eventDeliver m).trans (by rw [hw]; rfl)) h.1 h
  · rw [exec_eventDeliver]
    by_cases hw : (mbOf s m).waiting = []
    · rw [evtPut_idle (h.resolve_left (absurd hw)), ite_self]
      rfl
    · rw [if_neg (by simpa using hw)]
      rfl
  · have h := deliver_taken hop he
    exact goes_quiet (exec_canGateway hb hg hm hc hh hf hd hp hl) h.1 h
end

section
/-! The QSPI registers: the pointers of the two rings, the W1C bits, and the bytes that a register write puts (R373, R496). -/
open Sys2Proof Sys2Proof.Machine
namespace Sys2Proof.Machine

/-! ### Pointers of the rings -/

/-- The pointers of the command ring and RING_ERR, which taking entries leaves alone. -/
def cmdPtrs (s : State) : BitVec 16 × BitVec 16 × Bool := (s.qspi.cmdHead, s.qspi.cmdTail, s.qspi.ringErr)
/-- Carriers alone have changed, and of the QSPI registers neither pointer of the command ring nor RING_ERR. -/
def ptrsKept (s t : State) : Prop := quiet s t ∧ cmdPtrs t = cmdPtrs s

theorem ptrsKept_of_qspi {s t : State} (h : quiet s t) (hq : t.qspi = s.qspi) : ptrsKept s t := ⟨h, by rw [cmdPtrs, hq]; rfl⟩
theorem qspi_gwPump (c n : Nat) (s : State) : (gwPump s c n).qspi = s.qspi := by
  induction n generalizing s with
  | zero => rfl
  | succ n ih =>
    simp only [gwPump]
    split
    · split
      · rw [ih]
        unfold gwStart
        dsimp only
        split <;> rfl
      · rfl
    · rfl
/-- An entry on a completion ring moves CPL_HEAD at most. -/
theorem cmdPtrs_ringPut (s : State) (m : Nat) (x : RingEntry) : cmdPtrs (ringPut s m x) = cmdPtrs s := by
  unfold ringPut
  split
  · rfl
  · split
    · split <;> rfl
    · split
      · unfold gwSend cmdPtrs
        rw [qspi_gwPump]
        rfl
      · dsimp only
        split <;> rfl
theorem ptrsTaking : Taking ptrsKept where
  refl s := ⟨.refl s, rfl⟩
  trans h k := ⟨h.1.trans k.1, k.2.trans h.2⟩
  box s m f := ptrsKept_of_qspi (quiet_modMb s m f) rfl
  put s m x := ⟨quiet_ringPut s m x, cmdPtrs_ringPut s m x⟩
  item s b := ptrsKept_of_qspi (quiet_sendItem s b) rfl
  turn s m op := ptrsKept_of_qspi (quiet_noteTurn s m op) rfl

section
variable {s : State}

/-- What the host has written into slots of the command ring, from a slot on. -/
def slotsPut (s : State) (i0 : Nat) (sl : List Bytes) : State :=
  forEach (List.range (min sl.length 64)) (fun t k => cmdSlotPut t (i0 + k) (sl.getD k [])) s
/-- The command ring alone has changed. -/
def cmdRingOnly (s t : State) : Prop := t = { s with qspi.cmdMem := t.qspi.cmdMem }

theorem cmdRingSteps : Steps cmdRingOnly where
  refl _ := rfl
  trans h k := by
    unfold cmdRingOnly at *
    rw [k, h]
theorem cmdRingOnly_cmdSlotPut (s : State) (i : Nat) (bs : Bytes) : cmdRingOnly s (cmdSlotPut s i bs) := rfl
theorem cmdRingOnly_slotsPut (s : State) (i0 : Nat) (sl : List Bytes) : cmdRingOnly s (slotsPut s i0 sl) :=
  cmdRingSteps.loop _ (fun _ _ => cmdRingOnly_cmdSlotPut _ _ _) s

/-- A CMD_HEAD more than 64 slots ahead sets RING_ERR and hands no entry over. -/
theorem cmdHeadWrite_breaks {head : BitVec 16} (sl : List Bytes) (h : 64 < (head - s.qspi.cmdTail).toNat) :
    let t := cmdHeadWrite s head sl
    t = { s with qspi := { s.qspi with cmdMem := t.qspi.cmdMem, ringErr := true } } := by
  have h0 := cmdRingOnly_slotsPut s s.qspi.cmdTail.toNat sl
  rw [show cmdHeadWrite s head sl = ringErr (slotsPut s s.qspi.cmdTail.toNat sl) from if_pos h]
  unfold cmdRingOnly at h0
  rw [h0]
  rfl
/-- Any other CMD_HEAD hands the entries of its slots over. -/
theorem cmdHeadWrite_takes {head : BitVec 16} (sl : List Bytes) (h : (head - s.qspi.cmdTail).toNat ≤ 64) :
    let s0 := slotsPut s s.qspi.cmdTail.toNat sl
    cmdHeadWrite s head sl = forEach (List.range (head - s.qspi.cmdTail).toNat) (fun t k => takeEntry t 5 (cmdSlot t (s.qspi.cmdTail.toNat + k)))
      { s0 with qspi.cmdHead := head, qspi.cmdTail := head } := if_neg (by omega)
/-- Both pointers of the command ring stand at the new head behind the entries. -/
theorem cmdHeadWrite_pointers {head : BitVec 16} (sl : List Bytes) (h : (head - s.qspi.cmdTail).toNat ≤ 64) :
    quiet s (cmdHeadWrite s head sl) ∧ cmdPtrs (cmdHeadWrite s head sl) = (head, head, s.qspi.ringErr) := by
  have h0 := cmdRingOnly_slotsPut s s.qspi.cmdTail.toNat sl
  rw [cmdHeadWrite_takes sl h]
  generalize slotsPut s s.qspi.cmdTail.toNat sl = s0 at h0
  obtain ⟨hq, hp⟩ := ptrsTaking.toSteps.loop (List.range (head - s.qspi.cmdTail).toNat)
    (fun t k => ptrsTaking.entry t 5 (cmdSlot t (s.qspi.cmdTail.toNat + k))) { s0 with qspi.cmdHead := head, qspi.cmdTail := head }
  refine ⟨quiet.trans ?_ hq, hp.trans ?_⟩
  · rw [h0]
    rfl
  · rw [h0]
    rfl

theorem parseEntry_master {m : MasterNo} {bs : Bytes} {e : CmdEntry} {op n : Nat} (h : parseEntry m bs = .ok e op n) : e.master = m := by
  unfold parseEntry at h
  split at h
  · cases h
  · dsimp only at h
    split at h
    · cases h
    · cases h
      rfl
/-- One entry written into the slot at CMD_TAIL, and both pointers behind it. -/
def oneSlot (s : State) (bs : Bytes) : State :=
  { cmdSlotPut s s.qspi.cmdTail.toNat bs with qspi.cmdHead := s.qspi.cmdTail + 1, qspi.cmdTail := s.qspi.cmdTail + 1 }
theorem cmdSlot_oneSlot (s : State) (bs : Bytes) : cmdSlot (oneSlot s bs) s.qspi.cmdTail.toNat = padTo 1024 (bs.take 1024) :=
  congrArg (padTo 1024) (tabGet_tabSet_same _ _ _ _)
/-- The entry that the host writes into the slot at CMD_TAIL before it moves CMD_HEAD by one is in flight where it is taken at once. -/
theorem cmdHeadWrite_one {bs : Bytes} {e : CmdEntry} {op n : Nat} (hp : parseEntry 5 (padTo 1024 (bs.take 1024)) = .ok e op n)
    (hop : opcodes.contains op = true) (he : entryTakes s e = true) :
    let t := cmdHeadWrite s (s.qspi.cmdTail + 1) [bs]
    quiet s t ∧ mbsBut s t 5 ∧ (mbOf t 5).flights = [{ entry := e, opcode := op, wait := none }] ∧ (mbOf t 5).sNext = e.seq + 1 := by
  have hn : (s.qspi.cmdTail + 1 - s.qspi.cmdTail).toNat = 1 := by
    rw [show s.qspi.cmdTail + 1 - s.qspi.cmdTail = 1 by bv_omega]
    rfl
  have hx : cmdHeadWrite s (s.qspi.cmdTail + 1) [bs] = deliver (oneSlot s bs) e op := by
    rw [cmdHeadWrite_takes [bs] (by omega), hn]
    show takeEntry (oneSlot s bs) 5 (cmdSlot (oneSlot s bs) s.qspi.cmdTail.toNat) = _
    rw [takeEntry, cmdSlot_oneSlot, hp]
  obtain ⟨hq, ho, hf, hk⟩ := deliver_taken (s := oneSlot s bs) hop he
  rw [parseEntry_master hp] at ho hf hk
  rw [hx]
  exact ⟨quiet.trans (t := oneSlot s bs) rfl hq, ho, hf, hk⟩

/-- A CPL_TAIL beyond CPL_HEAD sets RING_ERR; any other frees its slots. -/
theorem cplTailWrite_breaks {tail : BitVec 16} (h : (s.qspi.cplHead - s.qspi.cplTail).toNat < (tail - s.qspi.cplTail).toNat) :
    cplTailWrite s tail = ringErr s := if_pos h
theorem cplTailWrite_frees {tail : BitVec 16} (h : (tail - s.qspi.cplTail).toNat ≤ (s.qspi.cplHead - s.qspi.cplTail).toNat) :
    let t := cplTailWrite s tail
    quiet s t ∧ t.qspi = { s.qspi with cplTail := tail } ∧ mbsBut s t 5 ∧ (mbOf t 5).ring = (mbOf s 5).ring.drop (tail - s.qspi.cplTail).toNat := by
  rw [show cplTailWrite s tail = _ from if_neg (by omega)]
  exact ⟨rfl, rfl, fun k hk => mbOf_modMb_other _ _ hk, by rw [mbOf_modMb]; rfl⟩

/-! ### A register write, byte after byte -/

theorem quiet_qspiByte (s : State) (a : Nat) (b : Byte) : quiet s (qspiByte s a b) :=
  quiets.ite rfl (quiets.ite rfl (quiets.ite rfl rfl))
/-- Bytes put at ascending addresses. -/
def bytesPut (s : State) (a : Nat) (bs : Bytes) : State := forEach ((List.range bs.length).zip bs) (fun u p => qspiByte u (a + p.1) p.2) s
theorem quiet_bytesPut (s : State) (a : Nat) (bs : Bytes) : quiet s (bytesPut s a bs) := quiets.loop _ (fun t _ => quiet_qspiByte t _ _) s
theorem bytesPut_nil (s : State) (a : Nat) : bytesPut s a [] = s := rfl
theorem bytesPut_one (s : State) (a : Nat) (b : Byte) : bytesPut s a [b] = qspiByte s a b := rfl
theorem bytesPut_cons (s : State) (a : Nat) (b : Byte) (bs : Bytes) : bytesPut s a (b :: bs) = bytesPut (qspiByte s a b) (a + 1) bs := by
  unfold bytesPut forEach
  rw [List.length_cons, List.range_succ_eq_map, List.zip_cons_cons, List.zip_map_left, List.foldl_cons, List.foldl_map]
  simp only [Prod.map_fst, Prod.map_snd, id_eq, Nat.succ_eq_add_one, Nat.add_right_comm a, Nat.add_zero, ← Nat.add_assoc]

/-! ### Rows from READY on and before it (R496) -/

section
variable (h : s.boot.ready = true)
include h
theorem exec_qspiCmdHead (head : BitVec 16) (sl : List Bytes) : exec (.qspiCmdHeadWrite head sl) s = finishD s (cmdHeadWrite s head sl) := by
  show finishD s (when s.boot.ready _ s) = _
  rw [h, when_true]
theorem exec_qspiCplTail (tail : BitVec 16) : exec (.qspiCplTailWrite tail) s = finishD s (cplTailWrite s tail) := by
  show finishD s (when s.boot.ready _ s) = _
  rw [h, when_true]
theorem exec_qspiIrqClear (mask : BitVec 32) : exec (.qspiIrqStatClear mask) s = .next (irqClear s mask) := by
  show finishD s (when s.boot.ready _ s) = _
  rw [h]
  rfl
theorem exec_qspiRegister (a : BitVec 24) (bs : Bytes) : exec (.qspiRegisterWrite a bs) s = .next (bytesPut s a.toNat bs) := by
  show finishD s (when s.boot.ready (fun t => bytesPut t a.toNat bs) s) = _
  rw [h, when_true]
  exact finishD_quiet (quiet_bytesPut s a.toNat bs)
end
theorem exec_qspi_unready (h : s.boot.ready = false) : (∀ head sl, exec (.qspiCmdHeadWrite head sl) s = .next s) ∧
    (∀ tail, exec (.qspiCplTailWrite tail) s = .next s) ∧ (∀ m, exec (.qspiIrqStatClear m) s = .next s) ∧ ∀ a bs, exec (.qspiRegisterWrite a bs) s = .next s := by
  have hw : ∀ f : State → State, finishD s (when s.boot.ready f s) = .next s := fun f => by rw [h]; rfl
  exact ⟨fun _ _ => hw _, fun _ => hw _, fun _ => hw _, fun _ _ => hw _⟩

/-! ### Bytes of a register write -/

/-- A byte that replaces one of a register, and the others, which stay: at each pair of the four places a fact about the number's digits. -/
theorem extract_regByte (v : BitVec 32) (b : Byte) {i k : Nat} (hi : i < 4) (hk : k < 4) :
    (regByte v i b).extractLsb' (8 * k) 8 = if k = i then b else v.extractLsb' (8 * k) 8 := by
  have hv := v.isLt
  have hb := b.isLt
  apply BitVec.eq_of_toNat_eq
  rw [apply_ite BitVec.toNat]
  simp only [BitVec.extractLsb'_toNat, regByte, BitVec.toNat_ofNat, Nat.shiftRight_eq_div_pow]
  interval_cases i <;> interval_cases k <;> simp <;> omega

theorem qspiByte_irq0 {a : Nat} (b : Byte) (h : a / 4 = 5) : qspiByte s a b = { s with qspi.irq0En := regByte s.qspi.irq0En (a % 4) b } := if_pos h
theorem qspiByte_irq1 {a : Nat} (b : Byte) (h : a / 4 = 6) : qspiByte s a b = { s with qspi.irq1En := regByte s.qspi.irq1En (a % 4) b } := by
  unfold qspiByte
  rw [if_neg (by omega), if_pos h]
/-- The command ring with one byte of a slot replaced. -/
def ringByte (s : State) (a : Nat) (b : Byte) : State :=
  cmdSlotPut s (a % 0x10000 / 1024) ((cmdSlot s (a % 0x10000 / 1024)).take (a % 1024) ++ b :: (cmdSlot s (a % 0x10000 / 1024)).drop (a % 1024 + 1))
theorem qspiByte_ring {a : Nat} (b : Byte) (h : a / 0x10000 = 1) : qspiByte s a b = ringByte s a b := by
  unfold qspiByte
  rw [if_neg (by omega), if_neg (by omega), if_pos h]
  rfl
theorem qspiByte_elsewhere {a : Nat} (b : Byte) (h5 : a / 4 ≠ 5) (h6 : a / 4 ≠ 6) (h1 : a / 0x10000 ≠ 1) : qspiByte s a b = s := by
  unfold qspiByte
  rw [if_neg h5, if_neg h6, if_neg h1]

theorem cmdSlot_length (s : State) (i : Nat) : 1024 ≤ (cmdSlot s i).length := by
  simp only [cmdSlot, padTo, zeros, List.length_append, List.length_replicate]
  omega
/-- A byte of the command ring, as the host reads it. -/
theorem qspiRead_ring (hr : s.boot.ready = true) {x : Nat} (h : x / 0x10000 = 1) :
    qspiRead s x = (cmdSlot s (x % 0x10000 / 1024)).getD (x % 1024) 0 := by
  unfold qspiRead
  rw [if_neg (by omega), if_neg (by simp [hr]), if_neg (by omega), if_pos h]
/-- A list with one byte replaced reads it at its place, and as it was elsewhere. -/
theorem getD_replaced (l : Bytes) (b : Byte) {o j : Nat} (ho : o < l.length) :
    (l.take o ++ b :: l.drop (o + 1)).getD j 0 = if j = o then b else l.getD j 0 := by
  rw [← List.set_eq_take_cons_drop b ho, List.getD_eq_getElem?_getD, List.getD_eq_getElem?_getD, List.getElem?_set, if_pos ho]
  by_cases h : o = j
  · rw [if_pos h, if_pos h.symm]
    rfl
  · rw [if_neg h, if_neg (Ne.symm h)]
/-- A slot reads the bytes that were written into it; the others stay. -/
theorem cmdSlot_put (s : State) {i k : Nat} (bs : Bytes) (hi : i < 64) (hk : k < 64) (hb : 1024 ≤ bs.length) :
    cmdSlot (cmdSlotPut s i bs) k = if k = i then bs.take 1024 else cmdSlot s k := by
  unfold cmdSlot cmdSlotPut
  dsimp only
  rw [Nat.mod_eq_of_lt hi, Nat.mod_eq_of_lt hk]
  split
  · next h =>
    rw [h, tabGet_tabSet_same, padTo, List.length_take, Nat.min_eq_left hb]
    exact List.append_nil _
  · next h => rw [tabGet_tabSet_other _ _ _ h]
/-- A byte of the command ring reads as it was written; every other byte of the ring stays. -/
theorem qspiRead_ringByte (hr : s.boot.ready = true) {a x : Nat} (b : Byte) (ha : a / 0x10000 = 1) (hx : x / 0x10000 = 1) :
    qspiRead (ringByte s a b) x = if x = a then b else qspiRead s x := by
  have hl := cmdSlot_length s (a % 0x10000 / 1024)
  have hn : 1024 ≤ ((cmdSlot s (a % 0x10000 / 1024)).take (a % 1024) ++ b :: (cmdSlot s (a % 0x10000 / 1024)).drop (a % 1024 + 1)).length := by
    simp only [List.length_append, List.length_take, List.length_cons, List.length_drop]
    omega
  rw [qspiRead_ring hr hx, qspiRead_ring (s := ringByte s a b) hr hx, ringByte, cmdSlot_put s _ (by omega) (by omega) hn]
  by_cases hs : x % 0x10000 / 1024 = a % 0x10000 / 1024
  · rw [if_pos hs, hs, List.getD_eq_getElem?_getD, List.getElem?_take_of_lt (by omega), ← List.getD_eq_getElem?_getD, getD_replaced _ _ (by omega)]
    exact if_congr (by omega) rfl rfl
  · rw [if_neg hs, if_neg (by rintro rfl; exact hs rfl)]

/-- A write of several bytes is one of the first and then one of the others from the next address on. -/
theorem exec_qspiRegister_cons (hr : s.boot.ready = true) {a : BitVec 24} {b : Byte} {bs : Bytes} {t : State} (ha : a.toNat + 1 + bs.length < 0x1000000)
    (ht : exec (.qspiRegisterWrite a [b]) s = .next t) : exec (.qspiRegisterWrite a (b :: bs)) s = exec (.qspiRegisterWrite (a + 1) bs) t := by
  have hq := quiet_qspiByte s a.toNat b
  have hn : (a + 1).toNat = a.toNat + 1 := by
    rw [BitVec.toNat_add_of_lt (by simp; omega)]
    rfl
  rw [exec_qspiRegister hr, bytesPut_one] at ht
  cases ht
  have hr' : (qspiByte s a.toNat b).boot.ready = true := by
    unfold quiet at hq
    rw [hq, hr]
  rw [exec_qspiRegister hr, exec_qspiRegister hr', bytesPut_cons, hn]

/-- What one byte of a register write does, by its address. -/
theorem qspiByte_effect (hr : s.boot.ready = true) (a : Nat) (b : Byte) :
    let t := qspiByte s a b
    (a / 4 = 5 → t = { s with qspi.irq0En := t.qspi.irq0En } ∧
      ∀ k < 4, t.qspi.irq0En.extractLsb' (8 * k) 8 = if k = a % 4 then b else s.qspi.irq0En.extractLsb' (8 * k) 8) ∧
    (a / 4 = 6 → t = { s with qspi.irq1En := t.qspi.irq1En } ∧
      ∀ k < 4, t.qspi.irq1En.extractLsb' (8 * k) 8 = if k = a % 4 then b else s.qspi.irq1En.extractLsb' (8 * k) 8) ∧
    (a / 0x10000 = 1 → t = { s with qspi.cmdMem := t.qspi.cmdMem } ∧ ∀ x, x / 0x10000 = 1 → qspiRead t x = if x = a then b else qspiRead s x) ∧
    (a / 4 ≠ 5 → a / 4 ≠ 6 → a / 0x10000 ≠ 1 → t = s) := by
  have hm : a % 4 < 4 := Nat.mod_lt _ (by decide)
  refine ⟨fun h => ?_, fun h => ?_, fun h => ?_, qspiByte_elsewhere b⟩
  · rw [qspiByte_irq0 b h]
    exact ⟨rfl, fun k hk => extract_regByte _ b hm hk⟩
  · rw [qspiByte_irq1 b h]
    exact ⟨rfl, fun k hk => extract_regByte _ b hm hk⟩
  · rw [qspiByte_ring b h]
    exact ⟨rfl, fun x hx => qspiRead_ringByte hr b h hx⟩
end

end Sys2Proof.Machine

/-- Settles O47: a head or a tail by whether it breaks the rules of its ring (`cmdHeadWrite_takes`, `cplTailWrite_frees`), a register write by the address
of each of its bytes (`qspiByte_effect`, `exec_qspiRegister_cons`), and every row by READY. -/
theorem qspiRows : Obligations.QspiRows := by
  refine fun s => ⟨fun hr => ⟨fun head sl h => ?_, fun head sl h => ?_, fun bs e op n hp hop he => ?_, fun tail h => ?_, fun tail h => ?_, fun mask => ?_,
    fun a b => ?_, fun a b bs t => exec_qspiRegister_cons hr, fun a => exec_qspiRegister hr a []⟩, exec_qspi_unready⟩
  · have h := cmdHeadWrite_breaks sl h
    exact goes_quiet (exec_qspiCmdHead hr head sl) (u := s) (by rw [h]; rfl) h
  · obtain ⟨hq, hp⟩ := cmdHeadWrite_pointers sl h
    exact goes_quiet (exec_qspiCmdHead hr head sl) hq ⟨hq, congrArg Prod.fst hp, congrArg (fun p => p.2.1) hp, congrArg (fun p => p.2.2) hp⟩
  · have h := cmdHeadWrite_one hp hop he
    exact goes_quiet (exec_qspiCmdHead hr _ _) h.1 h
  · rw [exec_qspiCplTail hr, cplTailWrite_breaks h]
    rfl
  · have h := cplTailWrite_frees h
    exact goes_quiet (exec_qspiCplTail hr tail) h.1 h
  · exact ⟨_, exec_qspiIrqClear hr mask, rfl, rfl, rfl, rfl, rfl, rfl, rfl, rfl⟩
  · exact ⟨_, exec_qspiRegister hr a [b], qspiByte_effect hr a.toNat b⟩
end

section
/-! The commands that only read, and what a standby does not serve (R353, R378, R380, R391, R397, R420). -/
open Sys2Proof Sys2Proof.Machine
namespace Sys2Proof.Machine

/-! ### A row that carries a command is that command -/

/-- How the row of a command ends: SAFE_RESET and SAFE_STATUS are rows of the island (R444), and FW_DATA stores in DDR (R504). -/
def rowEnd : Instr → State → State → Host.Outcome State Fault Refusal
  | .safeReset _ | .safeStatus _ => finish
  | .fwData _ => finishM
  | _ => finishD

theorem rowEnd_quiet (i : Instr) {s t : State} (h : quiet s t) : rowEnd i s t = .next t := by
  unfold quiet at h
  unfold rowEnd
  split <;> rw [h] <;> rfl

section
variable {i : Instr} {e : CmdEntry} {op : Nat}
theorem exec_rowCommand (h : rowCommand i = some (e, op)) (s : State) : ∃ body, exec i s = rowEnd i s (command s e op body) := by
  unfold rowCommand at h
  split at h <;> cases h <;> exact ⟨_, rfl⟩
/-- Its opcode is one of the catalogue. -/
theorem rowCommand_listed (h : rowCommand i = some (e, op)) : opcodes.contains op = true := by
  unfold rowCommand at h
  split at h <;> cases h <;> rfl
end

/-- A standby turns away the command of a row that it does not serve (R353, R380). -/
theorem goes_standby {i : Instr} {e : CmdEntry} {op : Nat} {s : State} (hi : rowCommand i = some (e, op)) (h : entryTakes s e = true)
    (hs : isStandby s = true) (ho : opStandby op = false) :
    goes i s (fun t => answered s t e op (if op = 0x0801 then 0xA004 else 0x2006) [] ∧ quiet s t) := by
  obtain ⟨body, hx⟩ := exec_rowCommand hi s
  have hc := command_standby op body h hs ho (rowCommand_listed hi)
  exact ⟨_, hx.trans (rowEnd_quiet i hc.2), hc⟩

/-! ### Checks of the reads (R378) -/

section
variable {s : State} {m : Nat} {pl : Bytes}

/-- An effect runs where each of the checks before it passes. -/
theorem checked_passes {cs : List (Bool × Nat)} (k : State × CmdRes) (h : ∀ c ∈ cs, c.1 = true) : checked s cs k = k := by
  have hf : firstFail cs = none := by
    induction cs with
    | nil => rfl
    | cons c cs ih =>
      rw [firstFail, if_pos (h c (by simp))]
      exact ih fun x hx => h x (List.mem_cons_of_mem _ hx)
  rw [checked, hf]

/-- The checks of a read without operands. -/
theorem checked_bare {tgt : Nat} (hp : pl = []) (hr : hasRights s m tgt rREAD = true) (k : State × CmdRes) :
    checked s [(pl.length = 0, 0x2002), (hasRights s m tgt rREAD, 0x2005)] k = k :=
  checked_passes k (by simp [hp, hr])
/-- The checks of a read of up to 15 records from one on. -/
theorem checked_records {tgt : Nat} (hl : pl.length = 8) (h1 : 1 ≤ word pl 1) (h15 : word pl 1 ≤ 15) (hr : hasRights s m tgt rREAD = true) (k : State × CmdRes) :
    checked s [(pl.length = 8 && 1 ≤ word pl 1 % 16, 0x2002), (onlyBits 0xF (word pl 1), 0x2003), (hasRights s m tgt rREAD, 0x2005)] k = k := by
  have hb : onlyBits 0xF (word pl 1) = true := onlyBits_low 4 _ (by omega)
  have hn : 1 ≤ word pl 1 % 16 := by omega
  exact checked_passes k (by simp [hl, hb, hn, hr])

theorem evlogRun_reads (hl : pl.length = 8) (h1 : 1 ≤ word pl 1) (h15 : word pl 1 ≤ 15) (hr : hasRights s m 3 rREAD = true) :
    evlogRun s m pl = (s, .fin 0 (evlogPayload s (word pl 0) (word pl 1))) := by
  refine (checked_records hl h1 h15 hr _).trans ?_
  rw [Nat.mod_eq_of_lt (by omega)]
theorem auditReadRun_reads (hl : pl.length = 8) (h1 : 1 ≤ word pl 1) (h15 : word pl 1 ≤ 15) (hr : hasRights s m 4 rREAD = true) :
    auditReadRun s m pl = (s, .fin 0 (auditPayload s (word pl 0) (word pl 1))) := by
  refine (checked_records hl h1 h15 hr _).trans ?_
  rw [Nat.mod_eq_of_lt (by omega)]

/-! ### A first number and a count in one word -/

variable {x n : Nat}
theorem placeReportRun_reads (hx : x < 65536) (hn : n ≤ 57) (hr : hasRights s m 1 rREAD = true) :
    placeReportRun s m (le 4 (x + n * 65536)) = (s, .fin 0 (placeReportPayload s x n)) := by
  have hw : word (le 4 (x + n * 65536)) 0 = x + n * 65536 := word_le4 _ (by omega)
  have hlo : (x + n * 65536) % 65536 = x := by omega
  have hhi : (x + n * 65536) / 65536 % 256 = n := by omega
  have hb : onlyBits 0xFFFFFF (x + n * 65536) = true := onlyBits_low 24 _ (by omega)
  unfold placeReportRun
  simp only [hw, hlo, hhi]
  exact checked_passes _ (by simp [hn, hb, hr])
theorem draftReadRun_reads (hx : x < 65536) (h1 : 1 ≤ n) (hn : n ≤ 125) (he : x + n ≤ 3072) (hr : hasRights s m 1 rREAD = true) :
    draftReadRun s m (le 4 (x + n * 65536)) = (s, .fin 0 (draftPayload s x n)) := by
  have hw : word (le 4 (x + n * 65536)) 0 = x + n * 65536 := word_le4 _ (by omega)
  have hlo : (x + n * 65536) % 65536 = x := by omega
  have hhi : (x + n * 65536) / 65536 = n := by omega
  unfold draftReadRun
  simp only [hw, hlo, hhi]
  exact checked_passes _ (by simp [h1, hn, he, hr])
theorem accReadRun_reads (hx : x < 32) (hr : hasRights s m 4 rREAD = true) : accReadRun s m (le 4 x) = (s, .fin 0 (accReadPayload s x)) := by
  have hw : word (le 4 x) 0 = x := word_le4 _ (by omega)
  have hb : onlyBits 0x1F x = true := onlyBits_low 5 _ hx
  unfold accReadRun
  simp only [hw, Nat.mod_eq_of_lt hx]
  exact checked_passes _ (by simp [hb, hr])
end

/-! ### What a read shows while its command executes -/

section
variable (s : State) (e : CmdEntry) (op : Nat)
theorem auditPayload_taken (a n : Nat) : auditPayload (taken s e op) a n = auditPayload s a n := by
  rw [show taken s e op = _ from quiet_taken s e op]
  rfl
theorem placeReportPayload_taken (x n : Nat) : placeReportPayload (taken s e op) x n = placeReportPayload s x n := by
  rw [placeReportPayload, warp_taken]
  rfl
theorem draftPayload_taken (x n : Nat) : draftPayload (taken s e op) x n = draftPayload s x n := by
  rw [draftPayload, warp_taken]
  rfl
theorem accReadPayload_taken (x : Nat) : accReadPayload (taken s e op) x = accReadPayload s x := by
  rw [show taken s e op = _ from quiet_taken s e op]
  rfl
theorem stagedPayload_taken : stagedPayload (taken s e op) = stagedPayload s := by
  rw [show taken s e op = _ from quiet_taken s e op]
  rfl
theorem safWords_taken : safWords (taken s e op) = safWords s := by
  rw [show taken s e op = _ from quiet_taken s e op]
  rfl
end
section
variable {s : State} {e : CmdEntry}
theorem evlogPayload_taken (op a n : Nat) (h : entryTakes s e = true) : evlogPayload (taken s e op) a n = evlogPayload s a n := by
  rw [evlogPayload, taken_log op h]
  rfl
/-- An item more leaves the words of PAIR_STATUS (R493). -/
theorem pairWords_itemAdd (s : State) (b : ItemBody) (bolt : Bool) : pairWords { s with pair := itemAdd s b bolt } = pairWords s := by
  simp only [itemAdd]
  split <;> rfl
theorem pairWords_taken (op : Nat) (h : entryTakes s e = true) : pairWords (taken s e op) = pairWords s := by
  show pairWords { s with pair := (taken s e op).pair } = _
  rw [taken_pair op h]
  split
  · exact pairWords_itemAdd s _ _
  · rfl
end

end Sys2Proof.Machine

/-- Settles O1: a standby turns its command away by `goes_standby`; each read by its checks (`checked_bare`, `checked_records` and the reads of one word),
and by what it shows being the same while its command executes. -/
theorem readCommandsReturn : Obligations.ReadCommandsReturn := by
  refine fun e s h => ⟨fun i op hi hs ho => goes_standby hi h hs ho, fun hp => ⟨?_, ?_, fun hr => ?_, fun hr => ?_, fun hr => ?_⟩,
    fun hl h1 h15 => ⟨fun hr => ?_, fun hr => ?_⟩, fun x n hp hx => ⟨fun hn hr => ?_, fun h1 hn hm hr => ?_, fun hn hx hr => ?_⟩⟩
  · exact completes_read_served (.inl rfl) h (by rw [hp]; rfl)
  · exact completes_read_served (.inl rfl) h (by rw [hp]; rfl)
  · rw [← pairWords_taken 0x0D02 h]
    exact completes_read_served (.inl rfl) h (checked_bare hp (by rwa [hasRights_taken]) _)
  · rw [← safWords_taken s e 0x0C02]
    exact completes_read_served (.inr rfl) h (checked_bare hp (by rwa [hasRights_taken]) _)
  · rw [← stagedPayload_taken s e 0x0205]
    exact completes_read_served (.inl rfl) h (checked_bare hp (by rwa [hasRights_taken]) _)
  · rw [← evlogPayload_taken 0x0102 _ _ h]
    exact completes_read_served (.inl rfl) h (evlogRun_reads hl h1 h15 (by rwa [hasRights_taken]))
  · rw [← auditPayload_taken s e 0x0A05]
    exact completes_read_served (.inl rfl) h (auditReadRun_reads hl h1 h15 (by rwa [hasRights_taken]))
  · rw [← placeReportPayload_taken s e 0x0302]
    exact completes_read_served (.inl rfl) h (by rw [hp]; exact placeReportRun_reads hx hn (by rwa [hasRights_taken]))
  · rw [← draftPayload_taken s e 0x0303]
    exact completes_read_served (.inl rfl) h (by rw [hp]; exact draftReadRun_reads hx h1 hn hm (by rwa [hasRights_taken]))
  · subst hn
    rw [← accReadPayload_taken s e 0x0A01]
    exact completes_read_served (.inl rfl) h (by rw [hp, Nat.zero_mul, Nat.add_zero]; exact accReadRun_reads hx (by rwa [hasRights_taken]))
end
